-- ==== Sys2Proof/Word.lean ====
section
/-! DEFINITION. The word type of the hub's registers and a named bit field of one (R11, R14). -/

namespace Sys2Proof

/-- A register or a word of a store: 32 bits, bit 0 the least significant (R11). -/
abbrev Word := BitVec 32

/-- A named field of a register: the register's address, its lowest bit and its width in bits. -/
structure Fld where
  reg : Nat
  lo : Nat
  w : Nat
deriving DecidableEq, Repr

end Sys2Proof
end

