-- ==== Sys2Proof/Syntax.lean ====
section
/-! DEFINITION. The commands of the hub: one constructor for each row of the opcode table, with what the row's event or command brings with it.

Operands are numbers of the hub's units as the spec numbers them: `m` is a master (0 the PF, 1 to 64 the VFs, 65 the sideband, R326), `v` a
word written; a measured value carries its unit in the meaning's own docstring. -/

namespace Sys2Proof

/-- A SYNC message as its blocks carry it (R84), its reserved bits (6:0 of the control block and 31:0 of data block 2) included, with the stamps of its ingress and egress in tally LSBs (R87) and how far it lies from
the servo's prediction, in fs (R95). -/
structure SyncMsg where
  dom : Nat
  seq : Nat
  master : Nat
  flags : Nat
  logInt : Nat
  hops : Nat
  origin : Nat
  correction : Int
  tIn : Nat
  tOut : Nat
  dev : Int
  rsvC : Nat := 0
  rsvD : Nat := 0
deriving DecidableEq, Repr

/-- An edge at a reed's input (R187): the rim period in which its samplers took it, counted as the reference strand's positions are, the bin of the reed's
TDC, and whether it rises. `cond` numbers the condition of the run in which it fell (`ReedRun.conds`), and `loose` is its arrival where no placed
reference edge puts it in the window of R189. -/
structure InputEdge where
  period : Int
  bin : Nat
  rises : Bool := true
  cond : Nat := 0
  loose : Int := 0
deriving DecidableEq, Repr

/-- What a reed has seen at the end of a run: the rim period at which the run started, the input's edges in order, the tally of the reference edge that the
first timestamped one is measured against, and FIRST, MIN, MAX and the edge number of a run without a sample, which the spec does not state. -/
structure ReedData where
  start : Int := 0
  edges : List InputEdge
  tally : Nat
  edge : Nat := 0
  first : Int := 0
deriving DecidableEq, Repr

/-- What the three passes over a DTC cell measure (R212): for each firing, the bin of the check TDC in which the cell's edge falls and the bin of the
reference tap's edge. -/
structure CellSweep where
  passA : List (Nat × Nat)
  passB : List (Nat × Nat)
  pass2 : List (Nat × Nat)
deriving DecidableEq, Repr

/-- What a lane's eye monitor counts (R219): the mismatches over 2^24 bits at 0, 1, 2 … steps from the middle in each direction. -/
structure EyeScan where
  left : List Nat := []
  right : List Nat := []
  up : List Nat := []
  down : List Nat := []
deriving DecidableEq, Repr

/-- What a lane's receiver meets (R262, R264, R268, R269): a block error, a frame that fails its CRC, a gap in FSEQ, an uncorrectable codeword, a
codeword that the FEC corrects, a frame that the far end sends again, or block lock that comes back. -/
inductive LineError where
  | block
  | crc
  | gap
  | uncorrectable
  | corrected
  | resent
  | relock
deriving DecidableEq, Repr

/-- What a self-test finds (R407 to R414): the physical strands and the wales whose shared logic fail, each MISR check with its signature and
whether it matches, the failing bits of each macro by row and column, the spares that fail themselves and the macros that still fail after
repair, the lanes that fail loopback, and the durations as BIST_TIME lays them out. -/
structure SelfTest where
  strands : List Nat := []
  wales : List Nat := []
  misr : List (Bool × Nat) := []
  bits : List (Nat × List (Nat × Nat)) := []
  spares : List (Nat × Nat) := []
  still : List Nat := []
  lanes : List Nat := []
  time : Word := 0
deriving DecidableEq, Repr

/-- What holds the messages of a function back (R341): the mask of a vector, the function mask, a clear Bus Master Enable, or D3hot. -/
inductive MsixCond where
  | vector (v : Nat)
  | function
  | busMaster
  | d3hot
deriving DecidableEq, Repr

/-- A sideband transfer's bytes are numbers below 256. -/
abbrev Bytes := List Nat

/-- A frame of a downstream hub that travels up the chain (R282): a completion with its words, or a credit grant, with the writer's chain
position. -/
inductive UpFrame where
  | cpl (chain : Nat) (ws : List Word)
  | credit (count cls basket chain : Nat)
deriving DecidableEq, Repr

/-- A command of R141 that comes to be parsed: from physical lane `p`, in a CMD_U frame where `urgent` holds, with its four words, or from the head of host ring `r` (R143). -/
inductive CmdIn where
  | lane (p : Nat) (urgent : Bool) (w0 w1 w2 w3 : Word)
  | host (r : Nat)
deriving DecidableEq, Repr

/-- A command of the opcode table: something that comes to the hub from outside, or that comes about in it. -/
inductive Instr where
  /-- XREF_ACTIVITY_TRIP (R47): No XREF transition for 500 ns trips the activity monitor, and XREF becomes ABSENT; a selected source that is lost starts a switch, HOLDOVER or WAIT. -/
  | xrefActivityTrip
  /-- XREF_ACTIVITY_RETURN (R45): The XREF activity monitor sees edges again, and XREF moves from ABSENT to SETTLING, restarting its settle delay. -/
  | xrefActivityReturn
  /-- XREF_SETTLE_ELAPSED (R51): The XREF settle delay elapses, and XREF enters CHECKING. -/
  | xrefSettleElapsed
  /-- WARP_SOURCE_PRESENT (R45): A warp lane gains both CDR lock and block lock, and its source moves from ABSENT to CHECKING. -/
  | warpSourcePresent (x : Nat)
  /-- QUALIFICATION_WINDOW_ELAPSED (R45): A source has passed every applicable monitor for 1 ms and becomes QUALIFIED, and may be selected under the PRIO rules. `xs` are the sources that do so at this moment (R59). -/
  | qualificationWindowElapsed (xs : List Nat)
  /-- COARSE_FREQ_GATE_END (R47): A 100 us coarse-frequency gate ends, and an offset beyond 2,000 ppm returns the source to CHECKING. -/
  | coarseFreqGateEnd (x : Nat) (off : Int)
  /-- FINE_FREQ_GATE_END (R47): A 1 ms fine-frequency gate on a non-selected source ends, and an offset beyond FWIN returns it to CHECKING. -/
  | fineFreqGateEnd (x : Nat) (off : Int)
  /-- PHASE_HIT (R47): A source's phase moves by more than PHIT within 1 us; this restarts its qualification, or is handled as a loss if the source is selected. -/
  | phaseHit (x : Nat) (mv : Int) (ph : Int)
  /-- HEARTH_LOCK_DECLARE (R53): The hearth's phase error stays within 100 ps for 1 ms, and it enters LOCKED, which starts the bandwidth staircase and clears the WAIT causes. -/
  | hearthLockDeclare
  /-- HEARTH_UNLOCK (R64): The hearth declares unlock while LOCKED, enters WAIT and reacquires from its current source. -/
  | hearthUnlock
  /-- HEARTH_BW_STEP (R54): After 20 ms the hearth steps its loop bandwidth down one code towards HRT_CTRL.BW. -/
  | hearthBwStep
  /-- REVERTIVE_WTR_ELAPSED (R55): A higher-priority source has been QUALIFIED without a break for WTR, and with REVERTIVE set the hub switches back to it. -/
  | revertiveWtrElapsed (x : Nat)
  /-- HOLDOVER_WINDOW_EXPIRE (R61): HOLD_WIN expires with no source qualified, and the hearth enters LOST. -/
  | holdoverWindowExpire
  /-- WAIT_MAX_EXPIRE (R62): WAIT_MAX expires, and the hearth enters LOST. -/
  | waitMaxExpire
  /-- REACQUISITION_FAIL (R64): A reacquisition attempt that has not declared lock within 10 ms fails, and a third failure within 1 s takes the hearth to LOST. -/
  | reacquisitionFail
  /-- HISTORY_VALID (R60): After 2 s LOCKED to a QUALIFIED source without a break, the tuning history becomes valid. -/
  | historyValid
  /-- REQUALIFY_X (R51): HRT_CMD REQUALIFY_X returns XREF to SETTLING and restarts its full settle delay. -/
  | requalifyX (m : Nat)
  /-- CLEAR_HISTORY (R60): HRT_CMD CLEAR_HISTORY invalidates the tuning history. -/
  | clearHistory (m : Nat)
  /-- HRT_SWITCH_NOW (R55): HRT_CMD SWITCH_NOW selects the highest-priority QUALIFIED source in AUTO mode; in FORCED mode it is ignored and sets VAL_REJ. -/
  | hrtSwitchNow (m : Nat)
  /-- HRT_CTRL_WRITE (R56): A write to HRT_CTRL sets the mode, forced source, priority, bandwidth and slew; a write that forces a source that is not QUALIFIED is ignored and sets FORCE_REJ. -/
  | hrtCtrlWrite (m : Nat) (v : Word)
  /-- HRT_XREF_SETTLE_WRITE (R51): A write to HRT_XREF_SETTLE applies to the count in progress, and enters CHECKING at once if the time elapsed already reaches the new value. -/
  | hrtXrefSettleWrite (m : Nat) (v : Word)
  /-- RIM_LOCK_DECLARE (R68): A rim's phase error stays within LOCK_WIN for 256 reference cycles, and the rim declares lock. -/
  | rimLockDeclare (n : Nat) (code : Nat) (band : Nat)
  /-- RIM_UNLOCK (R72): A rim declares unlock outside RETUNE; its strands become not ready, its spokes park and class B is raised in each owning basket, including the migration cases of R75. -/
  | rimUnlock (p : Nat)
  /-- RELOCK_WAIT_EXPIRE (R72): RELOCK_WAIT passes without a relock, and with AUTO_MIGRATE set the lowest free spare rim starts locking. -/
  | relockWaitExpire (n : Nat)
  /-- SPARE_RIM_LOCK (R72): A spare rim locks during a migration; in an unlock-driven migration every wale is rebound to it at once. -/
  | spareRimLock (n : Nat) (code : Nat) (band : Nat)
  /-- MIGRATION_WALE_MOVE (R74): During a hitless migration one wale completes its move to the spare rim, phase-aligned within 300 fs. -/
  | migrationWaleMove (n : Nat) (delta : Int)
  /-- RETUNE_MAX_EXPIRE (R69): A retune has not locked within RETUNE_MAX; the hop completes as RETUNE_FAIL and the rim is handled as an unlock at the target word. -/
  | retuneMaxExpire (n : Nat)
  /-- RIM_MIGRATE (R74): A RIM_MIGRATE GO starts a hitless migration of a locked logical rim to a spare, or is rejected with MIG_REJ, or waits. -/
  | rimMigrate (m : Nat) (v : Word)
  /-- SYNC_RECEIVE (R85): A SYNC message arrives on a warp lane; it is stamped, checked for acceptance, used by the servo and counted. -/
  | syncReceive (x : Nat) (m : SyncMsg)
  /-- DELAY_REQ_SEND (R91): Every 2^-14 s the hub sends a DELAY_REQ on each lane for which it is the requester. -/
  | delayReqSend (p : Nat) (seq : Nat) (t1 : Nat)
  /-- DELAY_REQ_RECEIVE (R90): The hub receives a DELAY_REQ as responder and answers with a DELAY_RESP carrying TURN. -/
  | delayReqReceive (p : Nat) (seq : Nat) (t2 : Nat) (t3 : Nat)
  /-- DELAY_RESP_RECEIVE (R93): A DELAY_RESP arrives, and the exchange enters the delay average and the calibration count. -/
  | delayRespReceive (p : Nat) (seq : Nat) (turn : Nat) (t4 : Nat)
  /-- DELAY_RESP_TIMEOUT (R93): A DELAY_RESP has not arrived within 100 us of its request; the exchange is not counted and is not retried. -/
  | delayRespTimeout (p : Nat) (seq : Nat)
  /-- DOMAIN_TIMEOUT (R94): No message has been accepted for DOM_TMO, and the domain becomes INVALID. -/
  | domainTimeout (x : Nat)
  /-- TALLY_TRACK_ENTER (R98): The tally offset has stayed within 10 ps for 1 s, and the tally enters TRACKING. -/
  | tallyTrackEnter
  /-- TALLY_SLEW_DONE (R97): The remaining slew offset reaches 10 ps or less, and SLEWING clears. -/
  | tallySlewDone
  /-- DOMAIN_REVERT (R96): With REVERTIVE set, the first domain in DOM_PRIO has been VALID for WTR, and the tally returns to it. -/
  | domainRevert
  /-- BEAT_MARKER_SEND (R102): At each whole multiple of 2^-BEAT_EXP s the hub sends a beat marker in the next payload slot of each ACTIVE partner. -/
  | beatMarkerSend (h : Nat) (stamp : Nat)
  /-- TAL_STEP (R100): TAL_CMD STEP steps the tally to the selected domain and enters ACQUIRE. -/
  | talStep (m : Nat)
  /-- TAL_SLEW (R98): TAL_CMD SLEW slews the tally to the selected domain at ACQ_SLEW and enters ACQUIRE. -/
  | talSlew (m : Nat)
  /-- TAL_SWITCH_NOW (R96): TAL_CMD SWITCH_NOW selects the first VALID domain in DOM_PRIO at once. -/
  | talSwitchNow (m : Nat)
  /-- RESTART_DLCAL (R93): TAL_CMD RESTART_DLCAL restarts deterministic-latency calibration on both warp lanes from step 2. -/
  | restartDlcal (m : Nat)
  /-- TAL_ASYM_WRITE (R93): A write to TAL_ASYM_A or TAL_ASYM_B restarts that link's delay average from step 2. -/
  | talAsymWrite (m : Nat) (x : Nat) (v : Word)
  /-- TAL_NOW0_READ (R83): A read of TAL_NOW0 samples the tally and latches TAL_NOW1 and TAL_NOW2. -/
  | talNow0Read (m : Nat)
  /-- ARM (R146): An ARM command is parsed and checked and, if it passes, enters its basket's ring as QUEUED with a completion entry reserved. -/
  | hopArm (c : CmdIn)
  /-- COMMIT (R156): A COMMIT releases the speculative hop that holds its tag, or completes as TAG_UNKNOWN. -/
  | hopCommit (c : CmdIn)
  /-- SQUASH (R157): A SQUASH completes a speculative hop as SQUASHED, or marks a QUEUED hop squashed, or completes as SQUASH_LATE or TAG_UNKNOWN. -/
  | hopSquash (c : CmdIn)
  /-- RETUNE (R165): A RETUNE command for an exclusive rim is parsed and queued, to begin a retune once the rim is eligible. -/
  | hopRetune (c : CmdIn)
  /-- START (R163): A START command for a bound strand that is not running is parsed and queued. -/
  | strandStart (c : CmdIn)
  /-- STOP (R164): A STOP command is parsed and queued, to make the strand's edge at its boundary the last one. -/
  | strandStop (c : CmdIn)
  /-- NOP (R141): A NOP is consumed at parse with no check, credit, slot, completion or effect. -/
  | nopCmd (c : CmdIn)
  /-- INVALID_OP (R144): A command with an invalid OP or a malformed field completes as BAD_CMD at parse and never enters a ring. -/
  | invalidOp (c : CmdIn)
  /-- MEASURE (R195): A MEASURE maintenance command starts a run on the named reed and completes COMMITTED when the reed accepts it. -/
  | reedMeasure (c : CmdIn)
  /-- MEASURE_STOP (R194): A MEASURE_STOP ends the run in progress on the named reed with CUT. -/
  | measureStop (c : CmdIn)
  /-- CAL_STRAND (R207): A CAL_STRAND command makes a strand or spare pending on its wale's unit, merges with a pending request, or stops one. -/
  | calStrand (c : CmdIn)
  /-- CAL_REED (R216): A CAL_REED command makes a reed pending on its quadrant's unit, or stops it. -/
  | calReed (c : CmdIn)
  /-- CAL_RIM (R218): A keeper CAL_RIM command makes a band sweep or a lock-margin measurement of a physical rim pending, or stops it. -/
  | calRim (c : CmdIn)
  /-- CAL_LANE (R220): A CAL_LANE command makes equaliser adaptation of an ACTIVE lane pending, or stops it. -/
  | calLane (c : CmdIn)
  /-- CAL_STORE (R231): A keeper CAL_STORE command queues the named calibration groups for writing to NVM. -/
  | calStore (c : CmdIn)
  /-- HOP_GRANT (R248): The scheduler grants a QUEUED command an arm slot and starts its profile fetch on its bank. -/
  | hopGrant (r : Nat)
  /-- PROFILE_FETCH_DONE (R139): A profile fetch completes; the record is checked, and the hop becomes SPECULATIVE, ARMED, DUE, HELD, BAD_PROFILE or BAD_RAMP. -/
  | profileFetchDone (id : Nat)
  /-- HOP_TAKE_EFFECT (R150): A DUE hop takes its strand's commit boundary, or a retune begins, and the setting governs the strand from its first edge. -/
  | hopTakeEffect (rim : Bool) (k : Nat) (n : Nat) (at_ : Nat)
  /-- HOLD_MAX_EXPIRE (R149): A hop has been HELD for HOLD_MAX without a break and completes as NOT_READY. -/
  | holdMaxExpire (i : Nat)
  /-- FIRE_LEAD_REACHED (R152): The tally reaches a TIMED hop's fire value less 24 ns, and an eligible released hop becomes DUE. -/
  | fireLeadReached (i : Nat)
  /-- TIMED_MISSED (R153): A TIMED hop that is not DUE at its fire value completes as MISSED. -/
  | timedMissed (i : Nat)
  /-- SPEC_TIMEOUT (R159): A SPECULATIVE hop sees no COMMIT or SQUASH within SPEC_TMO and completes as TIMEOUT. -/
  | specTimeout (i : Nat)
  /-- RAMP_STEP (R166): A ramp step takes the commit boundary 2^RAMP_J periods after the previous step and moves the period towards the target. -/
  | rampStep (k : Nat) (n : Nat)
  /-- STRAND_BASE_MOVE (R167): During a reweave a strand moves to its new time base at its next commit boundary, with the bridge word and the measured offset. -/
  | strandBaseMove (k : Nat) (n : Nat) (delta : Int) (k0 : Int)
  /-- RESIDUAL_VISIT_END (R131): A check TDC visit ends; pass or fail is judged, and consecutive failures make the strand not ready, park its spokes and may start a splice. -/
  | residualVisitEnd (w : Nat) (pos : Nat) (j : Nat) (bins : List Nat)
  /-- RESIDUAL_RETRY_VISIT (R131): Every 1 ms a strand that is not ready through its residual is visited again, and one pass makes it ready. -/
  | residualRetryVisit (k : Nat) (j : Nat) (bins : List Nat)
  /-- SLOT_CLEAR (R123): STR_CMD SLOT_CLEAR clears one coherence slot, or all four, of a strand. -/
  | slotClear (m : Nat) (k : Nat) (j : Nat) (all : Bool)
  /-- RECHECK (R134): STR_CMD RECHECK makes the strand's wale visit that strand next. -/
  | recheck (m : Nat) (k : Nat)
  /-- STR_ACC0_READ (R134): A read of STR_ACC0 latches the strand's per-strand and slot registers at one edge. -/
  | strAcc0Read (m : Nat) (k : Nat)
  /-- SPK_CFG_WRITE (R171): A write to SPK_CFG(n) sets STOP_LEVEL and leaves a PATH or SWING change pending for the next uncommitted low point. -/
  | spkCfgWrite (m : Nat) (n : Nat) (v : Word)
  /-- LOW_POINT_APPLY (R171): At a committed low point of the strand, a pending PATH or SWING change takes effect on the spoke. -/
  | lowPointApply (n : Nat)
  /-- SPK_FORCE_PARK (R174): SPK_FORCE with ACTION park sets C_FORCE and parks the spoke, or every spoke, through the force path. -/
  | spkForcePark (m : Nat) (n : Nat) (all : Bool)
  /-- SPK_FORCE_RELEASE (R174): SPK_FORCE with ACTION release clears C_FORCE on the spoke, or on every spoke. -/
  | spkForceRelease (m : Nat) (n : Nat) (all : Bool)
  /-- SPOKE_RELEASE (R176): A RELEASING spoke leaves PARKED at the first low point at least 20 ns after its last cause cleared. -/
  | spokeRelease (n : Nat)
  /-- REED_RUN (R191): REED_CMD RUN requests a run on the reed, cutting any run in progress. -/
  | reedRun (m : Nat) (n : Nat)
  /-- REED_STOP (R191): REED_CMD STOP ends the run in progress with CUT and writes its record. -/
  | reedStop (m : Nat) (n : Nat) (d : ReedData)
  /-- HIST_CLEAR (R204): REED_CMD HIST_CLEAR zeroes the reed's histogram while the reed is IDLE. -/
  | histClear (m : Nat) (n : Nat)
  /-- REED_RUN_START (R191): A waiting run finds a free record in the ring, reserves it and starts sampling. -/
  | reedRunStart (n : Nat)
  /-- REED_RUN_COMPLETE (R191): A run has taken its samples, or its reference strand has stopped, and it writes its record and returns to IDLE. -/
  | reedRunComplete (n : Nat) (d : ReedData)
  /-- REED_RUN_MAX_EXPIRE (R191): RUN_MAX passes during a run, and the run ends with TIMEOUT and writes its record. -/
  | reedRunMaxExpire (n : Nat) (d : ReedData)
  /-- REED_RES_TAIL_WRITE (R198): A write to REED_RES_TAIL consumes records; a value past HEAD is ignored and sets VAL_REJ. -/
  | reedResTailWrite (m : Nat) (n : Nat) (v : Word)
  /-- REED_CFG_WRITE (R186): A write to REED_CFG(n) sets the next run's settings; a write that breaks the reference or LOOP rules is ignored and sets VAL_REJ. -/
  | reedCfgWrite (m : Nat) (n : Nat) (v : Word)
  /-- CAL_TDC_STAGE_END (R211): The check TDC code-density stage ends, its bin table is set, and the strand becomes STALE for the cell sweeps. -/
  | calTdcStageEnd (w : Nat) (bins : List Nat)
  /-- CAL_CELL_SWEEP_END (R212): The three passes over a RELIEF cell end and its new values are computed and checked for plausibility. -/
  | calCellSweepEnd (w : Nat) (m : CellSweep)
  /-- CAL_CELL_HANDOVER (R213): At a commit boundary a calibrated cell takes its new role, the next cell is swept, or STALE clears and the record is written. -/
  | calCellHandover (w : Nat)
  /-- CAL_REED_STAGE_END (R216): A stage of a reed calibration, code density or cross-measurement, ends, and the next stage or the load follows. -/
  | calReedStageEnd (q : Nat) (bins : List Nat) (east : ReedData) (west : ReedData)
  /-- CAL_RIM_SWEEP_END (R218): The band sweep of a rim that is not in service ends, and its band table is written. -/
  | calRimSweepEnd (bands : List (Nat × Nat))
  /-- CAL_RIM_MARGIN_END (R218): The 10 ms lock-margin measurement of a rim in service ends, and its record is written. -/
  | calRimMarginEnd (code : Nat) (peak : Nat)
  /-- CAL_LANE_STEP_END (R220): An eye measurement or a tap move's evaluation ends during a lane calibration, and the tap is kept, undone or the run ends. -/
  | calLaneStepEnd (p : Nat) (e : EyeScan) (m : List Nat) (hit : Bool)
  /-- CAL_PAUSE_TIMEOUT (R208): A calibration run has been paused by the governor for 100 ms and ends ABANDONED with cause PACE. -/
  | calPauseTimeout (u : Nat)
  /-- OPTIME_MINUTE (R224): The operating-time counter advances by one minute. -/
  | optimeMinute
  /-- CAL_CONDITION_CHANGE (R224): Tj or the rim frequency word moves a calibration record into or out of EXPIRED. -/
  | calConditionChange (i : Nat) (tj : Int)
  /-- NVM_WRITE_COMPLETE (R231): An A/B slot write to NVM (calibration, boot plan, repair map or marker) commits, and STORED or its equivalent is set. -/
  | nvmWriteComplete
  /-- RING_DOORBELL (R237): A write to RING_DB moves PROD of a host command ring or CONS of a completion ring, or is rejected with DB_REJ or DB_OVER. -/
  | ringDoorbell (m : Nat) (v : Word)
  /-- CREDIT_SEND (R241): 16 credits are owed to a lane source, or 1 us has passed with credits owed, and the hub sends a CREDIT frame. -/
  | creditSend (r : Nat) (j : Nat)
  /-- CAPACITY_MEASURE (R251): Every 10 us the hub measures its fetch capacity C, publishes it, and withdraws reservations if C is below those in force. -/
  | capacityMeasure (rates : List Nat)
  /-- RESERVATION_RESTORE (R252): C has stayed high enough for 1 ms, and the next withdrawn reservation step is restored. -/
  | reservationRestore
  /-- ARM_PEAK_WRITE (R258): A write to RING_ARM_TOTAL or RING_BSK_PEAK(b) sets PEAK to the present HELD count. -/
  | armPeakWrite (m : Nat) (b : Option Nat)
  /-- LANE_DETECT (R272): A lane gains block lock on TS at 7 Gb/s, and a weft offer starts its BOND_WAIT. -/
  | laneDetect (p : Nat) (id : Nat) (rates : Nat)
  /-- BOND_WAIT_EXPIRE (R272): BOND_WAIT passes, and every detected lane of the offer enters TRAIN. -/
  | bondWaitExpire (id : Nat)
  /-- TRAIN_READY (R271): Both ends send READY at the training rate, and the lane enters ALIGN. -/
  | trainReady (p : Nat)
  /-- TRAIN_MAX_EXPIRE (R271): TRAIN_MAX passes without READY; the lane retrains at the next lower rate or returns to DETECT. -/
  | trainMaxExpire (p : Nat)
  /-- ALIGN_COMPLETE (R273): ALIGN measurements and pinning complete, and the lane enters NEGOTIATE. -/
  | alignComplete (p : Nat) (rtt : Nat) (tx : Nat) (rx : Nat) (aseq : Nat)
  /-- CAP_RECEIVE (R275): A CAP offer is received; the deciding end chooses rate, FEC, version, time, width and handle, or refuses with RET. -/
  | capReceive (p : Nat) (d1 : Nat) (d2 : Nat)
  /-- AGREED_ECHO (R271): The AGREED word is echoed; a weft lane enters ENUMERATE and a warp lane enters ACTIVE. -/
  | agreedEcho (p : Nat)
  /-- ENUM_ECHO (R271): The partner echoes ENUM, and the bond enters ACTIVE. -/
  | enumEcho (p : Nat)
  /-- RET_RECEIVE (R279): A RET is received, and the bond enters RETIRE. -/
  | retReceive (p : Nat) (w : Nat)
  /-- RETIRE_COMPLETE (R279): Both ends have sent RET with nothing unacknowledged, or 2 us have passed, and the bond returns to DETECT. -/
  | retireComplete (p : Nat)
  /-- REFUSAL_HOLD_EXPIRE (R276): The 100 ms hold after a refusal by RET ends, and the lanes of the offer may train again. -/
  | refusalHoldExpire (ps : List Nat)
  /-- ACK_RECEIVE (R268): An ACK frame is received; acknowledged frames are freed, and a NAK starts a replay attempt. -/
  | ackReceive (p : Nat) (seq : Nat) (nak : Bool) (far : Bool)
  /-- FRAME_ERROR (R268): A block error, a CRC failure or an FSEQ gap discards the frame, sends a NAK and opens a replay episode. -/
  | frameError (p : Nat) (e : LineError)
  /-- REPLAY_TIMEOUT (R268): REPLAY_TMO passes, and the sender makes an attempt or the receiver sends a further NAK. -/
  | replayTimeout (p : Nat) (sender : Bool)
  /-- ACK_SEND (R268): ACK_MAX passes, or 64 frames are pending acknowledgement, and the receiver sends an ACK. -/
  | ackSend (p : Nat) (far : Bool)
  /-- REPLAY_EXHAUST (R269): An episode reaches 8 attempts or 2 us; the hub raises one fault, ends ACTIVE and handles the source as a departure. -/
  | replayExhaust (p : Nat)
  /-- BLOCK_LOCK_LOSS (R268): A lane loses block lock or signal, which counts as a block error and may make a warp source ABSENT. -/
  | blockLockLoss (p : Nat)
  /-- CHAIN_UPSTREAM_FRAME (R282): A CPL or CREDIT frame from a downstream hub arrives on a chain port and is merged onto the warp lane towards the master. -/
  | chainUpstreamFrame (q : Nat) (f : UpFrame)
  /-- RETRAIN (R271): LANE_CMD RETRAIN returns the lane, or its bond, to DETECT. -/
  | retrain (m : Nat) (p : Nat)
  /-- LANE_RETIRE (R279): LANE_CMD RETIRE sends RET 0x0B to a partner or warp lane and starts an orderly departure. -/
  | laneRetire (m : Nat) (p : Nat)
  /-- SUBSTITUTE (R278): LANE_CMD SUBSTITUTE retrains the bond with the group's spare in place of the named lane. -/
  | substitute (m : Nat) (p : Nat)
  /-- PCTL_SEND (R285): A GO in LANE_PCTL_CTRL sends the mailbox message as a PCTL frame to the function's partner, or is rejected. -/
  | pctlSend (m : Nat) (v : Word)
  /-- PCTL_ACK_RECEIVE (R285): The partner's PCTL ACK arrives, and the mailbox message completes DONE. -/
  | pctlAckReceive (h : Nat) (st : Nat)
  /-- PCTL_RX (R285): A PCTL from the partner other than an ACK enters the basket's mailbox, or is dropped when 16 messages are held. -/
  | pctlRx (h : Nat) (d0 : Word) (d1 : Word)
  /-- PCTL_TIMEOUT (R286): No ACK has arrived 10 ms after the PCTL; the message completes TIMEOUT and BUSY holds for a further 10 ms. -/
  | pctlTimeout (c : Nat)
  /-- PCTL_BUSY_END (R286): The 10 ms after a PCTL TIMEOUT end, and BUSY clears. -/
  | pctlBusyEnd (c : Nat)
  /-- PCTL_RX_RELEASE (R285): Writing 1 to LANE_PCTL_RX_INFO.VALID releases the oldest received message and presents the next. -/
  | pctlRxRelease (m : Nat)
  /-- OPEN (R302): PLAN_CMD OPEN zeroes the staging area, starts STAGE_TMO and enters STAGING. -/
  | planOpen (m : Nat)
  /-- VERIFY (R300): PLAN_CMD VERIFY starts the Lid's validation and admission of the staged plan. -/
  | planVerify (m : Nat)
  /-- PLAN_COMMIT (R305): PLAN_CMD COMMIT passes the commit point, or enters COMMIT_WAIT, and starts the full or partial apply. -/
  | planCommit (m : Nat)
  /-- ABORT (R304): PLAN_CMD ABORT ends a load before its commit point with ABORTED 0x80. -/
  | planAbort (m : Nat)
  /-- STORE_BOOT (R307): PLAN_CMD STORE_BOOT writes a verified full plan to the boot slot, entering STORING. -/
  | storeBoot (m : Nat)
  /-- SET_MIN_SEQ (R308): PLAN_CMD SET_MIN_SEQ raises PLAN_MIN_SEQ to the PLAN_SEQ in force and stores it in NVM. -/
  | setMinSeq (m : Nat)
  /-- PLAN_STAGING_WRITE (R302): A keeper write to the staging area in STAGING stores a plan word and restarts STAGE_TMO; other writes are dropped with WR_REJ. -/
  | planStagingWrite (m : Nat) (k : Nat) (v : Word)
  /-- STAGE_TIMEOUT (R304): STAGE_TMO passes without a staging write or a command, and the load ends ABORTED 0x82. -/
  | stageTimeout
  /-- PLAN_VERIFY_DONE (R300): Validation ends, and the load becomes VERIFIED or is REFUSED with a check code. -/
  | planVerifyDone
  /-- COMMIT_WAIT_END (R305): The migration, splice or retune on an included resource ends, and the commit point passes. -/
  | commitWaitEnd
  /-- FULL_REWEAVE_APPLIED (R309): Every bound rim is LOCKED, timed out or waiting for the hearth; credits are granted, C_REWEAVE clears and APPLIED is set. -/
  | fullReweaveApplied
  /-- PARTIAL_REWEAVE_APPLIED (R312): Every included strand has moved or stopped and every named rim is settled; credits are granted and PLAN_FRAG_SEQ is updated. -/
  | partialReweaveApplied
  /-- CLEAR_FAULTED (R368): BSK_CMD CLEAR_FAULTED moves a FAULTED basket to QUIET and writes KEEPER_CLEAR. -/
  | clearFaulted (m : Nat) (b : Nat)
  /-- CLEAR_RECOV (R370): BSK_CMD CLEAR_RECOV removes all recorded recoveries of a basket. -/
  | clearRecov (m : Nat) (b : Nat)
  /-- CLEAR_VIOL (R327): BSK_CMD CLEAR_VIOL clears every violation counter. -/
  | clearViol (m : Nat)
  /-- CHALLENGE (R329): BSK_KEEPER_CMD CHALLENGE makes the Lid issue a fresh keeper nonce, unless refusals are in force. -/
  | challenge (m : Nat)
  /-- RESPOND (R329): BSK_KEEPER_CMD RESPOND spends the nonce and starts verification of the response, entering CHECKING. -/
  | respond (m : Nat) (key : Nat)
  /-- DETACH (R328): BSK_KEEPER_CMD DETACH from the keeper returns the credential to DETACHED. -/
  | keeperDetach (m : Nat)
  /-- KEEPER_VERIFY_DONE (R329): The Lid finishes verifying a response; the PF is ATTACHED, or the state reverts with ATTACH_FAIL. -/
  | keeperVerifyDone
  /-- KEEPER_NONCE_EXPIRE (R329): An unspent keeper nonce expires 10 s after issue. -/
  | keeperNonceExpire
  /-- CHALLENGE_REFUSAL_END (R329): The 1 s refusal of CHALLENGE after a failed verification ends. -/
  | challengeRefusalEnd
  /-- PERST_N_ASSERT (R344): PERST_N is asserted, resetting the PCIe PHY and every function, resetting host and completion rings, aborting host hops and orphaning the keeper. -/
  | perstNAssert
  /-- PERST_N_RELEASE (R343): PERST_N is released, and the link trains towards L0. -/
  | perstNRelease
  /-- HOT_RESET (R344): A hot reset or DL_Down resets the PF and every VF with the effects of R344. -/
  | hotReset
  /-- FLR_PF (R344): An FLR of the PF resets every function with the effects of a hot reset while the link stays in L0. -/
  | flrPf
  /-- FLR_VF (R344): An FLR of VF k resets basket k-1's rings and aborts all its hops, while its strands run on. -/
  | flrVf (k : Nat)
  /-- VF_ENABLE_CLEAR (R344): VF Enable is cleared or NumVFs lowered, acting as an FLR of each VF that disappears. -/
  | vfEnableClear (n : Nat)
  /-- REGISTER_WRITE (R351): A write to a register with no row of its own applies its fields under the access codes, the range checks, the RWS rule and the wide-value buffer. -/
  | registerWrite (m : Nat) (off : Nat) (v : Word) (r : SelfTest) (ok : Bool)
  /-- ALIAS_WRITE (R348): A write to a SET, CLEAR or TOGGLE alias performs the read-modify-write of the register in one handshake. -/
  | aliasWrite (m : Nat) (off : Nat) (v : Word)
  /-- BLK_EN_WRITE (R39): A keeper write to DEV_BLK_EN gates or ungates block handshakes, and pending RWS values take effect on ungating. -/
  | blkEnWrite (m : Nat) (v : Word)
  /-- IND_DATA_ACCESS (R350): An access to IND_DATA reaches the indirect location at IND_ADDR and advances IND_ADDR by 4. -/
  | indDataAccess (m : Nat) (op : Nat) (w : Option Word) (r : SelfTest) (ok : Bool)
  /-- IND_ADDR_WRITE (R350): A write to IND_ADDR sets the window and discards any partly filled holding buffer, setting PARTIAL. -/
  | indAddrWrite (m : Nat) (v : Word)
  /-- STORE_WINDOW_ACCESS (R338): An access to a store window or aperture is split into 128-byte pieces, each a non-preemptible bank access. -/
  | storeWindowAccess (m : Nat) (off : Nat) (len : Nat) (w : Option (List (Option Nat)))
  /-- MSIX_CONDITION_END (R341): A vector or function unmask, Bus Master Enable or a return to D0 ends a hold, and one message is sent per pending vector. -/
  | msixConditionEnd (f : Nat) (c : MsixCond)
  /-- SNAP (R352): DEV_SNAP_CMD SNAP copies every counter of the basket or device scope at the snapshot point. -/
  | snapTake (m : Nat) (v : Word)
  /-- SNAP_RELEASE (R352): DEV_SNAP_CMD RELEASE releases the master's snapshot hold. -/
  | snapRelease (m : Nat)
  /-- SNAP_COPY_DONE (R352): A snapshot copy completes, and DONE is set. -/
  | snapCopyDone (m : Nat)
  /-- SB_PRIVATE_WRITE (R355): A sideband private write sets the register pointer and writes 4-byte groups to successive sideband registers. -/
  | sbPrivateWrite (i2c : Bool) (x : Nat) (bs : Bytes)
  /-- SB_PRIVATE_READ (R355): A sideband private read returns registers from the pointer and advances it. -/
  | sbPrivateRead (i2c : Bool) (x : Nat) (n : Nat)
  /-- ENTDAA (R354): The I3C ENTDAA CCC assigns the hub a dynamic address through arbitration. -/
  | entdaa (x : Nat)
  /-- SETDASA (R354): The I3C SETDASA CCC assigns a dynamic address from the static address. -/
  | setdasa (st : Nat) (x : Nat)
  /-- SETNEWDA (R354): The I3C SETNEWDA CCC changes the dynamic address. -/
  | setnewda (old : Nat) (x : Nat)
  /-- RSTDAA (R354): The I3C RSTDAA CCC removes the dynamic address and restores I2C answering at the static address. -/
  | rstdaa
  /-- ENEC (R357): The I3C ENEC CCC enables in-band interrupts. -/
  | enec (dest : Option Nat) (ev : Nat)
  /-- DISEC (R357): The I3C DISEC CCC disables in-band interrupts. -/
  | disec (dest : Option Nat) (ev : Nat)
  /-- SETMWL (R353): The I3C SETMWL CCC sets the maximum write length within 5-32. -/
  | setmwl (dest : Option Nat) (n : Nat)
  /-- SETMRL (R353): The I3C SETMRL CCC sets the maximum read length within 5-32. -/
  | setmrl (dest : Option Nat) (n : Nat)
  /-- GETPID (R354): The I3C GETPID CCC returns the provisional ID. -/
  | getpid (x : Nat)
  /-- GETBCR (R354): The I3C GETBCR CCC returns BCR 0x06. -/
  | getbcr (x : Nat)
  /-- GETDCR (R354): The I3C GETDCR CCC returns DCR 0x00. -/
  | getdcr (x : Nat)
  /-- GETSTATUS (R353): The I3C GETSTATUS CCC returns the target status. -/
  | getstatus (x : Nat)
  /-- GETMWL (R353): The I3C GETMWL CCC returns the maximum write length. -/
  | getmwl (x : Nat)
  /-- GETMRL (R353): The I3C GETMRL CCC returns the maximum read length. -/
  | getmrl (x : Nat)
  /-- SB_WIN_READ (R356): DEV_SB_WIN_CMD READ starts a sideband read of PF BAR0 as master 65, or is refused before plan-ready or after class G. -/
  | sbWinRead (v : Word)
  /-- SB_WIN_WRITE (R356): DEV_SB_WIN_CMD WRITE starts a sideband write to PF BAR0 as master 65, or is refused. -/
  | sbWinWrite (v : Word)
  /-- SB_WIN_DONE (R356): A sideband window access completes, and STATE reads DONE. -/
  | sbWinDone
  /-- STRAP_SAMPLE (R389): Every 10 us the straps are sampled for settling, invalid readings and changes after latching. -/
  | strapSample (levels : List Nat)
  /-- FAULT_MESSAGE (R367): The collector receives a fault message, classifies, logs and counts it, and applies its class effects on baskets and FAULT_N. -/
  | faultMessage (src : Nat) (kind : Nat) (b : Nat) (detail : Nat)
  /-- QUIET_PERIOD_END (R369): A basket's quiet period ends, and the basket returns to NORMAL as a recovery. -/
  | quietPeriodEnd (b : Nat)
  /-- RECOVERY_AGE_OUT (R370): A recorded recovery becomes older than 3,600 s and leaves RECOV. -/
  | recoveryAgeOut (b : Nat)
  /-- PULSE (R377): FC_FORCE_CMD PULSE injects one fault message, whose class B cause clears at once, or is rejected. -/
  | faultPulse (m : Nat)
  /-- HOLD (R377): FC_FORCE_CMD HOLD injects a fault and holds its cause until RELEASE, or is rejected. -/
  | faultHold (m : Nat)
  /-- FC_RELEASE (R377): FC_FORCE_CMD RELEASE clears a cause held by the function, writing CLEARED for class B. -/
  | fcRelease (m : Nat)
  /-- FC_LOG_TAIL_WRITE (R379): A write to FC_LOG_TAIL consumes log records, or is ignored past HEAD. -/
  | fcLogTailWrite (m : Nat) (v : Word)
  /-- SUPPLY_TRIP (R366): A rail stays beyond its class G trip level for 1 us, and SUPPLY is raised as class G. -/
  | supplyTrip (r : Nat) (high : Bool)
  /-- THERMAL_TRIP (R366): A die sensor reads 115 C for 100 us, and THERMAL is raised as class G. -/
  | thermalTrip (i : Nat) (tj : Int)
  /-- THERMAL_WARN (R366): A die sensor reaches 105 C after last having fallen below 100 C, and THERMAL_WARN is raised as class W. -/
  | thermalWarn (i : Nat) (tj : Int)
  /-- RAIL_GOOD (R384): A rail has stayed at or above its good level for 1 ms and becomes good. -/
  | railGood (r : Nat)
  /-- RAIL_DROP (R384): A rail falls below 98 % of its good level before reset release and stops being good. -/
  | railDrop (r : Nat)
  /-- BROWN_OUT (R385): A rail stays below its brown-out level for 1 us, and the hub re-enters reset. -/
  | brownOut (r : Nat)
  /-- RESET_RELEASE (R393): Every rail is good and the straps are settled; reset is released and the start-up sequence runs. -/
  | resetRelease (r : SelfTest) (nvm : Option Nat)
  /-- PLAN_READY (R393): Start-up reaches plan-ready; Retry Status ends and the governor begins to act. -/
  | planReady (time : Nat) (paused : Bool)
  /-- DROOP_CROSSING (R398): The largest droop crosses a threshold T_L, and the pace level rises. -/
  | droopCrossing (i : Nat) (d : Nat) (base : Nat)
  /-- PACE_STEP_DOWN (R398): The droop has stayed below T_L - HYST for HOLD, and the pace level steps down by one. -/
  | paceStepDown
  /-- PWR_PACE_FORCE_WRITE (R398): A write to PWR_PACE_FORCE sets a minimum pace level. -/
  | pwrPaceForceWrite (m : Nat) (v : Word)
  /-- SHUTDOWN (R401): PWR_CMD SHUTDOWN parks every spoke, drops the plan, departs partners, stops outputs and runs the shutdown self-test. -/
  | shutdown (m : Nat) (r : SelfTest)
  /-- SHUTDOWN_HALT (R401): The repair map and the CLEAN marker are committed, and the hub enters HALTED. -/
  | shutdownHalt
  /-- CLEAR_PEAK (R404): PWR_CMD CLEAR_PEAK sets every MIN, MAX and PEAK field to its present reading. -/
  | clearPeak (m : Nat)
  /-- FULL_NEXT (R405): BIST_CMD FULL_NEXT makes the next shutdown skip self-test and write no CLEAN marker. -/
  | fullNext (m : Nat)
  /-- CANCEL_FULL (R426): BIST_CMD CANCEL_FULL withdraws FULL_NEXT. -/
  | cancelFull (m : Nat)
  /-- STORE_MAP (R417): BIST_CMD STORE_MAP queues a write of the repair map to NVM. -/
  | storeMap (m : Nat)
  /-- REPAIR_MAP_WRITE_START (R417): Within 1 s after a change of the strand or rim map, the repair-map write starts on the NVM writer. -/
  | repairMapWriteStart
  /-- WAL_SPLICE_GO (R422): WAL_SPLICE GO starts a hitless splice of a strand onto its wale's spare, or is rejected with SPLICE_REJ. -/
  | walSpliceGo (m : Nat) (v : Word)
  /-- SPLICE_SHADOW_START (R422): At the strand's commit boundary the spare copies the strand's whole state and begins shadowing it. -/
  | spliceShadowStart (w : Nat)
  /-- SPLICE_ALIGN_END (R422): The alignment measurement ends, and delta is added to the spare's e and slot anchors at the next boundary. -/
  | spliceAlignEnd (w : Nat) (pairs : List (Nat × Nat))
  /-- SPLICE_VERIFY_END (R422): The verification measurement ends, and it passes, repeats the alignment, or abandons the splice. -/
  | spliceVerifyEnd (w : Nat) (pairs : List (Nat × Nat))
  /-- SPLICE_HANDOVER (R422): At the low point before the next boundary the strand's spokes take their edges from the spare, and the splice is DONE. -/
  | spliceHandover (w : Nat)
  /-- ENTER_FACTORY (R431): LC_CMD ENTER_FACTORY writes the vendor key and moves BLANK to FACTORY. -/
  | enterFactory (m : Nat) (v : Word)
  /-- PROVISION (R431): LC_CMD PROVISION writes the owner keys and the plan key and moves FACTORY to PROVISIONED. -/
  | provision (m : Nat) (v : Word)
  /-- ENTER_FIELD (R431): LC_CMD ENTER_FIELD moves PROVISIONED to FIELD. -/
  | enterField (m : Nat) (v : Word)
  /-- RET_NONCE (R434): LC_CMD RET_NONCE makes the Lid issue a fresh return nonce. -/
  | retNonce (m : Nat) (v : Word)
  /-- RETURN (R435): LC_CMD RETURN verifies the return token, moves FIELD to RETURN and erases the owner secrets. -/
  | lcReturn (m : Nat) (v : Word)
  /-- RETIRE (R435): LC_CMD RETIRE moves the hub to RETIRED and erases every key. -/
  | lcRetire (m : Nat) (v : Word)
  /-- REVOKE (R431): LC_CMD REVOKE blows the revocation bit of the other owner key slot. -/
  | lcRevoke (m : Nat) (v : Word)
  /-- RETURN_NONCE_EXPIRE (R434): An unspent return nonce expires 3,600 s after issue. -/
  | returnNonceExpire
  /-- FUSE_READ (R430): LC_FUSE_CMD READ reads a fuse word into LC_FUSE_DATA; the plan key reads as zero. -/
  | fuseRead (m : Nat)
  /-- FUSE_PROGRAM (R429): LC_FUSE_CMD PROGRAM blows and verifies bits of fuse words 88-511 in FACTORY, or is rejected. -/
  | fuseProgram (m : Nat) (ok : Bool)
  /-- IDCODE (R438): The TAP IDCODE instruction selects the 32-bit identification register. -/
  | idcode
  /-- SAMPLE_PRELOAD (R438): The TAP SAMPLE/PRELOAD instruction samples or preloads the boundary-scan register. -/
  | samplePreload (cells : Nat)
  /-- EXTEST (R437): The TAP EXTEST instruction lets the boundary cells drive and observe the balls, or is loaded as BYPASS where denied. -/
  | extest (cells : Nat)
  /-- CLAMP (R437): The TAP CLAMP instruction holds the boundary outputs with the bypass register selected, or is loaded as BYPASS where denied. -/
  | jtagClamp
  /-- HIGHZ (R437): The TAP HIGHZ instruction places the outputs in high impedance, or is loaded as BYPASS where denied. -/
  | highz
  /-- EXTEST_PULSE (R439): The TAP EXTEST_PULSE instruction drives IEEE 1149.6 pulses on AC-coupled balls, or is loaded as BYPASS where denied. -/
  | extestPulse (cells : Nat)
  /-- EXTEST_TRAIN (R439): The TAP EXTEST_TRAIN instruction drives IEEE 1149.6 trains on AC-coupled balls, or is loaded as BYPASS where denied. -/
  | extestTrain (cells : Nat)
  /-- DBG_CHAL (R440): At Capture-DR of DBG_CHAL the Lid supplies a fresh debug nonce. -/
  | dbgChal
  /-- DBG_RESP (R440): At Update-DR of DBG_RESP the Lid verifies the debug signature and opens a session or counts a failure. -/
  | dbgResp (key : Nat) (sig : List Word)
  /-- DBG_STATUS (R438): The TAP DBG_STATUS instruction returns the debug status word. -/
  | dbgStatus
  /-- SCAN_NS (R437): The TAP SCAN_NS instruction scans the non-secret chains where the state allows and the hub is HALTED. -/
  | scanNs
  /-- SCAN_SEC (R437): The TAP SCAN_SEC instruction scans the secret chains where the state allows and the hub is HALTED. -/
  | scanSec
  /-- BYPASS (R438): The TAP BYPASS instruction selects the one-bit bypass register. -/
  | jtagBypass
  /-- TEST_LOGIC_RESET (R440): The TAP enters Test-Logic-Reset, selecting IDCODE and ending any debug session. -/
  | testLogicReset
  /-- DBG_NONCE_EXPIRE (R440): A debug nonce expires 10 s after issue. -/
  | dbgNonceExpire
  /-- DBG_REFUSAL_END (R440): The 1 s after a failed debug signature, during which DBG_CHAL returns zeros, ends. -/
  | dbgRefusalEnd
  /-- SLEW_STEP (R118): At each rising edge that is not the first edge of a new setting, a strand with a slew in progress moves its phase word towards the target by at most sigma, holds where the gap forbids, and ends the slew when the target is reached. -/
  | slewStep (k : Nat)
  /-- WIDE_VALUE_READ (R349): A read of the least significant word of a wide register such as FC_FIRST_G0 or FC_BSK_LAST0 latches its other words until that word is read again. -/
  | wideValueRead (m : Nat) (off : Nat)
  /-- VF_ENABLE_SET (R344): A configuration write sets VF Enable, so the basket VFs appear, BSK_STATUS.VF_EN sets and partner messages go to the VF mailbox instead of the PF's. -/
  | vfEnableSet (n : Nat)
  /-- MSIX_CONDITION_BEGIN (R341): A vector or function mask, a clearing of Bus Master Enable or an entry into D3hot begins a hold, so that due messages set PBA bits and a D3hot function decodes no BAR. -/
  | msixConditionBegin (f : Nat) (c : MsixCond)
  /-- FLR_COMPLETE (R345): The FLR of a function completes within 1 ms of its request, BSK_STATUS.FLR clears, and the function again accepts posted and non-posted requests. -/
  | flrComplete (k : Nat)
  /-- PCIE_LINK_L0 (R342): The PCIe link reaches L0 at the highest common rate and width, and configuration requests then complete, with Retry Status until plan-ready. -/
  | pcieLinkL0
  /-- LC_COMMAND_DONE (R433): A life-cycle command finishes its token check, fuse writes, verification and erasure; BUSY clears, DONE or REJ is set, and on RETURN or RETIRE ERASED and ERASE_DONE are set. -/
  | lcCommandDone (bad : Option Nat)
  /-- TOKEN_REFUSAL_END (R432): The 1 s after a failed return token ends, and RETURN is no longer refused with reason 0x9. -/
  | tokenRefusalEnd
deriving DecidableEq, Repr

end Sys2Proof
end

