-- ==== Sys2Proof/Config.lean ====
section
/-! DEFINITION. The values the spec leaves open, as constants without a body: no proof can see what they are (DESIGN CHOICE, log entry 3).
Each is applied to the state's own counter of free values used so far, so two of them need not agree. -/

namespace Sys2Proof

/-- A free choice of the hub: which of two permitted outcomes comes about. -/
opaque Config.freeBit : Nat → Bool

/-- A free choice for the hop named: whether it takes a boundary that is too close to its fire value for the spec to say (R151). -/
opaque Config.freeTake : Nat → Nat → Bool

/-- A free whole number. -/
opaque Config.freeInt : Nat → Int

/-- A free natural number. -/
opaque Config.freeNat : Nat → Nat

/-- The input edges that a reed run had seen when something other than its own samples ended it: rim period, bin, whether it rises, the condition it fell
in, and its value where the spec states none. -/
opaque Config.freeEdges : Nat → List (Int × Nat × Bool × Nat × Int)

/-- Random words of the Lid: a nonce. -/
opaque Config.freeWords : Nat → List (BitVec 32)

/-- The constant of a quadrant that R216 takes from a reed's offset: each part has its own. -/
opaque Config.quadrantConst : Nat → Int

/-- The coverage of a group's logic BIST, 20 bits as BIST_LOGIC lays them out: each part has its own in its fuses (R408, R430). -/
opaque Config.coverage : Nat → Nat

/-- The phase of a source against the hearth's output at a moment, in fs (R57). -/
opaque Config.sourcePhase : Nat → Nat → Int

/-- The hearth's tuning word at a moment while its loop runs, and its mean from one elapsed time to another (R60). -/
opaque Config.tuning : Nat → Int
opaque Config.tuningMean : Nat → Nat → Int

/-- Stolvan's MIPI manufacturer identity, which the provisional ID carries (R354). -/
opaque Config.mipiId : Nat

end Sys2Proof
end

