-- ==== Sys2Proof/Machine/RegDefs.lean ====
section
/-! DEFINITION. The addresses and fields of every register the spec names, one line each, as its register tables give them
(R78, R79, R106, R134, R135, R185, R204, R258, R288, R315, R333, R358, R383, R404, R426, R443, R454).

An address is the register's own key: block page k lies at 0x10000 * k (R445), the indirect space at its own addresses (R450),
a register that each master has for itself at 0x30000000 or 0x38000000 plus 0x1000 times the master, a sideband register at
0x3F000000 plus four times its index (DESIGN CHOICE, log entry 4). -/

namespace Sys2Proof.Machine

def HRT_CTRL : Nat := 0x10000
def HRT_CTRL_MODE : Fld := ⟨HRT_CTRL, 0, 2⟩
def HRT_CTRL_FORCE_SRC : Fld := ⟨HRT_CTRL, 2, 2⟩
def HRT_CTRL_REVERTIVE : Fld := ⟨HRT_CTRL, 4, 1⟩
def HRT_CTRL_PRIO : Fld := ⟨HRT_CTRL, 5, 3⟩
def HRT_CTRL_BW : Fld := ⟨HRT_CTRL, 16, 4⟩
def HRT_CTRL_SLEW : Fld := ⟨HRT_CTRL, 20, 4⟩
def HRT_CTRL_WTR : Fld := ⟨HRT_CTRL, 24, 8⟩
def HRT_STATUS : Nat := 0x10004
def HRT_STATUS_STATE : Fld := ⟨HRT_STATUS, 0, 3⟩
def HRT_STATUS_SEL : Fld := ⟨HRT_STATUS, 4, 2⟩
def HRT_STATUS_HIST_VALID : Fld := ⟨HRT_STATUS, 6, 1⟩
def HRT_STATUS_SLEWING : Fld := ⟨HRT_STATUS, 7, 1⟩
def HRT_STATUS_LEFT : Fld := ⟨HRT_STATUS, 16, 16⟩
def HRT_SRC_STATUS : Nat := 0x10008
def HRT_SRC_STATUS_QSTATE (i : Nat) : Fld := ⟨HRT_SRC_STATUS, 0 + 8 * i, 2⟩
def HRT_SRC_STATUS_ACT (i : Nat) : Fld := ⟨HRT_SRC_STATUS, 2 + 8 * i, 1⟩
def HRT_SRC_STATUS_COARSE_OK (i : Nat) : Fld := ⟨HRT_SRC_STATUS, 3 + 8 * i, 1⟩
def HRT_SRC_STATUS_FINE_OK (i : Nat) : Fld := ⟨HRT_SRC_STATUS, 4 + 8 * i, 1⟩
def HRT_SRC_STATUS_PHIT (i : Nat) : Fld := ⟨HRT_SRC_STATUS, 5 + 8 * i, 1⟩
def HRT_SRC_STATUS_XREF_DLY : Fld := ⟨HRT_SRC_STATUS, 24, 2⟩
def HRT_SRC_STATUS_XREF_PRESENT : Fld := ⟨HRT_SRC_STATUS, 26, 1⟩
def HRT_EVENT : Nat := 0x1000c
def HRT_EVENT_SWITCH : Fld := ⟨HRT_EVENT, 0, 1⟩
def HRT_EVENT_HOLD_ENTER : Fld := ⟨HRT_EVENT, 1, 1⟩
def HRT_EVENT_HOLD_EXIT : Fld := ⟨HRT_EVENT, 2, 1⟩
def HRT_EVENT_WAIT_ENTER : Fld := ⟨HRT_EVENT, 3, 1⟩
def HRT_EVENT_WAIT_EXIT : Fld := ⟨HRT_EVENT, 4, 1⟩
def HRT_EVENT_LOST : Fld := ⟨HRT_EVENT, 5, 1⟩
def HRT_EVENT_UNLOCK : Fld := ⟨HRT_EVENT, 6, 1⟩
def HRT_EVENT_VAL_REJ : Fld := ⟨HRT_EVENT, 7, 1⟩
def HRT_EVENT_TRIP_A : Fld := ⟨HRT_EVENT, 8, 1⟩
def HRT_EVENT_TRIP_B : Fld := ⟨HRT_EVENT, 9, 1⟩
def HRT_EVENT_TRIP_X : Fld := ⟨HRT_EVENT, 10, 1⟩
def HRT_EVENT_QUAL_A : Fld := ⟨HRT_EVENT, 11, 1⟩
def HRT_EVENT_QUAL_B : Fld := ⟨HRT_EVENT, 12, 1⟩
def HRT_EVENT_QUAL_X : Fld := ⟨HRT_EVENT, 13, 1⟩
def HRT_EVENT_FORCE_REJ : Fld := ⟨HRT_EVENT, 14, 1⟩
def HRT_EVENT_HIST_LOST : Fld := ⟨HRT_EVENT, 15, 1⟩
def HRT_XREF_FREQ : Nat := 0x10010
def HRT_XREF_FREQ_FREQ : Fld := ⟨HRT_XREF_FREQ, 0, 32⟩
def HRT_XREF_SETTLE : Nat := 0x10014
def HRT_XREF_SETTLE_SETTLE : Fld := ⟨HRT_XREF_SETTLE, 0, 14⟩
def HRT_MON_CFG : Nat := 0x10018
def HRT_MON_CFG_FWIN : Fld := ⟨HRT_MON_CFG, 0, 10⟩
def HRT_MON_CFG_PHIT : Fld := ⟨HRT_MON_CFG, 10, 7⟩
def HRT_HOLD_CFG : Nat := 0x1001c
def HRT_HOLD_CFG_HOLD_WIN : Fld := ⟨HRT_HOLD_CFG, 0, 14⟩
def HRT_HOLD_CFG_WAIT_MAX : Fld := ⟨HRT_HOLD_CFG, 16, 14⟩
def HRT_FOFF_A : Nat := 0x10020
def HRT_FOFF_A_FOFF : Fld := ⟨HRT_FOFF_A, 0, 32⟩
def HRT_FOFF_B : Nat := 0x10024
def HRT_FOFF_B_FOFF : Fld := ⟨HRT_FOFF_B, 0, 32⟩
def HRT_FOFF_X : Nat := 0x10028
def HRT_FOFF_X_FOFF : Fld := ⟨HRT_FOFF_X, 0, 32⟩
def HRT_PHASE_A : Nat := 0x1002c
def HRT_PHASE_A_PHASE : Fld := ⟨HRT_PHASE_A, 0, 32⟩
def HRT_PHASE_B : Nat := 0x10030
def HRT_PHASE_B_PHASE : Fld := ⟨HRT_PHASE_B, 0, 32⟩
def HRT_CMD : Nat := 0x10034
def HRT_CMD_CODE : Fld := ⟨HRT_CMD, 0, 4⟩
def RIM_POOL : Nat := 0x20000
def RIM_POOL_FREE : Fld := ⟨RIM_POOL, 0, 20⟩
def RIM_FAILED : Nat := 0x20004
def RIM_FAILED_FAILED : Fld := ⟨RIM_FAILED, 0, 20⟩
def RIM_POLICY : Nat := 0x20008
def RIM_POLICY_RELOCK_WAIT : Fld := ⟨RIM_POLICY, 0, 10⟩
def RIM_POLICY_AUTO_MIGRATE : Fld := ⟨RIM_POLICY, 10, 1⟩
def RIM_POLICY_RETUNE_MAX : Fld := ⟨RIM_POLICY, 16, 12⟩
def RIM_MIGRATE : Nat := 0x2000c
def RIM_MIGRATE_LOGICAL : Fld := ⟨RIM_MIGRATE, 0, 4⟩
def RIM_MIGRATE_TARGET : Fld := ⟨RIM_MIGRATE, 4, 5⟩
def RIM_MIGRATE_GO : Fld := ⟨RIM_MIGRATE, 31, 1⟩
def RIM_MIG_STATUS : Nat := 0x20010
def RIM_MIG_STATUS_STATE : Fld := ⟨RIM_MIG_STATUS, 0, 2⟩
def RIM_MIG_STATUS_LOGICAL : Fld := ⟨RIM_MIG_STATUS, 4, 4⟩
def RIM_MIG_STATUS_TARGET : Fld := ⟨RIM_MIG_STATUS, 8, 5⟩
def RIM_MIG_STATUS_MOVED : Fld := ⟨RIM_MIG_STATUS, 16, 7⟩
def RIM_CTRL (n : Nat) : Nat := 0x20100 + 0x20 * n
def RIM_CTRL_BW (n : Nat) : Fld := ⟨RIM_CTRL n, 0, 2⟩
def RIM_CTRL_LOCK_WIN (n : Nat) : Fld := ⟨RIM_CTRL n, 2, 8⟩
def RIM_CTRL_RETUNE_PARK (n : Nat) : Fld := ⟨RIM_CTRL n, 10, 1⟩
def RIM_FREQ_LO (n : Nat) : Nat := 0x20104 + 0x20 * n
def RIM_FREQ_LO_F (n : Nat) : Fld := ⟨RIM_FREQ_LO n, 0, 32⟩
def RIM_FREQ_HI (n : Nat) : Nat := 0x20108 + 0x20 * n
def RIM_FREQ_HI_N (n : Nat) : Fld := ⟨RIM_FREQ_HI n, 0, 4⟩
def RIM_STATUS (n : Nat) : Nat := 0x2010c + 0x20 * n
def RIM_STATUS_STATE (n : Nat) : Fld := ⟨RIM_STATUS n, 0, 3⟩
def RIM_STATUS_PHYS (n : Nat) : Fld := ⟨RIM_STATUS n, 4, 5⟩
def RIM_STATUS_BAND (n : Nat) : Fld := ⟨RIM_STATUS n, 9, 6⟩
def RIM_STATUS_BAND_STORED (n : Nat) : Fld := ⟨RIM_STATUS n, 15, 1⟩
def RIM_STATUS_MARGIN (n : Nat) : Fld := ⟨RIM_STATUS n, 16, 8⟩
def RIM_STATUS_WALES (n : Nat) : Fld := ⟨RIM_STATUS n, 24, 7⟩
def RIM_TUNE (n : Nat) : Nat := 0x20110 + 0x20 * n
def RIM_TUNE_CODE (n : Nat) : Fld := ⟨RIM_TUNE n, 0, 12⟩
def RIM_TUNE_FRESH (n : Nat) : Fld := ⟨RIM_TUNE n, 12, 12⟩
def RIM_EVENT (n : Nat) : Nat := 0x20114 + 0x20 * n
def RIM_EVENT_LOCK (n : Nat) : Fld := ⟨RIM_EVENT n, 0, 1⟩
def RIM_EVENT_UNLOCK (n : Nat) : Fld := ⟨RIM_EVENT n, 1, 1⟩
def RIM_EVENT_RETUNE_DONE (n : Nat) : Fld := ⟨RIM_EVENT n, 2, 1⟩
def RIM_EVENT_RETUNE_TIMEOUT (n : Nat) : Fld := ⟨RIM_EVENT n, 3, 1⟩
def RIM_EVENT_RELOCK (n : Nat) : Fld := ⟨RIM_EVENT n, 4, 1⟩
def RIM_EVENT_MIGRATED (n : Nat) : Fld := ⟨RIM_EVENT n, 5, 1⟩
def RIM_EVENT_BAND_SEARCH (n : Nat) : Fld := ⟨RIM_EVENT n, 6, 1⟩
def RIM_EVENT_MIG_REJ (n : Nat) : Fld := ⟨RIM_EVENT n, 7, 1⟩
def RIM_EVENT_VAL_REJ (n : Nat) : Fld := ⟨RIM_EVENT n, 8, 1⟩
def TAL_CTRL : Nat := 0x30000
def TAL_CTRL_DOM_PRIO : Fld := ⟨TAL_CTRL, 0, 1⟩
def TAL_CTRL_REVERTIVE : Fld := ⟨TAL_CTRL, 1, 1⟩
def TAL_CTRL_SERVO_BW : Fld := ⟨TAL_CTRL, 2, 4⟩
def TAL_CTRL_SWSLEW : Fld := ⟨TAL_CTRL, 6, 3⟩
def TAL_CTRL_ACQ_SLEW : Fld := ⟨TAL_CTRL, 9, 3⟩
def TAL_CTRL_AUTO_STEP : Fld := ⟨TAL_CTRL, 12, 1⟩
def TAL_CTRL_BEAT_EXP : Fld := ⟨TAL_CTRL, 16, 8⟩
def TAL_CTRL_WTR : Fld := ⟨TAL_CTRL, 24, 8⟩
def TAL_STATUS : Nat := 0x30004
def TAL_STATUS_STATE : Fld := ⟨TAL_STATUS, 0, 3⟩
def TAL_STATUS_SEL : Fld := ⟨TAL_STATUS, 4, 2⟩
def TAL_STATUS_MISMATCH : Fld := ⟨TAL_STATUS, 6, 1⟩
def TAL_STATUS_SLEWING : Fld := ⟨TAL_STATUS, 7, 1⟩
def TAL_STATUS_DOM_A : Fld := ⟨TAL_STATUS, 8, 2⟩
def TAL_STATUS_DOM_B : Fld := ⟨TAL_STATUS, 10, 2⟩
def TAL_STATUS_CHAIN_POS : Fld := ⟨TAL_STATUS, 12, 3⟩
def TAL_STATUS_HOLD_S : Fld := ⟨TAL_STATUS, 16, 16⟩
def TAL_DOM_CFG : Nat := 0x30008
def TAL_DOM_CFG_DOM_TMO : Fld := ⟨TAL_DOM_CFG, 0, 10⟩
def TAL_DOM_CFG_JUMP_THR : Fld := ⟨TAL_DOM_CFG, 10, 8⟩
def TAL_DOM_CFG_STEP_THR : Fld := ⟨TAL_DOM_CFG, 18, 10⟩
def TAL_NOW0 : Nat := 0x30010
def TAL_NOW0_FRAC_LO : Fld := ⟨TAL_NOW0, 0, 32⟩
def TAL_NOW1 : Nat := 0x30014
def TAL_NOW1_FRAC_HI : Fld := ⟨TAL_NOW1, 0, 16⟩
def TAL_NOW1_SEC_LO : Fld := ⟨TAL_NOW1, 16, 16⟩
def TAL_NOW2 : Nat := 0x30018
def TAL_NOW2_SEC_HI : Fld := ⟨TAL_NOW2, 0, 32⟩
def TAL_OFF_A : Nat := 0x3001c
def TAL_OFF_A_OFF : Fld := ⟨TAL_OFF_A, 0, 32⟩
def TAL_OFF_B : Nat := 0x30020
def TAL_OFF_B_OFF : Fld := ⟨TAL_OFF_B, 0, 32⟩
def TAL_RATE : Nat := 0x30024
def TAL_RATE_RATE : Fld := ⟨TAL_RATE, 0, 32⟩
def TAL_DLY_A : Nat := 0x30028
def TAL_DLY_A_DLY : Fld := ⟨TAL_DLY_A, 0, 32⟩
def TAL_DLY_B : Nat := 0x3002c
def TAL_DLY_B_DLY : Fld := ⟨TAL_DLY_B, 0, 32⟩
def TAL_ASYM_A : Nat := 0x30030
def TAL_ASYM_A_ASYM : Fld := ⟨TAL_ASYM_A, 0, 32⟩
def TAL_ASYM_B : Nat := 0x30034
def TAL_ASYM_B_ASYM : Fld := ⟨TAL_ASYM_B, 0, 32⟩
def TAL_EVENT : Nat := 0x30038
def TAL_EVENT_ACQUIRED : Fld := ⟨TAL_EVENT, 0, 1⟩
def TAL_EVENT_TRACK : Fld := ⟨TAL_EVENT, 1, 1⟩
def TAL_EVENT_SWITCH : Fld := ⟨TAL_EVENT, 2, 1⟩
def TAL_EVENT_HOLD_ENTER : Fld := ⟨TAL_EVENT, 3, 1⟩
def TAL_EVENT_HOLD_EXIT : Fld := ⟨TAL_EVENT, 4, 1⟩
def TAL_EVENT_STEP : Fld := ⟨TAL_EVENT, 5, 1⟩
def TAL_EVENT_MISMATCH : Fld := ⟨TAL_EVENT, 6, 1⟩
def TAL_EVENT_INVALID_A : Fld := ⟨TAL_EVENT, 7, 1⟩
def TAL_EVENT_INVALID_B : Fld := ⟨TAL_EVENT, 8, 1⟩
def TAL_EVENT_VALID_A : Fld := ⟨TAL_EVENT, 9, 1⟩
def TAL_EVENT_VALID_B : Fld := ⟨TAL_EVENT, 10, 1⟩
def TAL_EVENT_WIRE_ERR : Fld := ⟨TAL_EVENT, 11, 1⟩
def TAL_EVENT_DLCAL_A : Fld := ⟨TAL_EVENT, 12, 1⟩
def TAL_EVENT_DLCAL_B : Fld := ⟨TAL_EVENT, 13, 1⟩
def TAL_EVENT_VAL_REJ : Fld := ⟨TAL_EVENT, 14, 1⟩
def TAL_EVENT_SEQ_GAP : Fld := ⟨TAL_EVENT, 15, 1⟩
def TAL_CMD : Nat := 0x3003c
def TAL_CMD_CODE : Fld := ⟨TAL_CMD, 0, 4⟩
def TAL_DLCAL_STATUS : Nat := 0x30040
def TAL_DLCAL_STATUS_COUNT_A : Fld := ⟨TAL_DLCAL_STATUS, 0, 13⟩
def TAL_DLCAL_STATUS_DONE_A : Fld := ⟨TAL_DLCAL_STATUS, 13, 1⟩
def TAL_DLCAL_STATUS_COUNT_B : Fld := ⟨TAL_DLCAL_STATUS, 16, 13⟩
def TAL_DLCAL_STATUS_DONE_B : Fld := ⟨TAL_DLCAL_STATUS, 29, 1⟩
def TAL_CNT_A : Nat := 0x30044
def TAL_CNT_A_ACCEPTED : Fld := ⟨TAL_CNT_A, 0, 16⟩
def TAL_CNT_A_REFUSED : Fld := ⟨TAL_CNT_A, 16, 8⟩
def TAL_CNT_A_GAPS : Fld := ⟨TAL_CNT_A, 24, 8⟩
def TAL_CNT_B : Nat := 0x30048
def TAL_CNT_B_ACCEPTED : Fld := ⟨TAL_CNT_B, 0, 16⟩
def TAL_CNT_B_REFUSED : Fld := ⟨TAL_CNT_B, 16, 8⟩
def TAL_CNT_B_GAPS : Fld := ⟨TAL_CNT_B, 24, 8⟩
def TAL_BEAT_DLY (h : Nat) : Nat := 0x30100 + 0x4 * h
def TAL_BEAT_DLY_DLY (h : Nat) : Fld := ⟨TAL_BEAT_DLY h, 0, 32⟩
def TAL_BEAT_ASYM (h : Nat) : Nat := 0x30300 + 0x4 * h
def TAL_BEAT_ASYM_ASYM (h : Nat) : Fld := ⟨TAL_BEAT_ASYM h, 0, 32⟩
def STR_CMD : Nat := 0x40000
def STR_CMD_STRAND : Fld := ⟨STR_CMD, 0, 10⟩
def STR_CMD_CODE : Fld := ⟨STR_CMD, 12, 4⟩
def STR_CMD_SLOT : Fld := ⟨STR_CMD, 16, 2⟩
def STR_CMD_ALL : Fld := ⟨STR_CMD, 18, 1⟩
def STR_CMD_STATUS : Nat := 0x40004
def STR_CMD_STATUS_DONE : Fld := ⟨STR_CMD_STATUS, 0, 1⟩
def STR_CMD_STATUS_REJ : Fld := ⟨STR_CMD_STATUS, 1, 1⟩
def STR_READY (i : Nat) : Nat := 0x40100 + 0x4 * i
def STR_READY_MAP (i : Nat) : Fld := ⟨STR_READY i, 0, 32⟩
def STR_STALE (i : Nat) : Nat := 0x40180 + 0x4 * i
def STR_STALE_MAP (i : Nat) : Fld := ⟨STR_STALE i, 0, 32⟩
def STR_RUN (i : Nat) : Nat := 0x40200 + 0x4 * i
def STR_RUN_MAP (i : Nat) : Fld := ⟨STR_RUN i, 0, 32⟩
def STR_NRDY_EVT (i : Nat) : Nat := 0x40280 + 0x4 * i
def STR_NRDY_EVT_EVT (i : Nat) : Fld := ⟨STR_NRDY_EVT i, 0, 32⟩
def STR_ACC0 (s : Nat) : Nat := 0x1000000 + 0x100 * s
def STR_ACC0_ACC (s : Nat) : Fld := ⟨STR_ACC0 s, 0, 32⟩
def STR_ACC1 (s : Nat) : Nat := 0x1000004 + 0x100 * s
def STR_ACC1_ACC (s : Nat) : Fld := ⟨STR_ACC1 s, 0, 32⟩
def STR_EDGES0 (s : Nat) : Nat := 0x1000008 + 0x100 * s
def STR_EDGES0_EDGES (s : Nat) : Fld := ⟨STR_EDGES0 s, 0, 32⟩
def STR_EDGES1 (s : Nat) : Nat := 0x100000c + 0x100 * s
def STR_EDGES1_EDGES (s : Nat) : Fld := ⟨STR_EDGES1 s, 0, 32⟩
def STR_SHAPE0 (s : Nat) : Nat := 0x1000010 + 0x100 * s
def STR_SHAPE0_S_LO (s : Nat) : Fld := ⟨STR_SHAPE0 s, 0, 32⟩
def STR_SHAPE1 (s : Nat) : Nat := 0x1000014 + 0x100 * s
def STR_SHAPE1_S_HI (s : Nat) : Fld := ⟨STR_SHAPE1 s, 0, 8⟩
def STR_SHAPE1_SF_HI (s : Nat) : Fld := ⟨STR_SHAPE1 s, 16, 8⟩
def STR_FSHAPE0 (s : Nat) : Nat := 0x1000018 + 0x100 * s
def STR_FSHAPE0_SF_LO (s : Nat) : Fld := ⟨STR_FSHAPE0 s, 0, 32⟩
def STR_PER0 (s : Nat) : Nat := 0x1000020 + 0x100 * s
def STR_PER0_P (s : Nat) : Fld := ⟨STR_PER0 s, 0, 32⟩
def STR_PER1 (s : Nat) : Nat := 0x1000024 + 0x100 * s
def STR_PER1_P (s : Nat) : Fld := ⟨STR_PER1 s, 0, 32⟩
def STR_DIV (s : Nat) : Nat := 0x1000028 + 0x100 * s
def STR_DIV_N (s : Nat) : Fld := ⟨STR_DIV s, 0, 13⟩
def STR_DIV_DUTY (s : Nat) : Fld := ⟨STR_DIV s, 16, 8⟩
def STR_PHASE (s : Nat) : Nat := 0x100002c + 0x100 * s
def STR_PHASE_PHI (s : Nat) : Fld := ⟨STR_PHASE s, 0, 32⟩
def STR_SLEW_TGT (s : Nat) : Nat := 0x1000030 + 0x100 * s
def STR_SLEW_TGT_TARGET (s : Nat) : Fld := ⟨STR_SLEW_TGT s, 0, 32⟩
def STR_SLEW (s : Nat) : Nat := 0x1000034 + 0x100 * s
def STR_SLEW_SIGMA (s : Nat) : Fld := ⟨STR_SLEW s, 0, 16⟩
def STR_SLEW_ACTIVE (s : Nat) : Fld := ⟨STR_SLEW s, 16, 1⟩
def STR_SLEW_HELD (s : Nat) : Fld := ⟨STR_SLEW s, 17, 1⟩
def STR_STATUS (s : Nat) : Nat := 0x1000038 + 0x100 * s
def STR_STATUS_RUN (s : Nat) : Fld := ⟨STR_STATUS s, 0, 1⟩
def STR_STATUS_READY (s : Nat) : Fld := ⟨STR_STATUS s, 1, 1⟩
def STR_STATUS_STALE (s : Nat) : Fld := ⟨STR_STATUS s, 2, 1⟩
def STR_STATUS_SLOT_MISMATCH (s : Nat) : Fld := ⟨STR_STATUS s, 3, 1⟩
def STR_STATUS_NR_RIM (s : Nat) : Fld := ⟨STR_STATUS s, 4, 1⟩
def STR_STATUS_NR_RETUNE (s : Nat) : Fld := ⟨STR_STATUS s, 5, 1⟩
def STR_STATUS_NR_CAL (s : Nat) : Fld := ⟨STR_STATUS s, 6, 1⟩
def STR_STATUS_NR_RES (s : Nat) : Fld := ⟨STR_STATUS s, 7, 1⟩
def STR_STATUS_SLOT_ACT (s : Nat) : Fld := ⟨STR_STATUS s, 8, 3⟩
def STR_STATUS_NR_PARENT (s : Nat) : Fld := ⟨STR_STATUS s, 11, 1⟩
def STR_STATUS_DEPTH (s : Nat) : Fld := ⟨STR_STATUS s, 12, 2⟩
def STR_STATUS_PHYS (s : Nat) : Fld := ⟨STR_STATUS s, 16, 11⟩
def STR_RES (s : Nat) : Nat := 0x100003c + 0x100 * s
def STR_RES_MEAN (s : Nat) : Fld := ⟨STR_RES s, 0, 16⟩
def STR_RES_RMS (s : Nat) : Fld := ⟨STR_RES s, 16, 12⟩
def STR_RES_PASS (s : Nat) : Fld := ⟨STR_RES s, 28, 1⟩
def STR_RES_CNT (s : Nat) : Nat := 0x1000040 + 0x100 * s
def STR_RES_CNT_VISITS (s : Nat) : Fld := ⟨STR_RES_CNT s, 0, 24⟩
def STR_RES_CNT_FAILS (s : Nat) : Fld := ⟨STR_RES_CNT s, 24, 8⟩
def STR_SLOT_CTRL (s : Nat) (k : Nat) : Nat := 0x1000080 + 0x100 * s + 0x20 * k
def STR_SLOT_CTRL_PROF (s : Nat) (k : Nat) : Fld := ⟨STR_SLOT_CTRL s k, 0, 20⟩
def STR_SLOT_CTRL_VALID (s : Nat) (k : Nat) : Fld := ⟨STR_SLOT_CTRL s k, 31, 1⟩
def STR_SLOT_PER0 (s : Nat) (k : Nat) : Nat := 0x1000084 + 0x100 * s + 0x20 * k
def STR_SLOT_PER0_P (s : Nat) (k : Nat) : Fld := ⟨STR_SLOT_PER0 s k, 0, 32⟩
def STR_SLOT_PER1 (s : Nat) (k : Nat) : Nat := 0x1000088 + 0x100 * s + 0x20 * k
def STR_SLOT_PER1_P (s : Nat) (k : Nat) : Fld := ⟨STR_SLOT_PER1 s k, 0, 32⟩
def STR_SLOT_DIV (s : Nat) (k : Nat) : Nat := 0x100008c + 0x100 * s + 0x20 * k
def STR_SLOT_DIV_N (s : Nat) (k : Nat) : Fld := ⟨STR_SLOT_DIV s k, 0, 13⟩
def STR_SLOT_POS0 (s : Nat) (k : Nat) : Nat := 0x1000090 + 0x100 * s + 0x20 * k
def STR_SLOT_POS0_POS (s : Nat) (k : Nat) : Fld := ⟨STR_SLOT_POS0 s k, 0, 32⟩
def STR_SLOT_POS1 (s : Nat) (k : Nat) : Nat := 0x1000094 + 0x100 * s + 0x20 * k
def STR_SLOT_POS1_POS (s : Nat) (k : Nat) : Fld := ⟨STR_SLOT_POS1 s k, 0, 32⟩
def WAL_CHECK_CFG : Nat := 0x50000
def WAL_CHECK_CFG_EDGES : Fld := ⟨WAL_CHECK_CFG, 0, 7⟩
def WAL_CHECK_CFG_VISIT_MAX : Fld := ⟨WAL_CHECK_CFG, 8, 8⟩
def WAL_CHECK_CFG_MEAN_LIM : Fld := ⟨WAL_CHECK_CFG, 16, 8⟩
def WAL_CHECK_CFG_RMS_LIM : Fld := ⟨WAL_CHECK_CFG, 24, 8⟩
def WAL_POLICY : Nat := 0x50004
def WAL_POLICY_FAILS : Fld := ⟨WAL_POLICY, 0, 2⟩
def WAL_POLICY_AUTO_SPLICE : Fld := ⟨WAL_POLICY, 2, 1⟩
def WAL_SPLICE : Nat := 0x50008
def WAL_SPLICE_STRAND : Fld := ⟨WAL_SPLICE, 0, 10⟩
def WAL_SPLICE_GO : Fld := ⟨WAL_SPLICE, 31, 1⟩
def WAL_SPLICE_STATUS : Nat := 0x5000c
def WAL_SPLICE_STATUS_STATE : Fld := ⟨WAL_SPLICE_STATUS, 0, 2⟩
def WAL_SPLICE_STATUS_STRAND : Fld := ⟨WAL_SPLICE_STATUS, 2, 10⟩
def WAL_BIND (w : Nat) : Nat := 0x50100 + 0x20 * w
def WAL_BIND_RIM (w : Nat) : Fld := ⟨WAL_BIND w, 0, 4⟩
def WAL_BIND_BASKET (w : Nat) : Fld := ⟨WAL_BIND w, 8, 6⟩
def WAL_BIND_ACTIVE (w : Nat) : Fld := ⟨WAL_BIND w, 16, 5⟩
def WAL_BIND_BOUND (w : Nat) : Fld := ⟨WAL_BIND w, 31, 1⟩
def WAL_SPARE (w : Nat) : Nat := 0x50104 + 0x20 * w
def WAL_SPARE_STATE (w : Nat) : Fld := ⟨WAL_SPARE w, 0, 2⟩
def WAL_SPARE_POS (w : Nat) : Fld := ⟨WAL_SPARE w, 4, 4⟩
def WAL_FAILED (w : Nat) : Nat := 0x50108 + 0x20 * w
def WAL_FAILED_FAILED (w : Nat) : Fld := ⟨WAL_FAILED w, 0, 17⟩
def WAL_CHECK (w : Nat) : Nat := 0x5010c + 0x20 * w
def WAL_CHECK_NEXT (w : Nat) : Fld := ⟨WAL_CHECK w, 0, 5⟩
def WAL_CHECK_VISITS (w : Nat) : Fld := ⟨WAL_CHECK w, 8, 24⟩
def WAL_EVENT (w : Nat) : Nat := 0x50110 + 0x20 * w
def WAL_EVENT_RES_FAIL (w : Nat) : Fld := ⟨WAL_EVENT w, 0, 1⟩
def WAL_EVENT_NOT_READY (w : Nat) : Fld := ⟨WAL_EVENT w, 1, 1⟩
def WAL_EVENT_SPLICED (w : Nat) : Fld := ⟨WAL_EVENT w, 2, 1⟩
def WAL_EVENT_SPLICE_REJ (w : Nat) : Fld := ⟨WAL_EVENT w, 3, 1⟩
def WAL_EVENT_SPARE_GONE (w : Nat) : Fld := ⟨WAL_EVENT w, 4, 1⟩
def WAL_EVENT_VAL_REJ (w : Nat) : Fld := ⟨WAL_EVENT w, 5, 1⟩
def SPK_FORCE : Nat := 0x60000
def SPK_FORCE_SPOKE : Fld := ⟨SPK_FORCE, 0, 8⟩
def SPK_FORCE_ALL : Fld := ⟨SPK_FORCE, 8, 1⟩
def SPK_FORCE_ACTION : Fld := ⟨SPK_FORCE, 9, 1⟩
def SPK_FORCE_GO : Fld := ⟨SPK_FORCE, 31, 1⟩
def SPK_EVENT : Nat := 0x60004
def SPK_EVENT_VAL_REJ : Fld := ⟨SPK_EVENT, 0, 1⟩
def SPK_PARKED (i : Nat) : Nat := 0x60040 + 0x4 * i
def SPK_PARKED_MAP (i : Nat) : Fld := ⟨SPK_PARKED i, 0, 32⟩
def SPK_PARK_EVT (i : Nat) : Nat := 0x60060 + 0x4 * i
def SPK_PARK_EVT_EVT (i : Nat) : Fld := ⟨SPK_PARK_EVT i, 0, 32⟩
def SPK_REL_EVT (i : Nat) : Nat := 0x60080 + 0x4 * i
def SPK_REL_EVT_EVT (i : Nat) : Fld := ⟨SPK_REL_EVT i, 0, 32⟩
def SPK_CFG (n : Nat) : Nat := 0x60100 + 0x10 * n
def SPK_CFG_STRAND (n : Nat) : Fld := ⟨SPK_CFG n, 0, 8⟩
def SPK_CFG_ROUTED (n : Nat) : Fld := ⟨SPK_CFG n, 8, 1⟩
def SPK_CFG_PATH (n : Nat) : Fld := ⟨SPK_CFG n, 9, 2⟩
def SPK_CFG_STOP_LEVEL (n : Nat) : Fld := ⟨SPK_CFG n, 11, 1⟩
def SPK_CFG_SWING (n : Nat) : Fld := ⟨SPK_CFG n, 12, 4⟩
def SPK_CFG_BASKET (n : Nat) : Fld := ⟨SPK_CFG n, 16, 6⟩
def SPK_STATUS (n : Nat) : Nat := 0x60104 + 0x10 * n
def SPK_STATUS_STATE (n : Nat) : Fld := ⟨SPK_STATUS n, 0, 2⟩
def SPK_STATUS_PEND (n : Nat) : Fld := ⟨SPK_STATUS n, 2, 1⟩
def SPK_STATUS_C_FW (n : Nat) : Fld := ⟨SPK_STATUS n, 4, 1⟩
def SPK_STATUS_C_FORCE (n : Nat) : Fld := ⟨SPK_STATUS n, 5, 1⟩
def SPK_STATUS_C_G (n : Nat) : Fld := ⟨SPK_STATUS n, 6, 1⟩
def SPK_STATUS_C_BASKET (n : Nat) : Fld := ⟨SPK_STATUS n, 7, 1⟩
def SPK_STATUS_C_RIM (n : Nat) : Fld := ⟨SPK_STATUS n, 8, 1⟩
def SPK_STATUS_C_RES (n : Nat) : Fld := ⟨SPK_STATUS n, 9, 1⟩
def SPK_STATUS_C_CAL (n : Nat) : Fld := ⟨SPK_STATUS n, 10, 1⟩
def SPK_STATUS_C_RETUNE (n : Nat) : Fld := ⟨SPK_STATUS n, 11, 1⟩
def SPK_STATUS_C_REWEAVE (n : Nat) : Fld := ⟨SPK_STATUS n, 12, 1⟩
def SPK_STATUS_C_UNROUTED (n : Nat) : Fld := ⟨SPK_STATUS n, 13, 1⟩
def SPK_STATUS_C_STOP (n : Nat) : Fld := ⟨SPK_STATUS n, 14, 1⟩
def SPK_STATUS_C_HEARTH (n : Nat) : Fld := ⟨SPK_STATUS n, 15, 1⟩
def SPK_STATUS_PARKS (n : Nat) : Fld := ⟨SPK_STATUS n, 24, 8⟩
def REED_CMD : Nat := 0x70000
def REED_CMD_REED : Fld := ⟨REED_CMD, 0, 8⟩
def REED_CMD_CODE : Fld := ⟨REED_CMD, 8, 4⟩
def REED_EVENT : Nat := 0x70004
def REED_EVENT_VAL_REJ : Fld := ⟨REED_EVENT, 0, 1⟩
def REED_EVENT_CMD_REJ : Fld := ⟨REED_EVENT, 1, 1⟩
def REED_DONE_EVT (i : Nat) : Nat := 0x70040 + 0x4 * i
def REED_DONE_EVT_EVT (i : Nat) : Fld := ⟨REED_DONE_EVT i, 0, 32⟩
def REED_BUSY (i : Nat) : Nat := 0x70060 + 0x4 * i
def REED_BUSY_MAP (i : Nat) : Fld := ⟨REED_BUSY i, 0, 32⟩
def REED_CFG (n : Nat) : Nat := 0x70100 + 0x20 * n
def REED_CFG_MODE (n : Nat) : Fld := ⟨REED_CFG n, 0, 3⟩
def REED_CFG_EDGE (n : Nat) : Fld := ⟨REED_CFG n, 3, 1⟩
def REED_CFG_SRC (n : Nat) : Fld := ⟨REED_CFG n, 4, 1⟩
def REED_CFG_HIST (n : Nat) : Fld := ⟨REED_CFG n, 5, 1⟩
def REED_CFG_CLR (n : Nat) : Fld := ⟨REED_CFG n, 6, 1⟩
def REED_CFG_REF (n : Nat) : Fld := ⟨REED_CFG n, 8, 8⟩
def REED_CFG_COUNT_EXP (n : Nat) : Fld := ⟨REED_CFG n, 16, 5⟩
def REED_CFG_BIN_EXP (n : Nat) : Fld := ⟨REED_CFG n, 21, 4⟩
def REED_CFG_BASKET (n : Nat) : Fld := ⟨REED_CFG n, 25, 6⟩
def REED_CFG_ASSIGNED (n : Nat) : Fld := ⟨REED_CFG n, 31, 1⟩
def REED_GATE (n : Nat) : Nat := 0x70104 + 0x20 * n
def REED_GATE_GATE (n : Nat) : Fld := ⟨REED_GATE n, 0, 24⟩
def REED_WIN (n : Nat) : Nat := 0x70108 + 0x20 * n
def REED_WIN_WIN_LO (n : Nat) : Fld := ⟨REED_WIN n, 0, 32⟩
def REED_HIST_LO (n : Nat) : Nat := 0x7010c + 0x20 * n
def REED_HIST_LO_HIST_LO (n : Nat) : Fld := ⟨REED_HIST_LO n, 0, 32⟩
def REED_RUN_MAX (n : Nat) : Nat := 0x70110 + 0x20 * n
def REED_RUN_MAX_RUN_MAX (n : Nat) : Fld := ⟨REED_RUN_MAX n, 0, 16⟩
def REED_STATUS (n : Nat) : Nat := 0x70114 + 0x20 * n
def REED_STATUS_STATE (n : Nat) : Fld := ⟨REED_STATUS n, 0, 2⟩
def REED_STATUS_CAL_RUN (n : Nat) : Fld := ⟨REED_STATUS n, 2, 1⟩
def REED_STATUS_FULL (n : Nat) : Fld := ⟨REED_STATUS n, 3, 1⟩
def REED_STATUS_CAL_VALID (n : Nat) : Fld := ⟨REED_STATUS n, 4, 1⟩
def REED_STATUS_SEQ (n : Nat) : Fld := ⟨REED_STATUS n, 16, 16⟩
def REED_RES_HEAD (n : Nat) : Nat := 0x70118 + 0x20 * n
def REED_RES_HEAD_HEAD (n : Nat) : Fld := ⟨REED_RES_HEAD n, 0, 10⟩
def REED_RES_TAIL (n : Nat) : Nat := 0x7011c + 0x20 * n
def REED_RES_TAIL_TAIL (n : Nat) : Fld := ⟨REED_RES_TAIL n, 0, 10⟩
def RING_DB : Nat := 0x80000
def RING_DB_RING : Fld := ⟨RING_DB, 0, 15⟩
def RING_DB_IDX : Fld := ⟨RING_DB, 15, 17⟩
def RING_EVENT (m : Nat) : Nat := 0x38000804 + 0x1000 * m
def RING_EVENT_DB_REJ (m : Nat) : Fld := ⟨RING_EVENT m, 0, 1⟩
def RING_EVENT_DB_OVER (m : Nat) : Fld := ⟨RING_EVENT m, 1, 1⟩
def RING_EVENT_CREDIT_VIOL (m : Nat) : Fld := ⟨RING_EVENT m, 2, 1⟩
def RING_EVENT_DEG_UP (m : Nat) : Fld := ⟨RING_EVENT m, 3, 1⟩
def RING_EVENT_DEG_DOWN (m : Nat) : Fld := ⟨RING_EVENT m, 4, 1⟩
def RING_CAP : Nat := 0x80008
def RING_CAP_CAP : Fld := ⟨RING_CAP, 0, 16⟩
def RING_CAP_BM : Fld := ⟨RING_CAP, 16, 1⟩
def RING_CAP_TDEG : Fld := ⟨RING_CAP, 17, 7⟩
def RING_CAP_PACE : Fld := ⟨RING_CAP, 24, 2⟩
def RING_DEG_MAP (i : Nat) : Nat := 0x80010 + 0x4 * i
def RING_DEG_MAP_MAP (i : Nat) : Fld := ⟨RING_DEG_MAP i, 0, 32⟩
def RING_ARM_TOTAL : Nat := 0x80018
def RING_ARM_TOTAL_HELD : Fld := ⟨RING_ARM_TOTAL, 0, 13⟩
def RING_ARM_TOTAL_PEAK : Fld := ⟨RING_ARM_TOTAL, 16, 13⟩
def RING_BSK_CFG (b : Nat) : Nat := 0x81000 + 0x40 * b
def RING_BSK_CFG_ARM_QUOTA (b : Nat) : Fld := ⟨RING_BSK_CFG b, 0, 13⟩
def RING_BSK_CFG_URG_RES (b : Nat) : Fld := ⟨RING_BSK_CFG b, 13, 13⟩
def RING_BSK_CFG_PRIO (b : Nat) : Fld := ⟨RING_BSK_CFG b, 26, 6⟩
def RING_BSK_RES0 (b : Nat) : Nat := 0x81004 + 0x40 * b
def RING_BSK_RES0_RES_URG (b : Nat) : Fld := ⟨RING_BSK_RES0 b, 0, 16⟩
def RING_BSK_RES0_RES_TMD (b : Nat) : Fld := ⟨RING_BSK_RES0 b, 16, 16⟩
def RING_BSK_RES1 (b : Nat) : Nat := 0x81008 + 0x40 * b
def RING_BSK_RES1_RES_BLK (b : Nat) : Fld := ⟨RING_BSK_RES1 b, 0, 16⟩
def RING_BSK_RES1_RES_MNT (b : Nat) : Fld := ⟨RING_BSK_RES1 b, 16, 16⟩
def RING_BSK_ARM (b : Nat) : Nat := 0x8100c + 0x40 * b
def RING_BSK_ARM_HELD (b : Nat) : Fld := ⟨RING_BSK_ARM b, 0, 13⟩
def RING_BSK_ARM_URG_HELD (b : Nat) : Fld := ⟨RING_BSK_ARM b, 13, 13⟩
def RING_BSK_PEAK (b : Nat) : Nat := 0x81010 + 0x40 * b
def RING_BSK_PEAK_PEAK (b : Nat) : Fld := ⟨RING_BSK_PEAK b, 0, 13⟩
def RING_BSK_CNT0 (b : Nat) : Nat := 0x81014 + 0x40 * b
def RING_BSK_CNT0_CPL_DISC (b : Nat) : Fld := ⟨RING_BSK_CNT0 b, 0, 16⟩
def RING_BSK_CNT0_ABORT_NW (b : Nat) : Fld := ⟨RING_BSK_CNT0 b, 16, 16⟩
def RING_BSK_CNT1 (b : Nat) : Nat := 0x81018 + 0x40 * b
def RING_BSK_CNT1_CREDIT_VIOL (b : Nat) : Fld := ⟨RING_BSK_CNT1 b, 0, 8⟩
def RING_BSK_CNT1_DB_OVER (b : Nat) : Fld := ⟨RING_BSK_CNT1 b, 8, 8⟩
def RING_BSK_CNT1_DEG (b : Nat) : Fld := ⟨RING_BSK_CNT1 b, 16, 8⟩
def RING_BSK_CPL (b : Nat) : Nat := 0x8101c + 0x40 * b
def RING_BSK_CPL_RING (b : Nat) : Fld := ⟨RING_BSK_CPL b, 0, 15⟩
def RING_DESC0 (r : Nat) : Nat := 0x2000000 + 0x40 * r
def RING_DESC0_BASE (r : Nat) : Fld := ⟨RING_DESC0 r, 0, 20⟩
def RING_DESC1 (r : Nat) : Nat := 0x2000004 + 0x40 * r
def RING_DESC1_DEPTH_EXP (r : Nat) : Fld := ⟨RING_DESC1 r, 0, 5⟩
def RING_DESC1_KIND (r : Nat) : Fld := ⟨RING_DESC1 r, 5, 3⟩
def RING_DESC1_CLASS (r : Nat) : Fld := ⟨RING_DESC1 r, 8, 2⟩
def RING_DESC1_BASKET (r : Nat) : Fld := ⟨RING_DESC1 r, 10, 6⟩
def RING_PROD (r : Nat) : Nat := 0x2000008 + 0x40 * r
def RING_PROD_IDX (r : Nat) : Fld := ⟨RING_PROD r, 0, 17⟩
def RING_CONS (r : Nat) : Nat := 0x200000c + 0x40 * r
def RING_CONS_IDX (r : Nat) : Fld := ⟨RING_CONS r, 0, 17⟩
def RING_SRC (r : Nat) (j : Nat) : Nat := 0x2000010 + 0x40 * r + 0x8 * j
def RING_SRC_SRC (r : Nat) (j : Nat) : Fld := ⟨RING_SRC r j, 0, 8⟩
def RING_SRC_SHARE (r : Nat) (j : Nat) : Fld := ⟨RING_SRC r j, 8, 17⟩
def RING_SRC_OUT (r : Nat) (j : Nat) : Nat := 0x2000014 + 0x40 * r + 0x8 * j
def RING_SRC_OUT_HELD (r : Nat) (j : Nat) : Fld := ⟨RING_SRC_OUT r j, 0, 17⟩
def RING_SRC_OUT_OWED (r : Nat) (j : Nat) : Fld := ⟨RING_SRC_OUT r j, 17, 15⟩
def LANE_CMD : Nat := 0x90000
def LANE_CMD_LANE : Fld := ⟨LANE_CMD, 0, 7⟩
def LANE_CMD_CODE : Fld := ⟨LANE_CMD, 8, 4⟩
def LANE_EVENT (m : Nat) : Nat := 0x38000904 + 0x1000 * m
def LANE_EVENT_VAL_REJ (m : Nat) : Fld := ⟨LANE_EVENT m, 0, 1⟩
def LANE_EVENT_CMD_REJ (m : Nat) : Fld := ⟨LANE_EVENT m, 1, 1⟩
def LANE_EVENT_PCTL_DONE (m : Nat) : Fld := ⟨LANE_EVENT m, 2, 1⟩
def LANE_EVENT_PCTL_RX (m : Nat) : Fld := ⟨LANE_EVENT m, 3, 1⟩
def LANE_POLICY : Nat := 0x90008
def LANE_POLICY_REPLAY_TMO : Fld := ⟨LANE_POLICY, 0, 8⟩
def LANE_POLICY_ACK_MAX : Fld := ⟨LANE_POLICY, 8, 8⟩
def LANE_POLICY_BOND_WAIT : Fld := ⟨LANE_POLICY, 16, 8⟩
def LANE_POLICY_TRAIN_MAX : Fld := ⟨LANE_POLICY, 24, 8⟩
def LANE_PRESENT (i : Nat) : Nat := 0x90040 + 0x4 * i
def LANE_PRESENT_MAP (i : Nat) : Fld := ⟨LANE_PRESENT i, 0, 32⟩
def LANE_ARRIVE_EVT (i : Nat) : Nat := 0x90050 + 0x4 * i
def LANE_ARRIVE_EVT_MAP (i : Nat) : Fld := ⟨LANE_ARRIVE_EVT i, 0, 32⟩
def LANE_DEPART_EVT (i : Nat) : Nat := 0x90060 + 0x4 * i
def LANE_DEPART_EVT_MAP (i : Nat) : Fld := ⟨LANE_DEPART_EVT i, 0, 32⟩
def LANE_PCTL_CTRL (m : Nat) : Nat := 0x38000980 + 0x1000 * m
def LANE_PCTL_CTRL_HANDLE (m : Nat) : Fld := ⟨LANE_PCTL_CTRL m, 0, 7⟩
def LANE_PCTL_CTRL_GO (m : Nat) : Fld := ⟨LANE_PCTL_CTRL m, 31, 1⟩
def LANE_PCTL_TX0 (m : Nat) : Nat := 0x38000984 + 0x1000 * m
def LANE_PCTL_TX0_DATA (m : Nat) : Fld := ⟨LANE_PCTL_TX0 m, 0, 32⟩
def LANE_PCTL_TX1 (m : Nat) : Nat := 0x38000988 + 0x1000 * m
def LANE_PCTL_TX1_DATA (m : Nat) : Fld := ⟨LANE_PCTL_TX1 m, 0, 32⟩
def LANE_PCTL_STATUS (m : Nat) : Nat := 0x3800098c + 0x1000 * m
def LANE_PCTL_STATUS_BUSY (m : Nat) : Fld := ⟨LANE_PCTL_STATUS m, 0, 1⟩
def LANE_PCTL_STATUS_DONE (m : Nat) : Fld := ⟨LANE_PCTL_STATUS m, 1, 1⟩
def LANE_PCTL_STATUS_REJ (m : Nat) : Fld := ⟨LANE_PCTL_STATUS m, 2, 1⟩
def LANE_PCTL_STATUS_LOST (m : Nat) : Fld := ⟨LANE_PCTL_STATUS m, 3, 1⟩
def LANE_PCTL_STATUS_ACK_ST (m : Nat) : Fld := ⟨LANE_PCTL_STATUS m, 4, 8⟩
def LANE_PCTL_STATUS_RX_LOST (m : Nat) : Fld := ⟨LANE_PCTL_STATUS m, 12, 8⟩
def LANE_PCTL_STATUS_TIMEOUT (m : Nat) : Fld := ⟨LANE_PCTL_STATUS m, 20, 1⟩
def LANE_PCTL_RX0 (m : Nat) : Nat := 0x38000990 + 0x1000 * m
def LANE_PCTL_RX0_DATA (m : Nat) : Fld := ⟨LANE_PCTL_RX0 m, 0, 32⟩
def LANE_PCTL_RX1 (m : Nat) : Nat := 0x38000994 + 0x1000 * m
def LANE_PCTL_RX1_DATA (m : Nat) : Fld := ⟨LANE_PCTL_RX1 m, 0, 32⟩
def LANE_PCTL_RX_INFO (m : Nat) : Nat := 0x38000998 + 0x1000 * m
def LANE_PCTL_RX_INFO_HANDLE (m : Nat) : Fld := ⟨LANE_PCTL_RX_INFO m, 0, 7⟩
def LANE_PCTL_RX_INFO_VALID (m : Nat) : Fld := ⟨LANE_PCTL_RX_INFO m, 7, 1⟩
def LANE_STATUS (p : Nat) : Nat := 0x90100 + 0x20 * p
def LANE_STATUS_PHASE (p : Nat) : Fld := ⟨LANE_STATUS p, 0, 3⟩
def LANE_STATUS_RATE (p : Nat) : Fld := ⟨LANE_STATUS p, 3, 2⟩
def LANE_STATUS_FEC (p : Nat) : Fld := ⟨LANE_STATUS p, 5, 1⟩
def LANE_STATUS_REPLAY (p : Nat) : Fld := ⟨LANE_STATUS p, 6, 1⟩
def LANE_STATUS_SUBST (p : Nat) : Fld := ⟨LANE_STATUS p, 7, 1⟩
def LANE_STATUS_BOND_POS (p : Nat) : Fld := ⟨LANE_STATUS p, 8, 2⟩
def LANE_STATUS_FAILED (p : Nat) : Fld := ⟨LANE_STATUS p, 10, 1⟩
def LANE_STATUS_HANDLE (p : Nat) : Fld := ⟨LANE_STATUS p, 16, 7⟩
def LANE_STATUS_ROLE (p : Nat) : Fld := ⟨LANE_STATUS p, 24, 2⟩
def LANE_CFG (p : Nat) : Nat := 0x90104 + 0x20 * p
def LANE_CFG_MAX_RATE (p : Nat) : Fld := ⟨LANE_CFG p, 0, 2⟩
def LANE_CFG_FEC_POL (p : Nat) : Fld := ⟨LANE_CFG p, 2, 2⟩
def LANE_CFG_HANDLE (p : Nat) : Fld := ⟨LANE_CFG p, 4, 7⟩
def LANE_CNT0 (p : Nat) : Nat := 0x90108 + 0x20 * p
def LANE_CNT0_EPISODES (p : Nat) : Fld := ⟨LANE_CNT0 p, 0, 16⟩
def LANE_CNT0_EXHAUST (p : Nat) : Fld := ⟨LANE_CNT0 p, 16, 8⟩
def LANE_CNT0_TRAIN_FAIL (p : Nat) : Fld := ⟨LANE_CNT0 p, 24, 8⟩
def LANE_CNT1 (p : Nat) : Nat := 0x9010c + 0x20 * p
def LANE_CNT1_FEC_CORR (p : Nat) : Fld := ⟨LANE_CNT1 p, 0, 16⟩
def LANE_CNT1_FEC_UNCORR (p : Nat) : Fld := ⟨LANE_CNT1 p, 16, 8⟩
def LANE_CNT1_BAD_BLK (p : Nat) : Fld := ⟨LANE_CNT1 p, 24, 8⟩
def LANE_RTT (p : Nat) : Nat := 0x90110 + 0x20 * p
def LANE_RTT_VALUE (p : Nat) : Fld := ⟨LANE_RTT p, 0, 32⟩
def LANE_TXLAT (p : Nat) : Nat := 0x90114 + 0x20 * p
def LANE_TXLAT_VALUE (p : Nat) : Fld := ⟨LANE_TXLAT p, 0, 32⟩
def LANE_RXLAT (p : Nat) : Nat := 0x90118 + 0x20 * p
def LANE_RXLAT_VALUE (p : Nat) : Fld := ⟨LANE_RXLAT p, 0, 32⟩
def LANE_RET (p : Nat) : Nat := 0x9011c + 0x20 * p
def LANE_RET_REASON (p : Nat) : Fld := ⟨LANE_RET p, 0, 8⟩
def LANE_RET_BY_FAR (p : Nat) : Fld := ⟨LANE_RET p, 8, 1⟩
def LANE_PTN_STATUS (h : Nat) : Nat := 0x91000 + 0x20 * h
def LANE_PTN_STATUS_PRESENT (h : Nat) : Fld := ⟨LANE_PTN_STATUS h, 0, 1⟩
def LANE_PTN_STATUS_WIDTH (h : Nat) : Fld := ⟨LANE_PTN_STATUS h, 1, 3⟩
def LANE_PTN_STATUS_RATE (h : Nat) : Fld := ⟨LANE_PTN_STATUS h, 4, 2⟩
def LANE_PTN_STATUS_FEC (h : Nat) : Fld := ⟨LANE_PTN_STATUS h, 6, 1⟩
def LANE_PTN_STATUS_TIME (h : Nat) : Fld := ⟨LANE_PTN_STATUS h, 7, 1⟩
def LANE_PTN_STATUS_VER (h : Nat) : Fld := ⟨LANE_PTN_STATUS h, 8, 3⟩
def LANE_PTN_STATUS_SUBST (h : Nat) : Fld := ⟨LANE_PTN_STATUS h, 11, 1⟩
def LANE_PTN_STATUS_FIRST (h : Nat) : Fld := ⟨LANE_PTN_STATUS h, 16, 7⟩
def LANE_PTN_STATUS_BASKET (h : Nat) : Fld := ⟨LANE_PTN_STATUS h, 24, 6⟩
def LANE_PTN_ID0 (h : Nat) : Nat := 0x91004 + 0x20 * h
def LANE_PTN_ID0_VENDOR (h : Nat) : Fld := ⟨LANE_PTN_ID0 h, 0, 16⟩
def LANE_PTN_ID0_DEVICE (h : Nat) : Fld := ⟨LANE_PTN_ID0 h, 16, 16⟩
def LANE_PTN_ID1 (h : Nat) : Nat := 0x91008 + 0x20 * h
def LANE_PTN_ID1_SERIAL (h : Nat) : Fld := ⟨LANE_PTN_ID1 h, 0, 32⟩
def LANE_PTN_BIND (h : Nat) : Nat := 0x9100c + 0x20 * h
def LANE_PTN_BIND_GROUP (h : Nat) : Fld := ⟨LANE_PTN_BIND h, 0, 3⟩
def LANE_PTN_BIND_FIRST (h : Nat) : Fld := ⟨LANE_PTN_BIND h, 3, 4⟩
def LANE_PTN_BIND_WIDTH (h : Nat) : Fld := ⟨LANE_PTN_BIND h, 7, 2⟩
def LANE_PTN_BIND_SPARE (h : Nat) : Fld := ⟨LANE_PTN_BIND h, 9, 1⟩
def LANE_PTN_BIND_ID_CHECK (h : Nat) : Fld := ⟨LANE_PTN_BIND h, 10, 1⟩
def LANE_PTN_BIND_BOUND (h : Nat) : Fld := ⟨LANE_PTN_BIND h, 11, 1⟩
def LANE_PTN_BIND_BASKET (h : Nat) : Fld := ⟨LANE_PTN_BIND h, 12, 6⟩
def LANE_PTN_EXPECT (h : Nat) : Nat := 0x91010 + 0x20 * h
def LANE_PTN_EXPECT_VENDOR (h : Nat) : Fld := ⟨LANE_PTN_EXPECT h, 0, 16⟩
def LANE_PTN_EXPECT_DEVICE (h : Nat) : Fld := ⟨LANE_PTN_EXPECT h, 16, 16⟩
def LANE_PTN_CNT (h : Nat) : Nat := 0x91014 + 0x20 * h
def LANE_PTN_CNT_ARRIVALS (h : Nat) : Fld := ⟨LANE_PTN_CNT h, 0, 16⟩
def LANE_PTN_CNT_SURPRISE (h : Nat) : Fld := ⟨LANE_PTN_CNT h, 16, 8⟩
def LANE_PTN_CNT_REFUSED (h : Nat) : Fld := ⟨LANE_PTN_CNT h, 24, 8⟩
def PLAN_CMD : Nat := 0xa0000
def PLAN_CMD_CODE : Fld := ⟨PLAN_CMD, 0, 4⟩
def PLAN_STATUS : Nat := 0xa0004
def PLAN_STATUS_STATE : Fld := ⟨PLAN_STATUS, 0, 3⟩
def PLAN_STATUS_RESULT : Fld := ⟨PLAN_STATUS, 4, 3⟩
def PLAN_STATUS_STORED : Fld := ⟨PLAN_STATUS, 7, 1⟩
def PLAN_STATUS_CODE : Fld := ⟨PLAN_STATUS, 8, 8⟩
def PLAN_STATUS_IN_FORCE : Fld := ⟨PLAN_STATUS, 16, 1⟩
def PLAN_STATUS_PARTIAL : Fld := ⟨PLAN_STATUS, 17, 1⟩
def PLAN_STATUS_BASKET : Fld := ⟨PLAN_STATUS, 18, 6⟩
def PLAN_DETAIL : Nat := 0xa0008
def PLAN_DETAIL_SECTION : Fld := ⟨PLAN_DETAIL, 0, 8⟩
def PLAN_DETAIL_INDEX : Fld := ⟨PLAN_DETAIL, 8, 24⟩
def PLAN_LEN : Nat := 0xa000c
def PLAN_LEN_WORDS : Fld := ⟨PLAN_LEN, 0, 20⟩
def PLAN_CFG : Nat := 0xa0010
def PLAN_CFG_STAGE_TMO : Fld := ⟨PLAN_CFG, 0, 8⟩
def PLAN_ID : Nat := 0xa0014
def PLAN_ID_VALUE : Fld := ⟨PLAN_ID, 0, 32⟩
def PLAN_SEQ : Nat := 0xa0018
def PLAN_SEQ_VALUE : Fld := ⟨PLAN_SEQ, 0, 32⟩
def PLAN_MIN_SEQ : Nat := 0xa001c
def PLAN_MIN_SEQ_MIN : Fld := ⟨PLAN_MIN_SEQ, 0, 32⟩
def PLAN_EVENT : Nat := 0xa0020
def PLAN_EVENT_VERIFIED : Fld := ⟨PLAN_EVENT, 0, 1⟩
def PLAN_EVENT_APPLIED : Fld := ⟨PLAN_EVENT, 1, 1⟩
def PLAN_EVENT_REFUSED : Fld := ⟨PLAN_EVENT, 2, 1⟩
def PLAN_EVENT_ABORTED : Fld := ⟨PLAN_EVENT, 3, 1⟩
def PLAN_EVENT_STORE_DONE : Fld := ⟨PLAN_EVENT, 4, 1⟩
def PLAN_EVENT_WR_REJ : Fld := ⟨PLAN_EVENT, 5, 1⟩
def PLAN_EVENT_CMD_REJ : Fld := ⟨PLAN_EVENT, 6, 1⟩
def PLAN_EVENT_VAL_REJ : Fld := ⟨PLAN_EVENT, 7, 1⟩
def PLAN_EVENT_BOOT_FAIL : Fld := ⟨PLAN_EVENT, 8, 1⟩
def PLAN_BOOT_STATUS : Nat := 0xa0024
def PLAN_BOOT_STATUS_SRC : Fld := ⟨PLAN_BOOT_STATUS, 0, 2⟩
def PLAN_BOOT_STATUS_STRAP_RSV : Fld := ⟨PLAN_BOOT_STATUS, 2, 1⟩
def PLAN_BOOT_STATUS_VALID_A : Fld := ⟨PLAN_BOOT_STATUS, 3, 1⟩
def PLAN_BOOT_STATUS_VALID_B : Fld := ⟨PLAN_BOOT_STATUS, 4, 1⟩
def PLAN_BOOT_STATUS_LOADED : Fld := ⟨PLAN_BOOT_STATUS, 5, 1⟩
def PLAN_BOOT_STATUS_CODE : Fld := ⟨PLAN_BOOT_STATUS, 8, 8⟩
def PLAN_FRAG_SEQ (b : Nat) : Nat := 0xa0100 + 0x4 * b
def PLAN_FRAG_SEQ_SEQ (b : Nat) : Fld := ⟨PLAN_FRAG_SEQ b, 0, 32⟩
def BSK_CMD : Nat := 0xb0000
def BSK_CMD_BASKET : Fld := ⟨BSK_CMD, 0, 6⟩
def BSK_CMD_CODE : Fld := ⟨BSK_CMD, 8, 4⟩
def BSK_EVENT : Nat := 0xb0004
def BSK_EVENT_CMD_REJ : Fld := ⟨BSK_EVENT, 0, 1⟩
def BSK_EVENT_ATTACHED : Fld := ⟨BSK_EVENT, 1, 1⟩
def BSK_EVENT_ATTACH_FAIL : Fld := ⟨BSK_EVENT, 2, 1⟩
def BSK_EVENT_ORPHANED : Fld := ⟨BSK_EVENT, 3, 1⟩
def BSK_KEEPER_CMD : Nat := 0xb0008
def BSK_KEEPER_CMD_CODE : Fld := ⟨BSK_KEEPER_CMD, 0, 4⟩
def BSK_KEEPER_CMD_KEY_ID : Fld := ⟨BSK_KEEPER_CMD, 4, 2⟩
def BSK_KEEPER_STATUS : Nat := 0xb000c
def BSK_KEEPER_STATUS_STATE : Fld := ⟨BSK_KEEPER_STATUS, 0, 2⟩
def BSK_KEEPER_STATUS_NONCE_VALID : Fld := ⟨BSK_KEEPER_STATUS, 2, 1⟩
def BSK_KEEPER_STATUS_KEY_ID : Fld := ⟨BSK_KEEPER_STATUS, 3, 2⟩
def BSK_KEEPER_STATUS_FAILS : Fld := ⟨BSK_KEEPER_STATUS, 8, 8⟩
def BSK_KEEPER_STATUS_ORPHAN_S : Fld := ⟨BSK_KEEPER_STATUS, 16, 16⟩
def BSK_KEEPER_NONCE (i : Nat) : Nat := 0xb0040 + 0x4 * i
def BSK_KEEPER_NONCE_NONCE (i : Nat) : Fld := ⟨BSK_KEEPER_NONCE i, 0, 32⟩
def BSK_KEEPER_RESP (i : Nat) : Nat := 0xb0080 + 0x4 * i
def BSK_KEEPER_RESP_RESP (i : Nat) : Fld := ⟨BSK_KEEPER_RESP i, 0, 32⟩
def BSK_RIM_OWN (n : Nat) : Nat := 0xb0100 + 0x4 * n
def BSK_RIM_OWN_BASKET (n : Nat) : Fld := ⟨BSK_RIM_OWN n, 0, 6⟩
def BSK_RIM_OWN_EXCL (n : Nat) : Fld := ⟨BSK_RIM_OWN n, 6, 1⟩
def BSK_RIM_OWN_BOUND (n : Nat) : Fld := ⟨BSK_RIM_OWN n, 7, 1⟩
def BSK_RIM_OWN_WALES (n : Nat) : Fld := ⟨BSK_RIM_OWN n, 8, 7⟩
def BSK_VIOL (m : Nat) : Nat := 0xb0200 + 0x4 * m
def BSK_VIOL_KP_WR (m : Nat) : Fld := ⟨BSK_VIOL m, 0, 16⟩
def BSK_VIOL_FOREIGN (m : Nat) : Fld := ⟨BSK_VIOL m, 16, 16⟩
def BSK_VIOL_EVT (i : Nat) : Nat := 0xb0340 + 0x4 * i
def BSK_VIOL_EVT_EVT (i : Nat) : Fld := ⟨BSK_VIOL_EVT i, 0, 32⟩
def BSK_STATUS (b : Nat) : Nat := 0xb1000 + 0x40 * b
def BSK_STATUS_STATE (b : Nat) : Fld := ⟨BSK_STATUS b, 0, 2⟩
def BSK_STATUS_VF_EN (b : Nat) : Fld := ⟨BSK_STATUS b, 2, 1⟩
def BSK_STATUS_FLR (b : Nat) : Fld := ⟨BSK_STATUS b, 3, 1⟩
def BSK_STATUS_RECOV (b : Nat) : Fld := ⟨BSK_STATUS b, 8, 5⟩
def BSK_STATUS_WALES (b : Nat) : Fld := ⟨BSK_STATUS b, 16, 7⟩
def BSK_SRC0 (b : Nat) : Nat := 0xb1004 + 0x40 * b
def BSK_SRC0_WARP_A (b : Nat) : Fld := ⟨BSK_SRC0 b, 0, 1⟩
def BSK_SRC0_WARP_B (b : Nat) : Fld := ⟨BSK_SRC0 b, 1, 1⟩
def BSK_SRC0_HOST (b : Nat) : Fld := ⟨BSK_SRC0 b, 2, 1⟩
def BSK_SRC_H (b : Nat) (i : Nat) : Nat := 0xb1008 + 0x40 * b + 0x4 * i
def BSK_SRC_H_HANDLES (b : Nat) (i : Nat) : Fld := ⟨BSK_SRC_H b i, 0, 32⟩
def BSK_PROF_BASE (b : Nat) : Nat := 0xb1014 + 0x40 * b
def BSK_PROF_BASE_BASE (b : Nat) : Fld := ⟨BSK_PROF_BASE b, 0, 20⟩
def BSK_PROF_QUOTA (b : Nat) : Nat := 0xb1018 + 0x40 * b
def BSK_PROF_QUOTA_QUOTA (b : Nat) : Fld := ⟨BSK_PROF_QUOTA b, 0, 21⟩
def BSK_TIMERS0 (b : Nat) : Nat := 0xb101c + 0x40 * b
def BSK_TIMERS0_HOLD_MAX (b : Nat) : Fld := ⟨BSK_TIMERS0 b, 0, 20⟩
def BSK_TIMERS1 (b : Nat) : Nat := 0xb1020 + 0x40 * b
def BSK_TIMERS1_SPEC_TMO (b : Nat) : Fld := ⟨BSK_TIMERS1 b, 0, 10⟩
def BSK_TIMERS1_RAMP_K (b : Nat) : Fld := ⟨BSK_TIMERS1 b, 10, 4⟩
def BSK_TIMERS1_RAMP_J (b : Nat) : Fld := ⟨BSK_TIMERS1 b, 14, 4⟩
def BSK_TIMERS1_QUIET (b : Nat) : Fld := ⟨BSK_TIMERS1 b, 18, 14⟩
def BSK_REJ_CNT (b : Nat) : Nat := 0xb1024 + 0x40 * b
def BSK_REJ_CNT_REJ_SOURCE (b : Nat) : Fld := ⟨BSK_REJ_CNT b, 0, 16⟩
def BSK_REJ_CNT_REJ_TARGET (b : Nat) : Fld := ⟨BSK_REJ_CNT b, 16, 16⟩
def DEV_SB_STATUS : Nat := 0x3f000000
def DEV_SB_STATUS_STAGE : Fld := ⟨DEV_SB_STATUS, 0, 3⟩
def DEV_SB_STATUS_FAULT_N : Fld := ⟨DEV_SB_STATUS, 3, 1⟩
def DEV_SB_STATUS_CLASS_G : Fld := ⟨DEV_SB_STATUS, 4, 1⟩
def DEV_SB_STATUS_CLASS_B : Fld := ⟨DEV_SB_STATUS, 5, 1⟩
def DEV_SB_STATUS_PLAN : Fld := ⟨DEV_SB_STATUS, 6, 1⟩
def DEV_SB_STATUS_HEARTH : Fld := ⟨DEV_SB_STATUS, 8, 3⟩
def DEV_SB_STATUS_KEEPER : Fld := ⟨DEV_SB_STATUS, 12, 2⟩
def DEV_SB_STATUS_TJ_MAX : Fld := ⟨DEV_SB_STATUS, 16, 8⟩
def DEV_SB_STRAP : Nat := 0x3f000004
def DEV_SB_STRAP_LEVEL : Fld := ⟨DEV_SB_STRAP, 0, 16⟩
def DEV_SB_STRAP_STABLE : Fld := ⟨DEV_SB_STRAP, 16, 1⟩
def DEV_SB_RAILS : Nat := 0x3f000008
def DEV_SB_RAILS_GOOD : Fld := ⟨DEV_SB_RAILS, 0, 8⟩
def DEV_SB_FAULT0 : Nat := 0x3f000010
def DEV_SB_FAULT0_MSG_LO : Fld := ⟨DEV_SB_FAULT0, 0, 32⟩
def DEV_SB_FAULT1 : Nat := 0x3f000014
def DEV_SB_FAULT1_MSG_HI : Fld := ⟨DEV_SB_FAULT1, 0, 32⟩
def DEV_SB_WIN_ADDR : Nat := 0x3f000020
def DEV_SB_WIN_ADDR_ADDR : Fld := ⟨DEV_SB_WIN_ADDR, 2, 24⟩
def DEV_SB_WIN_DATA : Nat := 0x3f000024
def DEV_SB_WIN_DATA_DATA : Fld := ⟨DEV_SB_WIN_DATA, 0, 32⟩
def DEV_SB_WIN_CMD : Nat := 0x3f000028
def DEV_SB_WIN_CMD_CMD : Fld := ⟨DEV_SB_WIN_CMD, 0, 2⟩
def DEV_SB_WIN_CMD_AUTO_INC : Fld := ⟨DEV_SB_WIN_CMD, 4, 1⟩
def DEV_SB_WIN_CMD_STATE : Fld := ⟨DEV_SB_WIN_CMD, 8, 2⟩
def DEV_SB_EVENT : Nat := 0x3f000030
def DEV_SB_EVENT_FAULT_SET : Fld := ⟨DEV_SB_EVENT, 0, 1⟩
def DEV_SB_EVENT_FAULT_CLR : Fld := ⟨DEV_SB_EVENT, 1, 1⟩
def DEV_SB_EVENT_STRAP_BAD : Fld := ⟨DEV_SB_EVENT, 2, 1⟩
def DEV_SB_EVENT_READY : Fld := ⟨DEV_SB_EVENT, 3, 1⟩
def DEV_SB_EVENT_ORPHAN : Fld := ⟨DEV_SB_EVENT, 4, 1⟩
def DEV_SB_IBI_EN : Nat := 0x3f000034
def DEV_SB_IBI_EN_EN : Fld := ⟨DEV_SB_IBI_EN, 0, 5⟩
def FC_CFG : Nat := 0xc0000
def FC_CFG_W_GAP : Fld := ⟨FC_CFG, 0, 10⟩
def FC_STATUS : Nat := 0xc0004
def FC_STATUS_G_ACTIVE : Fld := ⟨FC_STATUS, 0, 1⟩
def FC_STATUS_FAULT_N : Fld := ⟨FC_STATUS, 1, 1⟩
def FC_STATUS_QUIET : Fld := ⟨FC_STATUS, 2, 7⟩
def FC_STATUS_FAULTED : Fld := ⟨FC_STATUS, 9, 7⟩
def FC_STATUS_LOG_LOW : Fld := ⟨FC_STATUS, 16, 1⟩
def FC_STATUS_LOG_FULL : Fld := ⟨FC_STATUS, 17, 1⟩
def FC_EVENT : Nat := 0xc0008
def FC_EVENT_G_RAISED : Fld := ⟨FC_EVENT, 0, 1⟩
def FC_EVENT_B_RAISED : Fld := ⟨FC_EVENT, 1, 1⟩
def FC_EVENT_RECOVERED : Fld := ⟨FC_EVENT, 2, 1⟩
def FC_EVENT_LOCKED_OUT : Fld := ⟨FC_EVENT, 3, 1⟩
def FC_EVENT_DEV_ESC : Fld := ⟨FC_EVENT, 4, 1⟩
def FC_EVENT_LOG_LOW : Fld := ⟨FC_EVENT, 5, 1⟩
def FC_EVENT_LOG_LOST : Fld := ⟨FC_EVENT, 6, 1⟩
def FC_EVENT_VAL_REJ : Fld := ⟨FC_EVENT, 7, 1⟩
def FC_LOG_HEAD : Nat := 0xc000c
def FC_LOG_HEAD_HEAD : Fld := ⟨FC_LOG_HEAD, 0, 16⟩
def FC_LOG_TAIL : Nat := 0xc0010
def FC_LOG_TAIL_TAIL : Fld := ⟨FC_LOG_TAIL, 0, 16⟩
def FC_LOG_LOST : Nat := 0xc0014
def FC_LOG_LOST_LOST_W : Fld := ⟨FC_LOG_LOST, 0, 16⟩
def FC_LOG_LOST_LOST_GB : Fld := ⟨FC_LOG_LOST, 16, 16⟩
def FC_FIRST_G0 : Nat := 0xc0018
def FC_FIRST_G0_MSG : Fld := ⟨FC_FIRST_G0, 0, 32⟩
def FC_FIRST_G1 : Nat := 0xc001c
def FC_FIRST_G1_MSG : Fld := ⟨FC_FIRST_G1, 0, 32⟩
def FC_CNT : Nat := 0xc0020
def FC_CNT_W : Fld := ⟨FC_CNT, 0, 16⟩
def FC_CNT_B : Fld := ⟨FC_CNT, 16, 8⟩
def FC_CNT_G : Fld := ⟨FC_CNT, 24, 8⟩
def FC_FORCE0 (m : Nat) : Nat := 0x38000c40 + 0x1000 * m
def FC_FORCE0_SOURCE (m : Nat) : Fld := ⟨FC_FORCE0 m, 0, 16⟩
def FC_FORCE0_KIND (m : Nat) : Fld := ⟨FC_FORCE0 m, 16, 8⟩
def FC_FORCE0_BASKET (m : Nat) : Fld := ⟨FC_FORCE0 m, 24, 6⟩
def FC_FORCE_CMD (m : Nat) : Nat := 0x38000c44 + 0x1000 * m
def FC_FORCE_CMD_ACTION (m : Nat) : Fld := ⟨FC_FORCE_CMD m, 0, 2⟩
def FC_FORCE_CMD_GO (m : Nat) : Fld := ⟨FC_FORCE_CMD m, 31, 1⟩
def FC_FORCE_STATUS (m : Nat) : Nat := 0x38000c48 + 0x1000 * m
def FC_FORCE_STATUS_DONE (m : Nat) : Fld := ⟨FC_FORCE_STATUS m, 0, 1⟩
def FC_FORCE_STATUS_REJ (m : Nat) : Fld := ⟨FC_FORCE_STATUS m, 1, 1⟩
def FC_FORCE_STATUS_REASON (m : Nat) : Fld := ⟨FC_FORCE_STATUS m, 4, 4⟩
def FC_FORCE_STATUS_HELD (m : Nat) : Fld := ⟨FC_FORCE_STATUS m, 8, 5⟩
def FC_BSK_STATE (b : Nat) : Nat := 0xc1000 + 0x20 * b
def FC_BSK_STATE_CAUSES (b : Nat) : Fld := ⟨FC_BSK_STATE b, 0, 8⟩
def FC_BSK_STATE_HELD (b : Nat) : Fld := ⟨FC_BSK_STATE b, 8, 5⟩
def FC_BSK_STATE_QUIET_LEFT (b : Nat) : Fld := ⟨FC_BSK_STATE b, 16, 16⟩
def FC_BSK_LAST0 (b : Nat) : Nat := 0xc1004 + 0x20 * b
def FC_BSK_LAST0_MSG (b : Nat) : Fld := ⟨FC_BSK_LAST0 b, 0, 32⟩
def FC_BSK_LAST1 (b : Nat) : Nat := 0xc1008 + 0x20 * b
def FC_BSK_LAST1_MSG (b : Nat) : Fld := ⟨FC_BSK_LAST1 b, 0, 32⟩
def FC_BSK_CNT (b : Nat) : Nat := 0xc100c + 0x20 * b
def FC_BSK_CNT_W (b : Nat) : Fld := ⟨FC_BSK_CNT b, 0, 16⟩
def FC_BSK_CNT_B (b : Nat) : Fld := ⟨FC_BSK_CNT b, 16, 8⟩
def FC_BSK_CNT_RECOV_ALL (b : Nat) : Fld := ⟨FC_BSK_CNT b, 24, 8⟩
def FC_BSK_EVT (b : Nat) : Nat := 0xc1010 + 0x20 * b
def FC_BSK_EVT_B_RAISED (b : Nat) : Fld := ⟨FC_BSK_EVT b, 0, 1⟩
def FC_BSK_EVT_RECOVERED (b : Nat) : Fld := ⟨FC_BSK_EVT b, 1, 1⟩
def FC_BSK_EVT_LOCKED_OUT (b : Nat) : Fld := ⟨FC_BSK_EVT b, 2, 1⟩
def FC_BSK_EVT_KEEPER_CLEAR (b : Nat) : Fld := ⟨FC_BSK_EVT b, 3, 1⟩
def PWR_CMD : Nat := 0xd0000
def PWR_CMD_CODE : Fld := ⟨PWR_CMD, 0, 4⟩
def PWR_STATUS : Nat := 0xd0004
def PWR_STATUS_STAGE : Fld := ⟨PWR_STATUS, 0, 3⟩
def PWR_STATUS_LEVEL : Fld := ⟨PWR_STATUS, 4, 2⟩
def PWR_STATUS_FORCED : Fld := ⟨PWR_STATUS, 6, 1⟩
def PWR_EVENT : Nat := 0xd0008
def PWR_EVENT_SHUT_DONE : Fld := ⟨PWR_EVENT, 0, 1⟩
def PWR_EVENT_SHUT_ABORT : Fld := ⟨PWR_EVENT, 1, 1⟩
def PWR_EVENT_LEVEL_UP : Fld := ⟨PWR_EVENT, 2, 1⟩
def PWR_EVENT_LEVEL3 : Fld := ⟨PWR_EVENT, 3, 1⟩
def PWR_EVENT_STRAP_MOVED : Fld := ⟨PWR_EVENT, 4, 1⟩
def PWR_EVENT_CMD_REJ : Fld := ⟨PWR_EVENT, 5, 1⟩
def PWR_EVENT_VAL_REJ : Fld := ⟨PWR_EVENT, 6, 1⟩
def PWR_PACE_CFG : Nat := 0xd000c
def PWR_PACE_CFG_T1 : Fld := ⟨PWR_PACE_CFG, 0, 8⟩
def PWR_PACE_CFG_T2 : Fld := ⟨PWR_PACE_CFG, 8, 8⟩
def PWR_PACE_CFG_T3 : Fld := ⟨PWR_PACE_CFG, 16, 8⟩
def PWR_PACE_CFG_HYST : Fld := ⟨PWR_PACE_CFG, 24, 4⟩
def PWR_PACE_CFG_HOLD : Fld := ⟨PWR_PACE_CFG, 28, 3⟩
def PWR_PACE_FORCE : Nat := 0xd0010
def PWR_PACE_FORCE_LEVEL : Fld := ⟨PWR_PACE_FORCE, 0, 2⟩
def PWR_PACE_CNT : Nat := 0xd0014
def PWR_PACE_CNT_L1 : Fld := ⟨PWR_PACE_CNT, 0, 16⟩
def PWR_PACE_CNT_L2 : Fld := ⟨PWR_PACE_CNT, 16, 8⟩
def PWR_PACE_CNT_L3 : Fld := ⟨PWR_PACE_CNT, 24, 8⟩
def PWR_PACE_TIME : Nat := 0xd0018
def PWR_PACE_TIME_TIME : Fld := ⟨PWR_PACE_TIME, 0, 32⟩
def PWR_START : Nat := 0xd001c
def PWR_START_TIME : Fld := ⟨PWR_START, 0, 16⟩
def PWR_START_KIND : Fld := ⟨PWR_START, 16, 2⟩
def PWR_START_PAUSED : Fld := ⟨PWR_START, 18, 1⟩
def PWR_RAIL (r : Nat) : Nat := 0xd0040 + 0x4 * r
def PWR_RAIL_NOW (r : Nat) : Fld := ⟨PWR_RAIL r, 0, 12⟩
def PWR_RAIL_MIN (r : Nat) : Fld := ⟨PWR_RAIL r, 16, 12⟩
def PWR_TEMP (i : Nat) : Nat := 0xd0080 + 0x4 * i
def PWR_TEMP_TJ (i : Nat) : Fld := ⟨PWR_TEMP i, 0, 12⟩
def PWR_TEMP_MAX (i : Nat) : Fld := ⟨PWR_TEMP i, 16, 12⟩
def PWR_DROOP (s : Nat) : Nat := 0xd0100 + 0x4 * s
def PWR_DROOP_NOW (s : Nat) : Fld := ⟨PWR_DROOP s, 0, 8⟩
def PWR_DROOP_PEAK (s : Nat) : Fld := ⟨PWR_DROOP s, 8, 8⟩
def PWR_DROOP_BASE (s : Nat) : Fld := ⟨PWR_DROOP s, 16, 12⟩
def BIST_CMD : Nat := 0xe0000
def BIST_CMD_CODE : Fld := ⟨BIST_CMD, 0, 4⟩
def BIST_STATUS : Nat := 0xe0004
def BIST_STATUS_ORIGIN : Fld := ⟨BIST_STATUS, 0, 2⟩
def BIST_STATUS_LOGIC_OK : Fld := ⟨BIST_STATUS, 2, 1⟩
def BIST_STATUS_MISR_OK : Fld := ⟨BIST_STATUS, 3, 1⟩
def BIST_STATUS_MEM_OK : Fld := ⟨BIST_STATUS, 4, 1⟩
def BIST_STATUS_LANE_OK : Fld := ⟨BIST_STATUS, 5, 1⟩
def BIST_STATUS_FULL_NEXT : Fld := ⟨BIST_STATUS, 6, 1⟩
def BIST_EVENT : Nat := 0xe0008
def BIST_EVENT_LOGIC_FAIL : Fld := ⟨BIST_EVENT, 0, 1⟩
def BIST_EVENT_MEM_REPAIR : Fld := ⟨BIST_EVENT, 1, 1⟩
def BIST_EVENT_MEM_FAIL : Fld := ⟨BIST_EVENT, 2, 1⟩
def BIST_EVENT_LANE_FAIL : Fld := ⟨BIST_EVENT, 3, 1⟩
def BIST_EVENT_MAP_STORED : Fld := ⟨BIST_EVENT, 4, 1⟩
def BIST_EVENT_WEAR_REQ : Fld := ⟨BIST_EVENT, 5, 1⟩
def BIST_EVENT_WEAR_DONE : Fld := ⟨BIST_EVENT, 6, 1⟩
def BIST_EVENT_CMD_REJ : Fld := ⟨BIST_EVENT, 7, 1⟩
def BIST_EVENT_VAL_REJ : Fld := ⟨BIST_EVENT, 8, 1⟩
def BIST_WEAR_POLICY : Nat := 0xe000c
def BIST_WEAR_POLICY_AUTO_STRAND : Fld := ⟨BIST_WEAR_POLICY, 0, 1⟩
def BIST_WEAR_POLICY_AUTO_RIM : Fld := ⟨BIST_WEAR_POLICY, 1, 1⟩
def BIST_WEAR_PEND_S (i : Nat) : Nat := 0xe0010 + 0x4 * i
def BIST_WEAR_PEND_S_MAP (i : Nat) : Fld := ⟨BIST_WEAR_PEND_S i, 0, 32⟩
def BIST_WEAR_PEND_R : Nat := 0xe0018
def BIST_WEAR_PEND_R_MAP : Fld := ⟨BIST_WEAR_PEND_R, 0, 16⟩
def BIST_TIME : Nat := 0xe001c
def BIST_TIME_LOGIC : Fld := ⟨BIST_TIME, 0, 8⟩
def BIST_TIME_MEM : Fld := ⟨BIST_TIME, 8, 12⟩
def BIST_TIME_LANE : Fld := ⟨BIST_TIME, 20, 8⟩
def BIST_OPTIME : Nat := 0xe0020
def BIST_OPTIME_MINUTES : Fld := ⟨BIST_OPTIME, 0, 32⟩
def BIST_MAP_STATUS : Nat := 0xe0024
def BIST_MAP_STATUS_VALID : Fld := ⟨BIST_MAP_STATUS, 0, 1⟩
def BIST_MAP_STATUS_PENDING : Fld := ⟨BIST_MAP_STATUS, 1, 1⟩
def BIST_MAP_STATUS_SEQ : Fld := ⟨BIST_MAP_STATUS, 16, 16⟩
def BIST_LOGIC (g : Nat) : Nat := 0xe0040 + 0x4 * g
def BIST_LOGIC_SA_COV (g : Nat) : Fld := ⟨BIST_LOGIC g, 0, 10⟩
def BIST_LOGIC_TR_COV (g : Nat) : Fld := ⟨BIST_LOGIC g, 10, 10⟩
def BIST_LOGIC_RAN (g : Nat) : Fld := ⟨BIST_LOGIC g, 20, 1⟩
def BIST_LOGIC_PASS (g : Nat) : Fld := ⟨BIST_LOGIC g, 21, 1⟩
def BIST_LOGIC_FAIL_WALE (g : Nat) : Fld := ⟨BIST_LOGIC g, 22, 4⟩
def BIST_MISR (k : Nat) : Nat := 0xe0080 + 0x4 * k
def BIST_MISR_MATCH (k : Nat) : Fld := ⟨BIST_MISR k, 0, 1⟩
def BIST_MISR_RAN (k : Nat) : Fld := ⟨BIST_MISR k, 1, 1⟩
def BIST_MISR_SIG (k : Nat) : Nat := 0xe0090 + 0x4 * k
def BIST_MISR_SIG_SIG (k : Nat) : Fld := ⟨BIST_MISR_SIG k, 0, 32⟩
def BIST_MEM_FAIL (i : Nat) : Nat := 0xe00c0 + 0x4 * i
def BIST_MEM_FAIL_MAP (i : Nat) : Fld := ⟨BIST_MEM_FAIL i, 0, 32⟩
def BIST_LANE_FAIL (i : Nat) : Nat := 0xe00e0 + 0x4 * i
def BIST_LANE_FAIL_MAP (i : Nat) : Fld := ⟨BIST_LANE_FAIL i, 0, 32⟩
def BIST_MEM_REP (m : Nat) : Nat := 0xe0400 + 0x4 * m
def BIST_MEM_REP_ROW_FUSE (m : Nat) : Fld := ⟨BIST_MEM_REP m, 0, 3⟩
def BIST_MEM_REP_ROW_SOFT (m : Nat) : Fld := ⟨BIST_MEM_REP m, 3, 3⟩
def BIST_MEM_REP_COL_FUSE (m : Nat) : Fld := ⟨BIST_MEM_REP m, 6, 2⟩
def BIST_MEM_REP_COL_SOFT (m : Nat) : Fld := ⟨BIST_MEM_REP m, 8, 2⟩
def BIST_MEM_REP_FAILED (m : Nat) : Fld := ⟨BIST_MEM_REP m, 10, 1⟩
def BIST_MEM_REP_NEW (m : Nat) : Fld := ⟨BIST_MEM_REP m, 11, 1⟩
def BIST_MEM_REP_STORE (m : Nat) : Fld := ⟨BIST_MEM_REP m, 16, 3⟩
def LC_CMD : Nat := 0xf0000
def LC_CMD_CODE : Fld := ⟨LC_CMD, 0, 4⟩
def LC_CMD_SLOT : Fld := ⟨LC_CMD, 4, 1⟩
def LC_CMD_CONFIRM : Fld := ⟨LC_CMD, 8, 8⟩
def LC_STATUS : Nat := 0xf0004
def LC_STATUS_STATE : Fld := ⟨LC_STATUS, 0, 3⟩
def LC_STATUS_BUSY : Fld := ⟨LC_STATUS, 3, 1⟩
def LC_STATUS_GAP : Fld := ⟨LC_STATUS, 4, 1⟩
def LC_STATUS_ERASED : Fld := ⟨LC_STATUS, 5, 1⟩
def LC_STATUS_REASON : Fld := ⟨LC_STATUS, 8, 4⟩
def LC_STATUS_KEYS : Fld := ⟨LC_STATUS, 12, 3⟩
def LC_STATUS_PLAN_KEY : Fld := ⟨LC_STATUS, 15, 1⟩
def LC_STATUS_NONCE_VALID : Fld := ⟨LC_STATUS, 16, 1⟩
def LC_EVENT : Nat := 0xf0008
def LC_EVENT_DONE : Fld := ⟨LC_EVENT, 0, 1⟩
def LC_EVENT_REJ : Fld := ⟨LC_EVENT, 1, 1⟩
def LC_EVENT_ERASE_DONE : Fld := ⟨LC_EVENT, 2, 1⟩
def LC_EVENT_DBG_AUTH : Fld := ⟨LC_EVENT, 3, 1⟩
def LC_EVENT_DBG_FAIL : Fld := ⟨LC_EVENT, 4, 1⟩
def LC_EVENT_JTAG_REJ : Fld := ⟨LC_EVENT, 5, 1⟩
def LC_EVENT_FUSE_DONE : Fld := ⟨LC_EVENT, 6, 1⟩
def LC_EVENT_FUSE_REJ : Fld := ⟨LC_EVENT, 7, 1⟩
def LC_ARG (i : Nat) : Nat := 0xf0040 + 0x4 * i
def LC_ARG_ARG (i : Nat) : Fld := ⟨LC_ARG i, 0, 32⟩
def LC_NONCE (i : Nat) : Nat := 0xf0120 + 0x4 * i
def LC_NONCE_NONCE (i : Nat) : Fld := ⟨LC_NONCE i, 0, 32⟩
def LC_TOKEN (i : Nat) : Nat := 0xf0160 + 0x4 * i
def LC_TOKEN_TOKEN (i : Nat) : Fld := ⟨LC_TOKEN i, 0, 32⟩
def LC_FUSE_ADDR : Nat := 0xf01c0
def LC_FUSE_ADDR_WORD : Fld := ⟨LC_FUSE_ADDR, 0, 9⟩
def LC_FUSE_DATA : Nat := 0xf01c4
def LC_FUSE_DATA_DATA : Fld := ⟨LC_FUSE_DATA, 0, 32⟩
def LC_FUSE_CMD : Nat := 0xf01c8
def LC_FUSE_CMD_CMD : Fld := ⟨LC_FUSE_CMD, 0, 2⟩
def LC_DBG_STATUS : Nat := 0xf01cc
def LC_DBG_STATUS_LEVEL : Fld := ⟨LC_DBG_STATUS, 0, 2⟩
def LC_DBG_STATUS_SCANNING : Fld := ⟨LC_DBG_STATUS, 2, 1⟩
def LC_DBG_STATUS_FAILS : Fld := ⟨LC_DBG_STATUS, 8, 8⟩
def LC_IDCODE : Nat := 0xf01d0
def LC_IDCODE_IDCODE : Fld := ⟨LC_IDCODE, 0, 32⟩
def DEV_ID : Nat := 0x0
def DEV_ID_PART : Fld := ⟨DEV_ID, 0, 16⟩
def DEV_ID_VARIANT : Fld := ⟨DEV_ID, 16, 2⟩
def DEV_ID_MAJOR : Fld := ⟨DEV_ID, 20, 4⟩
def DEV_ID_MINOR : Fld := ⟨DEV_ID, 24, 4⟩
def DEV_SERIAL : Nat := 0x4
def DEV_SERIAL_SERIAL : Fld := ⟨DEV_SERIAL, 0, 32⟩
def DEV_IDENT : Nat := 0x8
def DEV_IDENT_VENDOR : Fld := ⟨DEV_IDENT, 0, 16⟩
def DEV_IDENT_DEVICE : Fld := ⟨DEV_IDENT, 16, 16⟩
def DEV_LIMITS : Nat := 0xc
def DEV_LIMITS_STRANDS : Fld := ⟨DEV_LIMITS, 0, 11⟩
def DEV_LIMITS_SPOKES : Fld := ⟨DEV_LIMITS, 11, 9⟩
def DEV_LIMITS_BASKETS : Fld := ⟨DEV_LIMITS, 20, 7⟩
def DEV_LIMITS_WEFT_GROUPS : Fld := ⟨DEV_LIMITS, 27, 4⟩
def DEV_BLK_EN : Nat := 0x10
def DEV_BLK_EN_DEV : Fld := ⟨DEV_BLK_EN, 0, 1⟩
def DEV_BLK_EN_EN : Fld := ⟨DEV_BLK_EN, 1, 15⟩
def DEV_BLK_VIEW : Nat := 0x14
def DEV_BLK_VIEW_EN : Fld := ⟨DEV_BLK_VIEW, 0, 16⟩
def DEV_FUNC (m : Nat) : Nat := 0x30000018 + 0x1000 * m
def DEV_FUNC_MASTER (m : Nat) : Fld := ⟨DEV_FUNC m, 0, 7⟩
def DEV_FUNC_BASKET (m : Nat) : Fld := ⟨DEV_FUNC m, 8, 6⟩
def DEV_FUNC_KEEPER (m : Nat) : Fld := ⟨DEV_FUNC m, 15, 1⟩
def DEV_IND_ADDR (m : Nat) : Nat := 0x30000020 + 0x1000 * m
def DEV_IND_ADDR_ZERO (m : Nat) : Fld := ⟨DEV_IND_ADDR m, 0, 2⟩
def DEV_IND_ADDR_ADDR (m : Nat) : Fld := ⟨DEV_IND_ADDR m, 2, 30⟩
def DEV_IND_STATUS (m : Nat) : Nat := 0x30000024 + 0x1000 * m
def DEV_IND_STATUS_PARTIAL (m : Nat) : Fld := ⟨DEV_IND_STATUS m, 0, 1⟩
def DEV_IND_PART_ADDR (m : Nat) : Nat := 0x30000028 + 0x1000 * m
def DEV_IND_PART_ADDR_ADDR (m : Nat) : Fld := ⟨DEV_IND_PART_ADDR m, 0, 32⟩
def DEV_IND_DATA (m : Nat) : Nat := 0x30000030 + 0x1000 * m
def DEV_IND_DATA_DATA (m : Nat) : Fld := ⟨DEV_IND_DATA m, 0, 32⟩
def DEV_IND_DATA2 (m : Nat) : Nat := 0x30000034 + 0x1000 * m
def DEV_IND_DATA2_DATA (m : Nat) : Fld := ⟨DEV_IND_DATA2 m, 0, 32⟩
def DEV_SNAP_CMD (m : Nat) : Nat := 0x30000040 + 0x1000 * m
def DEV_SNAP_CMD_CODE (m : Nat) : Fld := ⟨DEV_SNAP_CMD m, 0, 2⟩
def DEV_SNAP_CMD_SCOPE (m : Nat) : Fld := ⟨DEV_SNAP_CMD m, 2, 1⟩
def DEV_SNAP_CMD_BASKET (m : Nat) : Fld := ⟨DEV_SNAP_CMD m, 8, 6⟩
def DEV_SNAP_STATUS (m : Nat) : Nat := 0x30000044 + 0x1000 * m
def DEV_SNAP_STATUS_DONE (m : Nat) : Fld := ⟨DEV_SNAP_STATUS m, 0, 1⟩
def DEV_SNAP_STATUS_REJ (m : Nat) : Fld := ⟨DEV_SNAP_STATUS m, 1, 1⟩
def DEV_SNAP_STATUS_HOLD (m : Nat) : Fld := ⟨DEV_SNAP_STATUS m, 2, 1⟩
def DEV_SNAP_STATUS_SCOPE (m : Nat) : Fld := ⟨DEV_SNAP_STATUS m, 3, 1⟩
def DEV_SNAP_STATUS_BASKET (m : Nat) : Fld := ⟨DEV_SNAP_STATUS m, 8, 6⟩
def DEV_SNAP_TALLY0 (m : Nat) : Nat := 0x30000048 + 0x1000 * m
def DEV_SNAP_TALLY0_TALLY (m : Nat) : Fld := ⟨DEV_SNAP_TALLY0 m, 0, 32⟩
def DEV_SNAP_TALLY1 (m : Nat) : Nat := 0x3000004c + 0x1000 * m
def DEV_SNAP_TALLY1_TALLY (m : Nat) : Fld := ⟨DEV_SNAP_TALLY1 m, 0, 32⟩
def DEV_SNAP_TALLY2 (m : Nat) : Nat := 0x30000050 + 0x1000 * m
def DEV_SNAP_TALLY2_TALLY (m : Nat) : Fld := ⟨DEV_SNAP_TALLY2 m, 0, 32⟩
def DEV_CFG_REJ (m : Nat) : Nat := 0x30000060 + 0x1000 * m
def DEV_CFG_REJ_FLAG (m : Nat) : Fld := ⟨DEV_CFG_REJ m, 0, 1⟩
def DEV_CFG_REJ_VIA_IND (m : Nat) : Fld := ⟨DEV_CFG_REJ m, 1, 1⟩
def DEV_CFG_REJ_ADDR (m : Nat) : Nat := 0x30000064 + 0x1000 * m
def DEV_CFG_REJ_ADDR_ADDR (m : Nat) : Fld := ⟨DEV_CFG_REJ_ADDR m, 0, 32⟩
def DEV_VF_QAP_BASE (m : Nat) : Nat := 0x30000070 + 0x1000 * m
def DEV_VF_QAP_BASE_BASE (m : Nat) : Fld := ⟨DEV_VF_QAP_BASE m, 0, 12⟩
def DEV_VF_PAP_BASE (m : Nat) : Nat := 0x30000074 + 0x1000 * m
def DEV_VF_PAP_BASE_BASE (m : Nat) : Fld := ⟨DEV_VF_PAP_BASE m, 0, 13⟩
def DEV_CPL_EVT (m : Nat) (i : Nat) : Nat := 0x30000080 + 0x1000 * m + 0x4 * i
def DEV_CPL_EVT_EVT (m : Nat) (i : Nat) : Fld := ⟨DEV_CPL_EVT m i, 0, 32⟩
def DEV_IRQ_MAP (s : Nat) : Nat := 0x100 + 0x4 * s
def DEV_IRQ_MAP_VECTOR (s : Nat) : Fld := ⟨DEV_IRQ_MAP s, 0, 8⟩

end Sys2Proof.Machine
end

