-- ==== Sys2Proof/Machine/RegTable.lean ====
section
/-! DEFINITION. Each register's reset value and access codes as the spec's register tables give them (R14, R17), looked up by address. -/

namespace Sys2Proof.Machine

/-- One row of a register table: where its copies lie (two strides), its reset value, and which bits are RW, RWS, W1C, WO, keeper-only and reserved. -/
structure RegRow where
  base : Nat
  st1 : Nat
  n1 : Nat
  st2 : Nat
  n2 : Nat
  reset : Nat
  rw : Nat
  rws : Nat
  w1c : Nat
  wo : Nat
  kp : Nat
  rsvl : Nat
deriving DecidableEq, Repr

def regRows0 : List RegRow := [
  ⟨0x10000, 0x0, 1, 0x0, 1, 0xa370000, 0xffff00ff, 0x0, 0x0, 0x0, 0xffff00ff, 0xff00⟩,
  ⟨0x10004, 0x0, 1, 0x0, 1, 0x30, 0x0, 0x0, 0x0, 0x0, 0x0, 0xff08⟩,
  ⟨0x10008, 0x0, 1, 0x0, 1, 0x0, 0x0, 0x0, 0x0, 0x0, 0x0, 0xf8c0c0c0⟩,
  ⟨0x1000c, 0x0, 1, 0x0, 1, 0x0, 0x0, 0x0, 0xffff, 0x0, 0x0, 0xffff0000⟩,
  ⟨0x10010, 0x0, 1, 0x0, 1, 0x5f5e100, 0x0, 0xffffffff, 0x0, 0x0, 0xffffffff, 0x0⟩,
  ⟨0x10014, 0x0, 1, 0x0, 1, 0x0, 0x3fff, 0x0, 0x0, 0x0, 0x3fff, 0xffffc000⟩,
  ⟨0x10018, 0x0, 1, 0x0, 1, 0x2832, 0x1ffff, 0x0, 0x0, 0x0, 0x1ffff, 0xfffe0000⟩,
  ⟨0x1001c, 0x0, 1, 0x0, 1, 0x5dc0000, 0x3fff3fff, 0x0, 0x0, 0x0, 0x3fff3fff, 0xc000c000⟩,
  ⟨0x10020, 0x0, 1, 0x0, 1, 0x80000000, 0x0, 0x0, 0x0, 0x0, 0x0, 0x0⟩,
  ⟨0x10024, 0x0, 1, 0x0, 1, 0x80000000, 0x0, 0x0, 0x0, 0x0, 0x0, 0x0⟩,
  ⟨0x10028, 0x0, 1, 0x0, 1, 0x80000000, 0x0, 0x0, 0x0, 0x0, 0x0, 0x0⟩,
  ⟨0x1002c, 0x0, 1, 0x0, 1, 0x0, 0x0, 0x0, 0x0, 0x0, 0x0, 0x0⟩,
  ⟨0x10030, 0x0, 1, 0x0, 1, 0x0, 0x0, 0x0, 0x0, 0x0, 0x0, 0x0⟩,
  ⟨0x10034, 0x0, 1, 0x0, 1, 0x0, 0x0, 0x0, 0x0, 0xf, 0xf, 0xfffffff0⟩,
  ⟨0x20000, 0x0, 1, 0x0, 1, 0xf0000, 0x0, 0x0, 0x0, 0x0, 0x0, 0xfff00000⟩,
  ⟨0x20004, 0x0, 1, 0x0, 1, 0x0, 0x0, 0x0, 0x0, 0x0, 0x0, 0xfff00000⟩,
  ⟨0x20008, 0x0, 1, 0x0, 1, 0x64040a, 0xfff07ff, 0x0, 0x0, 0x0, 0xfff07ff, 0xf000f800⟩,
  ⟨0x2000c, 0x0, 1, 0x0, 1, 0x0, 0x0, 0x0, 0x0, 0x800001ff, 0x800001ff, 0x7ffffe00⟩,
  ⟨0x20010, 0x0, 1, 0x0, 1, 0x0, 0x0, 0x0, 0x0, 0x0, 0x0, 0xff80e00c⟩,
  ⟨0x20100, 0x20, 16, 0x0, 1, 0x51, 0x7fc, 0x3, 0x0, 0x0, 0x7ff, 0xfffff800⟩,
  ⟨0x20104, 0x20, 16, 0x0, 1, 0x0, 0x0, 0x0, 0x0, 0x0, 0x0, 0x0⟩,
  ⟨0x20108, 0x20, 16, 0x0, 1, 0x0, 0x0, 0x0, 0x0, 0x0, 0x0, 0xfffffff0⟩,
  ⟨0x2010c, 0x20, 16, 0x0, 1, 0x0, 0x0, 0x0, 0x0, 0x0, 0x0, 0x80000008⟩,
  ⟨0x20110, 0x20, 16, 0x0, 1, 0x0, 0x0, 0x0, 0x0, 0x0, 0x0, 0xff000000⟩,
  ⟨0x20114, 0x20, 16, 0x0, 1, 0x0, 0x0, 0x0, 0x1ff, 0x0, 0x0, 0xfffffe00⟩,
  ⟨0x30000, 0x0, 1, 0x0, 1, 0xa0e0450, 0xff001fff, 0xff0000, 0x0, 0x0, 0xffff1fff, 0xe000⟩,
  ⟨0x30004, 0x0, 1, 0x0, 1, 0x30, 0x0, 0x0, 0x0, 0x0, 0x0, 0x8008⟩,
  ⟨0x30008, 0x0, 1, 0x0, 1, 0x282832, 0xfffffff, 0x0, 0x0, 0x0, 0xfffffff, 0xf0000000⟩,
  ⟨0x30010, 0x0, 1, 0x0, 1, 0x0, 0x0, 0x0, 0x0, 0x0, 0x0, 0x0⟩,
  ⟨0x30014, 0x0, 1, 0x0, 1, 0x0, 0x0, 0x0, 0x0, 0x0, 0x0, 0x0⟩,
  ⟨0x30018, 0x0, 1, 0x0, 1, 0x0, 0x0, 0x0, 0x0, 0x0, 0x0, 0x0⟩,
  ⟨0x3001c, 0x0, 1, 0x0, 1, 0x80000000, 0x0, 0x0, 0x0, 0x0, 0x0, 0x0⟩,
  ⟨0x30020, 0x0, 1, 0x0, 1, 0x80000000, 0x0, 0x0, 0x0, 0x0, 0x0, 0x0⟩,
  ⟨0x30024, 0x0, 1, 0x0, 1, 0x0, 0x0, 0x0, 0x0, 0x0, 0x0, 0x0⟩,
  ⟨0x30028, 0x0, 1, 0x0, 1, 0x0, 0x0, 0x0, 0x0, 0x0, 0x0, 0x0⟩,
  ⟨0x3002c, 0x0, 1, 0x0, 1, 0x0, 0x0, 0x0, 0x0, 0x0, 0x0, 0x0⟩,
  ⟨0x30030, 0x0, 1, 0x0, 1, 0x0, 0xffffffff, 0x0, 0x0, 0x0, 0xffffffff, 0x0⟩,
  ⟨0x30034, 0x0, 1, 0x0, 1, 0x0, 0xffffffff, 0x0, 0x0, 0x0, 0xffffffff, 0x0⟩,
  ⟨0x30038, 0x0, 1, 0x0, 1, 0x0, 0x0, 0x0, 0xffff, 0x0, 0x0, 0xffff0000⟩,
  ⟨0x3003c, 0x0, 1, 0x0, 1, 0x0, 0x0, 0x0, 0x0, 0xf, 0xf, 0xfffffff0⟩]

def regRows1 : List RegRow := [
  ⟨0x30040, 0x0, 1, 0x0, 1, 0x0, 0x0, 0x0, 0x0, 0x0, 0x0, 0xc000c000⟩,
  ⟨0x30044, 0x0, 1, 0x0, 1, 0x0, 0x0, 0x0, 0x0, 0x0, 0x0, 0x0⟩,
  ⟨0x30048, 0x0, 1, 0x0, 1, 0x0, 0x0, 0x0, 0x0, 0x0, 0x0, 0x0⟩,
  ⟨0x30100, 0x4, 96, 0x0, 1, 0x0, 0x0, 0x0, 0x0, 0x0, 0x0, 0x0⟩,
  ⟨0x30300, 0x4, 96, 0x0, 1, 0x0, 0xffffffff, 0x0, 0x0, 0x0, 0xffffffff, 0x0⟩,
  ⟨0x40000, 0x0, 1, 0x0, 1, 0x0, 0x0, 0x0, 0x0, 0x7f3ff, 0x0, 0xfff80c00⟩,
  ⟨0x40004, 0x0, 1, 0x0, 1, 0x0, 0x0, 0x0, 0x3, 0x0, 0x0, 0xfffffffc⟩,
  ⟨0x40100, 0x4, 32, 0x0, 1, 0x0, 0x0, 0x0, 0x0, 0x0, 0x0, 0x0⟩,
  ⟨0x40180, 0x4, 32, 0x0, 1, 0x0, 0x0, 0x0, 0x0, 0x0, 0x0, 0x0⟩,
  ⟨0x40200, 0x4, 32, 0x0, 1, 0x0, 0x0, 0x0, 0x0, 0x0, 0x0, 0x0⟩,
  ⟨0x40280, 0x4, 32, 0x0, 1, 0x0, 0x0, 0x0, 0xffffffff, 0x0, 0x0, 0x0⟩,
  ⟨0x1000000, 0x100, 1024, 0x0, 1, 0x0, 0x0, 0x0, 0x0, 0x0, 0x0, 0x0⟩,
  ⟨0x1000004, 0x100, 1024, 0x0, 1, 0x0, 0x0, 0x0, 0x0, 0x0, 0x0, 0x0⟩,
  ⟨0x1000008, 0x100, 1024, 0x0, 1, 0x0, 0x0, 0x0, 0x0, 0x0, 0x0, 0x0⟩,
  ⟨0x100000c, 0x100, 1024, 0x0, 1, 0x0, 0x0, 0x0, 0x0, 0x0, 0x0, 0x0⟩,
  ⟨0x1000010, 0x100, 1024, 0x0, 1, 0x0, 0x0, 0x0, 0x0, 0x0, 0x0, 0x0⟩,
  ⟨0x1000014, 0x100, 1024, 0x0, 1, 0x0, 0x0, 0x0, 0x0, 0x0, 0x0, 0xff00ff00⟩,
  ⟨0x1000018, 0x100, 1024, 0x0, 1, 0x0, 0x0, 0x0, 0x0, 0x0, 0x0, 0x0⟩,
  ⟨0x1000020, 0x100, 1024, 0x0, 1, 0x0, 0x0, 0x0, 0x0, 0x0, 0x0, 0x0⟩,
  ⟨0x1000024, 0x100, 1024, 0x0, 1, 0x0, 0x0, 0x0, 0x0, 0x0, 0x0, 0x0⟩,
  ⟨0x1000028, 0x100, 1024, 0x0, 1, 0x0, 0x0, 0x0, 0x0, 0x0, 0x0, 0xff00e000⟩,
  ⟨0x100002c, 0x100, 1024, 0x0, 1, 0x0, 0x0, 0x0, 0x0, 0x0, 0x0, 0x0⟩,
  ⟨0x1000030, 0x100, 1024, 0x0, 1, 0x0, 0x0, 0x0, 0x0, 0x0, 0x0, 0x0⟩,
  ⟨0x1000034, 0x100, 1024, 0x0, 1, 0x0, 0x0, 0x0, 0x0, 0x0, 0x0, 0xfffc0000⟩,
  ⟨0x1000038, 0x100, 1024, 0x0, 1, 0x0, 0x0, 0x0, 0x8, 0x0, 0x0, 0xf800c000⟩,
  ⟨0x100003c, 0x100, 1024, 0x0, 1, 0x0, 0x0, 0x0, 0x0, 0x0, 0x0, 0xe0000000⟩,
  ⟨0x1000040, 0x100, 1024, 0x0, 1, 0x0, 0x0, 0x0, 0x0, 0x0, 0x0, 0x0⟩,
  ⟨0x1000080, 0x100, 1024, 0x20, 4, 0x0, 0x0, 0x0, 0x0, 0x0, 0x0, 0x7ff00000⟩,
  ⟨0x1000084, 0x100, 1024, 0x20, 4, 0x0, 0x0, 0x0, 0x0, 0x0, 0x0, 0x0⟩,
  ⟨0x1000088, 0x100, 1024, 0x20, 4, 0x0, 0x0, 0x0, 0x0, 0x0, 0x0, 0x0⟩,
  ⟨0x100008c, 0x100, 1024, 0x20, 4, 0x0, 0x0, 0x0, 0x0, 0x0, 0x0, 0xffffe000⟩,
  ⟨0x1000090, 0x100, 1024, 0x20, 4, 0x0, 0x0, 0x0, 0x0, 0x0, 0x0, 0x0⟩,
  ⟨0x1000094, 0x100, 1024, 0x20, 4, 0x0, 0x0, 0x0, 0x0, 0x0, 0x0, 0x0⟩,
  ⟨0x50000, 0x0, 1, 0x0, 1, 0x32280a40, 0xffffff7f, 0x0, 0x0, 0x0, 0xffffff7f, 0x80⟩,
  ⟨0x50004, 0x0, 1, 0x0, 1, 0x5, 0x7, 0x0, 0x0, 0x0, 0x7, 0xfffffff8⟩,
  ⟨0x50008, 0x0, 1, 0x0, 1, 0x0, 0x0, 0x0, 0x0, 0x800003ff, 0x800003ff, 0x7ffffc00⟩,
  ⟨0x5000c, 0x0, 1, 0x0, 1, 0x0, 0x0, 0x0, 0x0, 0x0, 0x0, 0xfffff000⟩,
  ⟨0x50100, 0x20, 64, 0x0, 1, 0x0, 0x0, 0x0, 0x0, 0x0, 0x0, 0x7fe0c0f0⟩,
  ⟨0x50104, 0x20, 64, 0x0, 1, 0x0, 0x0, 0x0, 0x0, 0x0, 0x0, 0xffffff0c⟩,
  ⟨0x50108, 0x20, 64, 0x0, 1, 0x0, 0x0, 0x0, 0x0, 0x0, 0x0, 0xfffe0000⟩]

def regRows2 : List RegRow := [
  ⟨0x5010c, 0x20, 64, 0x0, 1, 0x0, 0x0, 0x0, 0x0, 0x0, 0x0, 0xe0⟩,
  ⟨0x50110, 0x20, 64, 0x0, 1, 0x0, 0x0, 0x0, 0x3f, 0x0, 0x0, 0xffffffc0⟩,
  ⟨0x60000, 0x0, 1, 0x0, 1, 0x0, 0x0, 0x0, 0x0, 0x800003ff, 0x800003ff, 0x7ffffc00⟩,
  ⟨0x60004, 0x0, 1, 0x0, 1, 0x0, 0x0, 0x0, 0x1, 0x0, 0x0, 0xfffffffe⟩,
  ⟨0x60040, 0x4, 8, 0x0, 1, 0xffffffff, 0x0, 0x0, 0x0, 0x0, 0x0, 0x0⟩,
  ⟨0x60060, 0x4, 8, 0x0, 1, 0x0, 0x0, 0x0, 0xffffffff, 0x0, 0x0, 0x0⟩,
  ⟨0x60080, 0x4, 8, 0x0, 1, 0x0, 0x0, 0x0, 0xffffffff, 0x0, 0x0, 0x0⟩,
  ⟨0x60100, 0x10, 256, 0x0, 1, 0x0, 0xfe00, 0x0, 0x0, 0x0, 0x0, 0xffc00000⟩,
  ⟨0x60104, 0x10, 256, 0x0, 1, 0x2000, 0x0, 0x0, 0x0, 0x0, 0x0, 0xff0008⟩,
  ⟨0x70000, 0x0, 1, 0x0, 1, 0x0, 0x0, 0x0, 0x0, 0xfff, 0x0, 0xfffff000⟩,
  ⟨0x70004, 0x0, 1, 0x0, 1, 0x0, 0x0, 0x0, 0x3, 0x0, 0x0, 0xfffffffc⟩,
  ⟨0x70040, 0x4, 8, 0x0, 1, 0x0, 0x0, 0x0, 0xffffffff, 0x0, 0x0, 0x0⟩,
  ⟨0x70060, 0x4, 8, 0x0, 1, 0x0, 0x0, 0x0, 0x0, 0x0, 0x0, 0x0⟩,
  ⟨0x70100, 0x20, 256, 0x0, 1, 0xc0040, 0x1ffff7f, 0x0, 0x0, 0x0, 0x0, 0x80⟩,
  ⟨0x70104, 0x20, 256, 0x0, 1, 0x1000, 0xffffff, 0x0, 0x0, 0x0, 0x0, 0xff000000⟩,
  ⟨0x70108, 0x20, 256, 0x0, 1, 0x80000000, 0xffffffff, 0x0, 0x0, 0x0, 0x0, 0x0⟩,
  ⟨0x7010c, 0x20, 256, 0x0, 1, 0x0, 0xffffffff, 0x0, 0x0, 0x0, 0x0, 0x0⟩,
  ⟨0x70110, 0x20, 256, 0x0, 1, 0x64, 0xffff, 0x0, 0x0, 0x0, 0x0, 0xffff0000⟩,
  ⟨0x70114, 0x20, 256, 0x0, 1, 0x0, 0x0, 0x0, 0x0, 0x0, 0x0, 0xffe0⟩,
  ⟨0x70118, 0x20, 256, 0x0, 1, 0x0, 0x0, 0x0, 0x0, 0x0, 0x0, 0xfffffc00⟩,
  ⟨0x7011c, 0x20, 256, 0x0, 1, 0x0, 0x3ff, 0x0, 0x0, 0x0, 0x0, 0xfffffc00⟩,
  ⟨0x80000, 0x0, 1, 0x0, 1, 0x0, 0x0, 0x0, 0x0, 0xffffffff, 0x0, 0x0⟩,
  ⟨0x38000804, 0x1000, 66, 0x0, 1, 0x0, 0x0, 0x0, 0x1f, 0x0, 0x0, 0xffffffe0⟩,
  ⟨0x80008, 0x0, 1, 0x0, 1, 0x0, 0x0, 0x0, 0x0, 0x0, 0x3ffffff, 0xfc000000⟩,
  ⟨0x80010, 0x4, 2, 0x0, 1, 0x0, 0x0, 0x0, 0x0, 0x0, 0xffffffff, 0x0⟩,
  ⟨0x80018, 0x0, 1, 0x0, 1, 0x0, 0x1fff0000, 0x0, 0x0, 0x0, 0x1fff1fff, 0xe000e000⟩,
  ⟨0x81000, 0x40, 64, 0x0, 1, 0x0, 0x0, 0x0, 0x0, 0x0, 0x0, 0x0⟩,
  ⟨0x81004, 0x40, 64, 0x0, 1, 0x0, 0x0, 0x0, 0x0, 0x0, 0x0, 0x0⟩,
  ⟨0x81008, 0x40, 64, 0x0, 1, 0x0, 0x0, 0x0, 0x0, 0x0, 0x0, 0x0⟩,
  ⟨0x8100c, 0x40, 64, 0x0, 1, 0x0, 0x0, 0x0, 0x0, 0x0, 0x0, 0xfc000000⟩,
  ⟨0x81010, 0x40, 64, 0x0, 1, 0x0, 0x1fff, 0x0, 0x0, 0x0, 0x0, 0xffffe000⟩,
  ⟨0x81014, 0x40, 64, 0x0, 1, 0x0, 0x0, 0x0, 0x0, 0x0, 0x0, 0x0⟩,
  ⟨0x81018, 0x40, 64, 0x0, 1, 0x0, 0x0, 0x0, 0x0, 0x0, 0x0, 0xff000000⟩,
  ⟨0x8101c, 0x40, 64, 0x0, 1, 0x0, 0x0, 0x0, 0x0, 0x0, 0x0, 0xffff8000⟩,
  ⟨0x2000000, 0x40, 32768, 0x0, 1, 0x0, 0x0, 0x0, 0x0, 0x0, 0x0, 0xfff00000⟩,
  ⟨0x2000004, 0x40, 32768, 0x0, 1, 0x0, 0x0, 0x0, 0x0, 0x0, 0x0, 0xffff0000⟩,
  ⟨0x2000008, 0x40, 32768, 0x0, 1, 0x0, 0x0, 0x0, 0x0, 0x0, 0x0, 0xfffe0000⟩,
  ⟨0x200000c, 0x40, 32768, 0x0, 1, 0x0, 0x0, 0x0, 0x0, 0x0, 0x0, 0xfffe0000⟩,
  ⟨0x2000010, 0x40, 32768, 0x8, 6, 0x0, 0x0, 0x0, 0x0, 0x0, 0x0, 0xfe000000⟩,
  ⟨0x2000014, 0x40, 32768, 0x8, 6, 0x0, 0x0, 0x0, 0x0, 0x0, 0x0, 0x0⟩]

def regRows3 : List RegRow := [
  ⟨0x90000, 0x0, 1, 0x0, 1, 0x0, 0x0, 0x0, 0x0, 0xf7f, 0xf7f, 0xfffff080⟩,
  ⟨0x38000904, 0x1000, 66, 0x0, 1, 0x0, 0x0, 0x0, 0xf, 0x0, 0x0, 0xfffffff0⟩,
  ⟨0x90008, 0x0, 1, 0x0, 1, 0xa0a0a14, 0xffffffff, 0x0, 0x0, 0x0, 0xffffffff, 0x0⟩,
  ⟨0x90040, 0x4, 3, 0x0, 1, 0x0, 0x0, 0x0, 0x0, 0x0, 0x0, 0x0⟩,
  ⟨0x90050, 0x4, 3, 0x0, 1, 0x0, 0x0, 0x0, 0xffffffff, 0x0, 0x0, 0x0⟩,
  ⟨0x90060, 0x4, 3, 0x0, 1, 0x0, 0x0, 0x0, 0xffffffff, 0x0, 0x0, 0x0⟩,
  ⟨0x38000980, 0x1000, 66, 0x0, 1, 0x0, 0x0, 0x0, 0x0, 0x8000007f, 0x0, 0x7fffff80⟩,
  ⟨0x38000984, 0x1000, 66, 0x0, 1, 0x0, 0xffffffff, 0x0, 0x0, 0x0, 0x0, 0x0⟩,
  ⟨0x38000988, 0x1000, 66, 0x0, 1, 0x0, 0xffffffff, 0x0, 0x0, 0x0, 0x0, 0x0⟩,
  ⟨0x3800098c, 0x1000, 66, 0x0, 1, 0x0, 0x0, 0x0, 0x10000e, 0x0, 0x0, 0xffe00000⟩,
  ⟨0x38000990, 0x1000, 66, 0x0, 1, 0x0, 0x0, 0x0, 0x0, 0x0, 0x0, 0x0⟩,
  ⟨0x38000994, 0x1000, 66, 0x0, 1, 0x0, 0x0, 0x0, 0x0, 0x0, 0x0, 0x0⟩,
  ⟨0x38000998, 0x1000, 66, 0x0, 1, 0x0, 0x0, 0x0, 0x80, 0x0, 0x0, 0xffffff00⟩,
  ⟨0x90100, 0x20, 108, 0x0, 1, 0x0, 0x0, 0x0, 0x0, 0x0, 0x0, 0xfc80f800⟩,
  ⟨0x90104, 0x20, 108, 0x0, 1, 0x0, 0x0, 0x0, 0x0, 0x0, 0x0, 0xfffff800⟩,
  ⟨0x90108, 0x20, 108, 0x0, 1, 0x0, 0x0, 0x0, 0x0, 0x0, 0x0, 0x0⟩,
  ⟨0x9010c, 0x20, 108, 0x0, 1, 0x0, 0x0, 0x0, 0x0, 0x0, 0x0, 0x0⟩,
  ⟨0x90110, 0x20, 108, 0x0, 1, 0x0, 0x0, 0x0, 0x0, 0x0, 0x0, 0x0⟩,
  ⟨0x90114, 0x20, 108, 0x0, 1, 0x0, 0x0, 0x0, 0x0, 0x0, 0x0, 0x0⟩,
  ⟨0x90118, 0x20, 108, 0x0, 1, 0x0, 0x0, 0x0, 0x0, 0x0, 0x0, 0x0⟩,
  ⟨0x9011c, 0x20, 108, 0x0, 1, 0x0, 0x0, 0x0, 0x0, 0x0, 0x0, 0xfffffe00⟩,
  ⟨0x91000, 0x20, 96, 0x0, 1, 0x0, 0x0, 0x0, 0x0, 0x0, 0x0, 0xc080f000⟩,
  ⟨0x91004, 0x20, 96, 0x0, 1, 0x0, 0x0, 0x0, 0x0, 0x0, 0x0, 0x0⟩,
  ⟨0x91008, 0x20, 96, 0x0, 1, 0x0, 0x0, 0x0, 0x0, 0x0, 0x0, 0x0⟩,
  ⟨0x9100c, 0x20, 96, 0x0, 1, 0x0, 0x0, 0x0, 0x0, 0x0, 0x0, 0xfffc0000⟩,
  ⟨0x91010, 0x20, 96, 0x0, 1, 0x0, 0x0, 0x0, 0x0, 0x0, 0x0, 0x0⟩,
  ⟨0x91014, 0x20, 96, 0x0, 1, 0x0, 0x0, 0x0, 0x0, 0x0, 0x0, 0x0⟩,
  ⟨0xa0000, 0x0, 1, 0x0, 1, 0x0, 0x0, 0x0, 0x0, 0xf, 0xf, 0xfffffff0⟩,
  ⟨0xa0004, 0x0, 1, 0x0, 1, 0x0, 0x0, 0x0, 0x0, 0x0, 0x0, 0xff000008⟩,
  ⟨0xa0008, 0x0, 1, 0x0, 1, 0x0, 0x0, 0x0, 0x0, 0x0, 0x0, 0x0⟩,
  ⟨0xa000c, 0x0, 1, 0x0, 1, 0x0, 0x0, 0x0, 0x0, 0x0, 0x0, 0xfff00000⟩,
  ⟨0xa0010, 0x0, 1, 0x0, 1, 0xa, 0xff, 0x0, 0x0, 0x0, 0xff, 0xffffff00⟩,
  ⟨0xa0014, 0x0, 1, 0x0, 1, 0x0, 0x0, 0x0, 0x0, 0x0, 0x0, 0x0⟩,
  ⟨0xa0018, 0x0, 1, 0x0, 1, 0x0, 0x0, 0x0, 0x0, 0x0, 0x0, 0x0⟩,
  ⟨0xa001c, 0x0, 1, 0x0, 1, 0x0, 0x0, 0x0, 0x0, 0x0, 0xffffffff, 0x0⟩,
  ⟨0xa0020, 0x0, 1, 0x0, 1, 0x0, 0x0, 0x0, 0x1ff, 0x0, 0x0, 0xfffffe00⟩,
  ⟨0xa0024, 0x0, 1, 0x0, 1, 0x0, 0x0, 0x0, 0x0, 0x0, 0x0, 0xffff00c0⟩,
  ⟨0xa0100, 0x4, 64, 0x0, 1, 0x0, 0x0, 0x0, 0x0, 0x0, 0x0, 0x0⟩,
  ⟨0xb0000, 0x0, 1, 0x0, 1, 0x0, 0x0, 0x0, 0x0, 0xf3f, 0xf3f, 0xfffff0c0⟩,
  ⟨0xb0004, 0x0, 1, 0x0, 1, 0x0, 0x0, 0x0, 0xf, 0x0, 0x0, 0xfffffff0⟩]

def regRows4 : List RegRow := [
  ⟨0xb0008, 0x0, 1, 0x0, 1, 0x0, 0x0, 0x0, 0x0, 0x3f, 0x0, 0xffffffc0⟩,
  ⟨0xb000c, 0x0, 1, 0x0, 1, 0x0, 0x0, 0x0, 0x0, 0x0, 0x0, 0xe0⟩,
  ⟨0xb0040, 0x4, 12, 0x0, 1, 0x0, 0x0, 0x0, 0x0, 0x0, 0x0, 0x0⟩,
  ⟨0xb0080, 0x4, 24, 0x0, 1, 0x0, 0x0, 0x0, 0x0, 0xffffffff, 0x0, 0x0⟩,
  ⟨0xb0100, 0x4, 16, 0x0, 1, 0x0, 0x0, 0x0, 0x0, 0x0, 0x0, 0xffff8000⟩,
  ⟨0xb0200, 0x4, 66, 0x0, 1, 0x0, 0x0, 0x0, 0x0, 0x0, 0xffffffff, 0x0⟩,
  ⟨0xb0340, 0x4, 3, 0x0, 1, 0x0, 0x0, 0x0, 0xffffffff, 0x0, 0xffffffff, 0x0⟩,
  ⟨0xb1000, 0x40, 64, 0x0, 1, 0x0, 0x0, 0x0, 0x0, 0x0, 0x0, 0xff80e0f0⟩,
  ⟨0xb1004, 0x40, 64, 0x0, 1, 0x0, 0x0, 0x0, 0x0, 0x0, 0x0, 0xfffffff8⟩,
  ⟨0xb1008, 0x40, 64, 0x4, 3, 0x0, 0x0, 0x0, 0x0, 0x0, 0x0, 0x0⟩,
  ⟨0xb1014, 0x40, 64, 0x0, 1, 0x0, 0x0, 0x0, 0x0, 0x0, 0x0, 0xfff00000⟩,
  ⟨0xb1018, 0x40, 64, 0x0, 1, 0x0, 0x0, 0x0, 0x0, 0x0, 0x0, 0xffe00000⟩,
  ⟨0xb101c, 0x40, 64, 0x0, 1, 0x0, 0x0, 0x0, 0x0, 0x0, 0x0, 0xfff00000⟩,
  ⟨0xb1020, 0x40, 64, 0x0, 1, 0x0, 0x0, 0x0, 0x0, 0x0, 0x0, 0x0⟩,
  ⟨0xb1024, 0x40, 64, 0x0, 1, 0x0, 0x0, 0x0, 0x0, 0x0, 0x0, 0x0⟩,
  ⟨0x3f000000, 0x0, 1, 0x0, 1, 0x0, 0x0, 0x0, 0x0, 0x0, 0x0, 0xff00c880⟩,
  ⟨0x3f000004, 0x0, 1, 0x0, 1, 0xffff, 0x0, 0x0, 0x0, 0x0, 0x0, 0xfffe0000⟩,
  ⟨0x3f000008, 0x0, 1, 0x0, 1, 0x40, 0x0, 0x0, 0x0, 0x0, 0x0, 0xffffff00⟩,
  ⟨0x3f000010, 0x0, 1, 0x0, 1, 0x0, 0x0, 0x0, 0x0, 0x0, 0x0, 0x0⟩,
  ⟨0x3f000014, 0x0, 1, 0x0, 1, 0x0, 0x0, 0x0, 0x0, 0x0, 0x0, 0x0⟩,
  ⟨0x3f000020, 0x0, 1, 0x0, 1, 0x0, 0x3fffffc, 0x0, 0x0, 0x0, 0x0, 0xfc000003⟩,
  ⟨0x3f000024, 0x0, 1, 0x0, 1, 0x0, 0xffffffff, 0x0, 0x0, 0x0, 0x0, 0x0⟩,
  ⟨0x3f000028, 0x0, 1, 0x0, 1, 0x0, 0x10, 0x0, 0x0, 0x3, 0x0, 0xfffffcec⟩,
  ⟨0x3f000030, 0x0, 1, 0x0, 1, 0x0, 0x0, 0x0, 0x1f, 0x0, 0x0, 0xffffffe0⟩,
  ⟨0x3f000034, 0x0, 1, 0x0, 1, 0x1f, 0x1f, 0x0, 0x0, 0x0, 0x0, 0xffffffe0⟩,
  ⟨0xc0000, 0x0, 1, 0x0, 1, 0xa, 0x3ff, 0x0, 0x0, 0x0, 0x3ff, 0xfffffc00⟩,
  ⟨0xc0004, 0x0, 1, 0x0, 1, 0x0, 0x0, 0x0, 0x0, 0x0, 0x0, 0xfffc0000⟩,
  ⟨0xc0008, 0x0, 1, 0x0, 1, 0x0, 0x0, 0x0, 0xff, 0x0, 0x0, 0xffffff00⟩,
  ⟨0xc000c, 0x0, 1, 0x0, 1, 0x0, 0x0, 0x0, 0x0, 0x0, 0x0, 0xffff0000⟩,
  ⟨0xc0010, 0x0, 1, 0x0, 1, 0x0, 0xffff, 0x0, 0x0, 0x0, 0x0, 0xffff0000⟩,
  ⟨0xc0014, 0x0, 1, 0x0, 1, 0x0, 0x0, 0x0, 0x0, 0x0, 0x0, 0x0⟩,
  ⟨0xc0018, 0x0, 1, 0x0, 1, 0x0, 0x0, 0x0, 0x0, 0x0, 0x0, 0x0⟩,
  ⟨0xc001c, 0x0, 1, 0x0, 1, 0x0, 0x0, 0x0, 0x0, 0x0, 0x0, 0x0⟩,
  ⟨0xc0020, 0x0, 1, 0x0, 1, 0x0, 0x0, 0x0, 0x0, 0x0, 0x0, 0x0⟩,
  ⟨0x38000c40, 0x1000, 66, 0x0, 1, 0x0, 0x0, 0x0, 0x0, 0x3fffffff, 0x0, 0xc0000000⟩,
  ⟨0x38000c44, 0x1000, 66, 0x0, 1, 0x0, 0x0, 0x0, 0x0, 0x80000003, 0x0, 0x7ffffffc⟩,
  ⟨0x38000c48, 0x1000, 66, 0x0, 1, 0x0, 0x0, 0x0, 0x3, 0x0, 0x0, 0xffffe00c⟩,
  ⟨0xc1000, 0x20, 64, 0x0, 1, 0x0, 0x0, 0x0, 0x0, 0x0, 0x0, 0xe000⟩,
  ⟨0xc1004, 0x20, 64, 0x0, 1, 0x0, 0x0, 0x0, 0x0, 0x0, 0x0, 0x0⟩,
  ⟨0xc1008, 0x20, 64, 0x0, 1, 0x0, 0x0, 0x0, 0x0, 0x0, 0x0, 0x0⟩]

def regRows5 : List RegRow := [
  ⟨0xc100c, 0x20, 64, 0x0, 1, 0x0, 0x0, 0x0, 0x0, 0x0, 0x0, 0x0⟩,
  ⟨0xc1010, 0x20, 64, 0x0, 1, 0x0, 0x0, 0x0, 0xf, 0x0, 0x0, 0xfffffff0⟩,
  ⟨0xd0000, 0x0, 1, 0x0, 1, 0x0, 0x0, 0x0, 0x0, 0xf, 0xf, 0xfffffff0⟩,
  ⟨0xd0004, 0x0, 1, 0x0, 1, 0x3, 0x0, 0x0, 0x0, 0x0, 0x0, 0xffffff88⟩,
  ⟨0xd0008, 0x0, 1, 0x0, 1, 0x0, 0x0, 0x0, 0x7f, 0x0, 0x0, 0xffffff80⟩,
  ⟨0xd000c, 0x0, 1, 0x0, 1, 0x1523190f, 0x7fffffff, 0x0, 0x0, 0x0, 0x7fffffff, 0x80000000⟩,
  ⟨0xd0010, 0x0, 1, 0x0, 1, 0x0, 0x3, 0x0, 0x0, 0x0, 0x3, 0xfffffffc⟩,
  ⟨0xd0014, 0x0, 1, 0x0, 1, 0x0, 0x0, 0x0, 0x0, 0x0, 0x0, 0x0⟩,
  ⟨0xd0018, 0x0, 1, 0x0, 1, 0x0, 0x0, 0x0, 0x0, 0x0, 0x0, 0x0⟩,
  ⟨0xd001c, 0x0, 1, 0x0, 1, 0x0, 0x0, 0x0, 0x0, 0x0, 0x0, 0xfff80000⟩,
  ⟨0xd0040, 0x4, 8, 0x0, 1, 0x0, 0x0, 0x0, 0x0, 0x0, 0x0, 0xf000f000⟩,
  ⟨0xd0080, 0x4, 16, 0x0, 1, 0x0, 0x0, 0x0, 0x0, 0x0, 0x0, 0xf000f000⟩,
  ⟨0xd0100, 0x4, 64, 0x0, 1, 0x0, 0x0, 0x0, 0x0, 0x0, 0x0, 0xf0000000⟩,
  ⟨0xe0000, 0x0, 1, 0x0, 1, 0x0, 0x0, 0x0, 0x0, 0xf, 0xf, 0xfffffff0⟩,
  ⟨0xe0004, 0x0, 1, 0x0, 1, 0x0, 0x0, 0x0, 0x0, 0x0, 0x0, 0xffffff80⟩,
  ⟨0xe0008, 0x0, 1, 0x0, 1, 0x0, 0x0, 0x0, 0x1ff, 0x0, 0x0, 0xfffffe00⟩,
  ⟨0xe000c, 0x0, 1, 0x0, 1, 0x3, 0x3, 0x0, 0x0, 0x0, 0x3, 0xfffffffc⟩,
  ⟨0xe0010, 0x4, 2, 0x0, 1, 0x0, 0x0, 0x0, 0x0, 0x0, 0x0, 0x0⟩,
  ⟨0xe0018, 0x0, 1, 0x0, 1, 0x0, 0x0, 0x0, 0x0, 0x0, 0x0, 0xffff0000⟩,
  ⟨0xe001c, 0x0, 1, 0x0, 1, 0x0, 0x0, 0x0, 0x0, 0x0, 0x0, 0xf0000000⟩,
  ⟨0xe0020, 0x0, 1, 0x0, 1, 0x0, 0x0, 0x0, 0x0, 0x0, 0x0, 0x0⟩,
  ⟨0xe0024, 0x0, 1, 0x0, 1, 0x0, 0x0, 0x0, 0x0, 0x0, 0x0, 0xfffc⟩,
  ⟨0xe0040, 0x4, 16, 0x0, 1, 0x0, 0x0, 0x0, 0x0, 0x0, 0x0, 0xfc000000⟩,
  ⟨0xe0080, 0x4, 3, 0x0, 1, 0x0, 0x0, 0x0, 0x0, 0x0, 0x0, 0xfffffffc⟩,
  ⟨0xe0090, 0x4, 3, 0x0, 1, 0x0, 0x0, 0x0, 0x0, 0x0, 0xffffffff, 0x0⟩,
  ⟨0xe00c0, 0x4, 8, 0x0, 1, 0x0, 0x0, 0x0, 0x0, 0x0, 0x0, 0x0⟩,
  ⟨0xe00e0, 0x4, 4, 0x0, 1, 0x0, 0x0, 0x0, 0x0, 0x0, 0x0, 0x0⟩,
  ⟨0xe0400, 0x4, 256, 0x0, 1, 0x0, 0x0, 0x0, 0x0, 0x0, 0x0, 0xfff8f000⟩,
  ⟨0xf0000, 0x0, 1, 0x0, 1, 0x0, 0x0, 0x0, 0x0, 0xff1f, 0xff1f, 0xffff00e0⟩,
  ⟨0xf0004, 0x0, 1, 0x0, 1, 0x0, 0x0, 0x0, 0x0, 0x0, 0x0, 0xfffe00c0⟩,
  ⟨0xf0008, 0x0, 1, 0x0, 1, 0x0, 0x0, 0x0, 0xff, 0x0, 0x0, 0xffffff00⟩,
  ⟨0xf0040, 0x4, 56, 0x0, 1, 0x0, 0x0, 0x0, 0x0, 0xffffffff, 0xffffffff, 0x0⟩,
  ⟨0xf0120, 0x4, 12, 0x0, 1, 0x0, 0x0, 0x0, 0x0, 0x0, 0xffffffff, 0x0⟩,
  ⟨0xf0160, 0x4, 24, 0x0, 1, 0x0, 0x0, 0x0, 0x0, 0xffffffff, 0xffffffff, 0x0⟩,
  ⟨0xf01c0, 0x0, 1, 0x0, 1, 0x0, 0x1ff, 0x0, 0x0, 0x0, 0x1ff, 0xfffffe00⟩,
  ⟨0xf01c4, 0x0, 1, 0x0, 1, 0x0, 0xffffffff, 0x0, 0x0, 0x0, 0xffffffff, 0x0⟩,
  ⟨0xf01c8, 0x0, 1, 0x0, 1, 0x0, 0x0, 0x0, 0x0, 0x3, 0x3, 0xfffffffc⟩,
  ⟨0xf01cc, 0x0, 1, 0x0, 1, 0x0, 0x0, 0x0, 0x0, 0x0, 0x0, 0xffff00f8⟩,
  ⟨0xf01d0, 0x0, 1, 0x0, 1, 0x0, 0x0, 0x0, 0x0, 0x0, 0x0, 0x0⟩,
  ⟨0x0, 0x0, 1, 0x0, 1, 0x0, 0x0, 0x0, 0x0, 0x0, 0x0, 0xf00c0000⟩]

def regRows6 : List RegRow := [
  ⟨0x4, 0x0, 1, 0x0, 1, 0x0, 0x0, 0x0, 0x0, 0x0, 0x0, 0x0⟩,
  ⟨0x8, 0x0, 1, 0x0, 1, 0x0, 0x0, 0x0, 0x0, 0x0, 0x0, 0x0⟩,
  ⟨0xc, 0x0, 1, 0x0, 1, 0x0, 0x0, 0x0, 0x0, 0x0, 0x0, 0x80000000⟩,
  ⟨0x10, 0x0, 1, 0x0, 1, 0xffff, 0xfffe, 0x0, 0x0, 0x0, 0xfffe, 0xffff0000⟩,
  ⟨0x14, 0x0, 1, 0x0, 1, 0xffff, 0x0, 0x0, 0x0, 0x0, 0x0, 0xffff0000⟩,
  ⟨0x30000018, 0x1000, 66, 0x0, 1, 0x0, 0x0, 0x0, 0x0, 0x0, 0x0, 0xffff4080⟩,
  ⟨0x30000020, 0x1000, 66, 0x0, 1, 0x0, 0xfffffffc, 0x0, 0x0, 0x0, 0x0, 0x0⟩,
  ⟨0x30000024, 0x1000, 66, 0x0, 1, 0x0, 0x0, 0x0, 0x1, 0x0, 0x0, 0xfffffffe⟩,
  ⟨0x30000028, 0x1000, 66, 0x0, 1, 0x0, 0x0, 0x0, 0x0, 0x0, 0x0, 0x0⟩,
  ⟨0x30000030, 0x1000, 66, 0x0, 1, 0x0, 0xffffffff, 0x0, 0x0, 0x0, 0x0, 0x0⟩,
  ⟨0x30000034, 0x1000, 66, 0x0, 1, 0x0, 0xffffffff, 0x0, 0x0, 0x0, 0x0, 0x0⟩,
  ⟨0x30000040, 0x1000, 66, 0x0, 1, 0x0, 0x0, 0x0, 0x0, 0x3f07, 0x0, 0xffffc0f8⟩,
  ⟨0x30000044, 0x1000, 66, 0x0, 1, 0x0, 0x0, 0x0, 0x3, 0x0, 0x0, 0xffffc0f0⟩,
  ⟨0x30000048, 0x1000, 66, 0x0, 1, 0x0, 0x0, 0x0, 0x0, 0x0, 0x0, 0x0⟩,
  ⟨0x3000004c, 0x1000, 66, 0x0, 1, 0x0, 0x0, 0x0, 0x0, 0x0, 0x0, 0x0⟩,
  ⟨0x30000050, 0x1000, 66, 0x0, 1, 0x0, 0x0, 0x0, 0x0, 0x0, 0x0, 0x0⟩,
  ⟨0x30000060, 0x1000, 66, 0x0, 1, 0x0, 0x0, 0x0, 0x1, 0x0, 0x0, 0xfffffffc⟩,
  ⟨0x30000064, 0x1000, 66, 0x0, 1, 0x0, 0x0, 0x0, 0x0, 0x0, 0x0, 0x0⟩,
  ⟨0x30000070, 0x1000, 66, 0x0, 1, 0x0, 0xfff, 0x0, 0x0, 0x0, 0x0, 0xfffff000⟩,
  ⟨0x30000074, 0x1000, 66, 0x0, 1, 0x0, 0x1fff, 0x0, 0x0, 0x0, 0x0, 0xffffe000⟩,
  ⟨0x30000080, 0x1000, 66, 0x4, 2, 0x0, 0x0, 0x0, 0xffffffff, 0x0, 0x0, 0x0⟩,
  ⟨0x100, 0x4, 128, 0x0, 1, 0x0, 0xff, 0x0, 0x0, 0x0, 0x0, 0xffffff00⟩]

/-- Every register the spec gives the hub. -/
def regRows : List RegRow :=
  regRows0 ++ regRows1 ++ regRows2 ++ regRows3 ++ regRows4 ++ regRows5 ++ regRows6

/-- The two indices of address `a` within a row, where it names one of the row's registers. -/
def RegRow.index? (r : RegRow) (a : Nat) : Option (Nat × Nat) :=
  if a < r.base then none
  else
    let d := a - r.base
    let i := if r.st1 = 0 then 0 else d / r.st1
    let e := if r.st1 = 0 then d else d % r.st1
    let j := if r.st2 = 0 then 0 else e / r.st2
    let f := if r.st2 = 0 then e else e % r.st2
    if f = 0 ∧ i < r.n1 ∧ j < r.n2 then some (i, j) else none

/-- The register row that address `a` names, with its indices. -/
def regRow? (a : Nat) : Option (RegRow × Nat × Nat) :=
  regRows.findSome? fun r => (r.index? a).map fun ij => (r, ij.1, ij.2)

/-- The reset value of lane `p`: its role (R31) and the capabilities byte of R288's LANE_STATUS heading. -/
def laneStatusReset (p : Nat) : Nat :=
  if p < 2 then 0x027F0000 else if p < 4 then 0x037F0000
  else if (p - 4) % 13 = 12 then 0x017F0000 else 0x007F0000

/-- The store that SRAM macro `m` belongs to, as BIST_MEM_REP's STORE tells it (R410). -/
def macroStore (m : Nat) : Nat := if m < 128 then 0 else if m < 192 then 1 else if m < 240 then 2 else if m < 255 then 3 else 4

/-- What a register reads as while nothing has written it: the reset value of its table, with the factory numbering of R19
behind the values that the repair map gives (DESIGN CHOICE, log entry 8), and every vector of the MSI-X tables masked (DESIGN CHOICE, log entry 7;
DESIGN CHOICE, log entry 10; DESIGN CHOICE, log entry 61). -/
def regReset (a : Nat) : Word :=
  match regRow? a with
  | none => if 0x20000000 ≤ a ∧ a < 0x20000000 + 0x2000 * 65 ∧ a % 16 = 12 then 1 else 0
  | some (r, i, _) =>
    if r.base = LANE_STATUS 0 then BitVec.ofNat 32 (laneStatusReset i)
    else if r.base = DEV_IRQ_MAP 0 then BitVec.ofNat 32 i
    else if r.base = DEV_ID then 0x01001024
    else if r.base = DEV_LIMITS then 0x44080400
    else if r.base = LANE_CFG 0 then 0x7F0
    else if r.base = BSK_KEEPER_STATUS then 0x19
    else if r.base = BIST_MEM_REP 0 then BitVec.ofNat 32 (macroStore i * 65536)
    else if r.base = LC_IDCODE then 0x11024001
    else if r.base = RIM_STATUS 0 then BitVec.ofNat 32 (i * 16)
    else if r.base = STR_STATUS 0 then BitVec.ofNat 32 ((17 * (i / 16) + i % 16) * 65536)
    else BitVec.ofNat 32 r.reset

end Sys2Proof.Machine
end

