-- ==== Sys2Proof/Machine/State.lean ====
section
/-! DEFINITION. The hub's state as plain data. Every register of the spec's register tables lives in `regs`, at its own key; the structures
hold what the hub has beside them: numbers of strands, hops on their way, runs in progress, timers' memory. -/

namespace Sys2Proof.Machine

/-! ## Hearth and rims -/

/-- What the hearth holds beside its registers (R49 to R64). -/
structure Hearth where
  /-- the bandwidth code in force, which the staircase of R54 steps -/
  bwNow : Nat := 12
  /-- the elapsed time at which the XREF settle delay last began to count (R51) -/
  settleFrom : Nat := 0
  /-- the elapsed time at which HOLDOVER or WAIT was entered (HRT_STATUS.LEFT) -/
  leftFrom : Nat := 0
  /-- the moments of the failed reacquisitions (R64) -/
  fails : List Nat := []
  /-- the XREF frequency whose ratio is in force (R43, HRT_XREF_FREQ) -/
  ratioFreq : Nat := 100000000
  /-- the hearth has declared lock since reset release (R82) -/
  everLocked : Bool := false
  /-- the tracked phase of XREF at its latest hit, in fs (R57) -/
  phaseX : Int := 0
  /-- by source, the moment at which its tracked phase was last measured, and the elapsed time of its latest phase hit (R57, HRT_SRC_STATUS) -/
  seen : List (Nat × Nat) := []
  hits : List (Nat × Nat) := []
  /-- the frequency still moves towards the source taken by the latest switch or exit from HOLDOVER (R57) -/
  moving : Bool := false
  /-- the phase taken as a fixed offset at the latest switch, in fs (R57) -/
  buildOut : Int := 0
  /-- the tuning is held at the history value (HOLDOVER) or frozen (WAIT, LOST) -/
  frozen : Bool := false
  /-- the tuning word held while it is (R60 to R63) -/
  tune : Int := 0
deriving DecidableEq, Repr

/-- A migration of a logical rim (R72, R74). -/
structure Migration where
  /-- the physical rim it moves to -/
  spare : Nat
  /-- true for a migration without a hit (R74), false for an unlock-driven one (R72) -/
  hitless : Bool
  /-- the spare has declared lock -/
  locked : Bool
  /-- the wales still to move, in ascending number -/
  toMove : List Nat
  /-- the wales moved so far, each with the offset measured for it (R74, R181) -/
  moved : List (Nat × Int)
  /-- what the spare's lock gave: its tuning code, its band, and whether its band table held that band (R217, R228) -/
  code : Nat := 0
  band : Nat := 0
  stored : Bool := false
deriving DecidableEq, Repr

/-- What a logical rim holds beside its registers (R68 to R75). -/
structure Rim where
  /-- the hop whose retune runs -/
  retuneHop : Option Nat := none
  /-- the migration in progress -/
  mig : Option Migration := none
  /-- a RIM_MIGRATE GO that waits (R71, R305, R424), with its TARGET -/
  deferred : Option Nat := none
  /-- the hub waits for relock with no limit (R72 step 4b) -/
  waitRelock : Bool := false
  /-- an unlock-driven migration waits for a load that includes the rim to end (R305) -/
  waitLoad : Bool := false
  /-- RELOCK_WAIT runs -/
  relockRun : Bool := false
deriving DecidableEq, Repr

/-! ## Strands -/

/-- A coherence slot (R120). -/
structure Slot where
  /-- the slot holds a setting -/
  valid : Bool := false
  /-- its profile -/
  prof : Nat := 0
  /-- its period word and divider (R120) -/
  p : Nat := 0
  n : Nat := 0
  /-- the rim position that the grid of the setting goes through (R121) -/
  anchor : Int := 0
deriving DecidableEq, Repr

/-- A setting as a strand takes it: what a profile record (R137) and its command give (R124). -/
structure Setting where
  /-- the period word, in 2^-48 tick, and the divider -/
  p : Nat
  n : Nat
  /-- the duty -/
  d : Nat
  /-- the phase word, and whether the setting loads it (R137) -/
  phase : Int
  loadsPhase : Bool
  /-- whether it starts a slew, with its target and step (R118) -/
  startsSlew : Bool
  target : Int
  sigma : Nat
  /-- the coherence slot that it names, with its profile -/
  slot : Option Nat
  prof : Nat
  /-- the ramp that the command asks for (R166, R167) -/
  rampK : Nat
  rampJ : Nat
deriving DecidableEq, Repr

/-- Where an edge lies (R112): the rim period counted from the start point, the rim phase, and the DTC code, with the control word that drives the
DTC for it (R210). -/
structure Placed where
  period : Int := 0
  phase : Nat := 0
  code : Nat := 0
  word : Int := 0
deriving DecidableEq, Repr

/-- A ramp in progress (R166): its target setting and the output periods left until its next step. -/
structure Ramp where
  /-- the target setting -/
  p : Nat
  n : Nat
  /-- the ramp step and spacing -/
  k : Nat
  j : Nat
  /-- the output periods until the next step -/
  left : Nat
deriving DecidableEq, Repr

/-- The numbers of one logical strand (R111 to R125, R170, R180). -/
structure Strand where
  /-- the position of the latest rising edge before its phase, in U (R111, R113) -/
  e : Int := 0
  /-- the phase word in force (R116) -/
  phi : Int := 0
  /-- the setting in force: period word, divider and duty (R107, R109) -/
  p : Nat := 0
  n : Nat := 0
  d : Nat := 0
  /-- the output period and the high time, in U (R109, R113) -/
  t : Nat := 0
  h : Nat := 0
  /-- the shapers of the rising and falling edges (R111), and those of the companion track (R170) -/
  s : Nat := 0
  sf : Nat := 0
  sc : Nat := 0
  scf : Nat := 0
  /-- where the latest rising edge, its falling edge and its companion edges lie (R111, R112, R170) -/
  rise : Placed := {}
  fall : Placed := {}
  compRise : Placed := {}
  compFall : Placed := {}
  /-- a plaited strand has started and has not placed edge 0 yet (R182) -/
  pend : Bool := false
  /-- the rising edges since the start (R125) -/
  edges : Nat := 0
  /-- the slew in progress, its target and step (R118) -/
  slewing : Bool := false
  target : Int := 0
  sigma : Nat := 0
  /-- the slew is held by the gap (R118, STR_SLEW) -/
  held : Bool := false
  /-- the four coherence slots (R120) -/
  slots : List Slot := [{}, {}, {}, {}]
  /-- the ramp in progress (R166) -/
  ramp : Option Ramp := none
  /-- the rim positions y of the rising edges placed since the start, newest first (R180), kept for a plait's children -/
  ys : List Int := []
  /-- the output period in force at each of those edges, in U of the rim (R189), and the code at which each was placed (R111, R130) -/
  ts : List Nat := []
  qs : List Int := []
  /-- for a plaited strand, the number of the parent edge that is its start point (R179) -/
  k0 : Int := 0
  /-- that edge's rim position -/
  z0 : Int := 0
  /-- the plait parent that the plan names (R179) -/
  parent : Option Nat := none
  /-- consecutive failed residual visits (R131) -/
  failRun : Nat := 0
  /-- it waits for its residual check after a rebind (R72 step 6, R75) -/
  awaitVisit : Bool := false
  /-- the strand has run since cold start -/
  everRun : Bool := false
  /-- the plan in force binds the strand -/
  bound : Bool := false
deriving DecidableEq, Repr

/-! ## Commands and hops -/

/-- Where a command came from (R143): a physical lane, or a host ring. -/
inductive CmdSrc where
  | lane (p : Nat)
  | host (ring : Nat)
deriving DecidableEq, Repr

/-- The states of a hop (R146); `fetching` is the part of QUEUED in which the slot is held and the record is on its way (R248). -/
inductive HopState where
  | queued
  | fetching
  | speculative
  | armed
  | held
  | due
deriving DecidableEq, Repr

/-- A hop: a command that passed the checks of R144 and has not completed. -/
structure Hop where
  /-- its number, the model's own name for it -/
  id : Nat
  /-- the command's first two words (R141) -/
  w0 : Word
  w1 : Word
  /-- where it came from, and the ring that it entered -/
  src : CmdSrc
  /-- the partner handle, or 0xF0, 0xF1, under which the source feeds its ring; none for a host ring -/
  feed : Option Nat
  ring : Nat
  /-- where it stands (R146) -/
  st : HopState
  /-- a COMMIT for its tag has been parsed (R156) -/
  released : Bool
  /-- a SQUASH for its tag has been parsed while it was QUEUED (R157) -/
  squashed : Bool
  /-- the record as it was fetched (R139) -/
  record : List Word
  /-- the full fire value of a TIMED command, in units of 2^-48 s (R142) -/
  fire : Nat
  /-- the order in which it armed (R150) -/
  armSeq : Nat
  /-- the rising edges that its strand's plait parent had placed when it became DUE (R182) -/
  dueEdge : Nat := 0
  /-- it entered HELD at this elapsed time (R149) -/
  heldAt : Nat
  /-- a completion entry is reserved for it (R239) -/
  reserved : Bool
  /-- its source has departed since it was parsed (R159, R257) -/
  orphan : Bool := false
  /-- an event of R168 has ended it while no completion entry was free: it waits in its ring for one (R239) -/
  aborting : Bool := false
  /-- the order in which it was granted, whether its grant was within reservation, and whether its bank performs its access (R247, R248) -/
  grantSeq : Nat := 0
  within : Bool := false
  access : Bool := false
deriving DecidableEq, Repr

/-! ## Faults -/

/-- The kinds of R363. -/
inductive FaultKind where
  | mark | cleared | recovered | lockedOut | keeperClear | devEscalated | logResume
  | supply | thermal | thermalWarn | paceL3 | fuse | nvm | tamper | nvmSlot | bootPlan
  | srcTrip | srcSwitch | holdover | hearthWait | hearthLost
  | rimUnlock | rimWear
  | resVisit | resFault | spareGone | dtcWear
  | replay | exhaust | fecUncorr | bondNarrow | creditViol | eyeWear
  | talWire | talHoldover | talMismatch | talSwitch
  | resWithdrawn | resRestored | eccCorr | eccUncorr | calReject | calExpired
deriving DecidableEq, Repr

/-- The classes of R361. -/
inductive FaultClass where
  | w | b | g | i
deriving DecidableEq, Repr

/-- An uncleared condition cause of a basket (R367, R377): detected, held by injection, or both. -/
structure Cause where
  /-- its source, kind and basket -/
  source : Nat
  kind : FaultKind
  basket : Nat
  /-- it is detected, and the functions whose injection holds it -/
  detected : Bool
  heldBy : List Nat
deriving DecidableEq, Repr

/-- The messages of one escalating combination counted since its count last started (R372). -/
structure EscCount where
  /-- the combination: source, kind and basket, none for a device-level one -/
  source : Nat
  kind : FaultKind
  basket : Option Nat
  /-- the messages counted, by their moments -/
  times : List Nat
deriving DecidableEq, Repr

/-- A FAULTS record of the plan in force (R299, R373); T in µs. -/
structure FaultsRec where
  source : Nat
  kind : Nat
  basket : Nat
  device : Bool
  n : Nat
  t : Nat
deriving DecidableEq, Repr

/-- What the fault collector holds beside its registers. -/
structure Collector where
  causes : List Cause := []
  esc : List EscCount := []
  /-- when a class W record of a source, kind and basket was last written (R379) -/
  lastW : List (Nat × FaultKind × Option Nat × Nat) := []
  /-- the class G causes: source, kind and whether an injection holds it -/
  gCauses : List (Nat × FaultKind) := []
  /-- the baskets whose quiet period runs (R369), and since when -/
  quiet : List Nat := []
  quietAt : List (Nat × Nat) := []
  /-- the recoveries recorded: basket and moment (R370) -/
  recov : List (Nat × Nat) := []
  /-- the tally second of the record written last (R380) -/
  lastSec : Option Nat := none
  /-- injected W and G causes held, by function (R377) -/
  holds : List (Nat × Nat × FaultKind × Nat) := []
  /-- the warp and chain lanes that an escalation has still to retrain (R270, R372) -/
  retrain : List Nat := []
deriving DecidableEq, Repr

/-! ## Tally -/

/-- What the tally holds for one domain (R89, R94, R95). -/
structure Domain where
  /-- the offset at the latest accepted message, in tally LSBs (R89) -/
  off : Int := 0
  /-- when the latest message was accepted -/
  last : Option Nat := none
  /-- the latest two accepted messages lay at most DOM_TMO apart (R94) -/
  close : Bool := false
  /-- consecutive accepted messages beyond JUMP_THR (R94, R95) -/
  jumps : Nat := 0
  /-- the SEQ of the latest message (R86) -/
  seq : Option Nat := none
deriving DecidableEq, Repr

/-- What the tally holds beside its registers. -/
structure Tally where
  /-- the counter, in units of 2^-40 LSB (R28, R80), modulo 2^136 -/
  count : Nat := 0
  domA : Domain := {}
  domB : Domain := {}
  /-- the delay averages: for each lane that is a requester, (t4 - t1) - TURN of its latest 4,096 exchanges, newest first (R90, R91) -/
  avg : List (Nat × List Int) := []
  /-- the requests without a response: lane, sequence number, t1 -/
  reqs : List (Nat × Nat × Nat) := []
  /-- the rate adjustments in force and since when, newest first (R98) -/
  rates : List (Nat × Int) := []
  /-- the two parts of the rate adjustment in force, in 0.1 ppb: the servo's ordinary correction and the slew (R80, R97) -/
  servo : Int := 0
  slew : Int := 0
  /-- the slew in progress is limited by ACQ_SLEW; otherwise by SWSLEW (R97, R98) -/
  acqSlew : Bool := false
  /-- the marker number of each partner (R103) -/
  beats : List (Nat × Nat) := []
  /-- when HOLDOVER was entered -/
  holdSince : Nat := 0
deriving DecidableEq, Repr

/-! ## Spokes, reeds and calibration -/

/-- What a spoke drives now; SPK_CFG holds what was written last (R171). -/
structure Spoke where
  /-- the path and the swing in force -/
  path : Nat := 0
  swing : Nat := 0
deriving DecidableEq, Repr

/-- What a reed run meets at a time (R192, R193): its reference strand is ready, a calibration, migration or splice covers it, and the spoke of its LOOP
source gives no edges. -/
structure RefCond where
  ready : Bool := true
  stale : Bool := false
  dark : Bool := false
deriving DecidableEq, Repr

/-- The settings of a reed run as they stood when it was requested, and what has reached it since (R191 to R193). -/
structure ReedRun where
  /-- REED_CFG, GATE, WIN_LO, HIST_LO and RUN_MAX as the run took them (R191) -/
  cfg : Word := 0
  gate : Nat := 0
  winLo : Word := 0
  histLo : Word := 0
  runMax : Nat := 0
  /-- the conditions that it has met one after the other, the first one first (R192, R193) -/
  conds : List RefCond := []
  /-- a setting has committed on the reference strand, or its slew has moved it, during the run (R193) -/
  refHop : Bool := false
deriving DecidableEq, Repr

/-- Where a calibration run stands (R211 to R220). -/
inductive CalStage where
  /-- the check TDC stage (R211) -/
  | tdc
  /-- the sweep of a cell; the number counts the cells finished (R213, R214) -/
  | sweep (k : Nat)
  /-- a swept cell waits for the boundary at which it takes its role (R213) -/
  | handover (k : Nat)
  /-- the run is over and waits for the boundary at which STALE clears; true for one accepted (R213) -/
  | clearing (ok : Bool)
  /-- a reed's code density (R216) -/
  | density
  /-- a reed's cross-measurement (R216) -/
  | cross
  /-- a rim's band sweep (R218) -/
  | bands
  /-- a rim's lock margin (R218) -/
  | margin
  /-- the NVM writer's transfer of a group (R231) -/
  | store
  /-- a lane's eye before its taps move (R220) -/
  | eyeBefore
  /-- a tap's metric where it stands, one up, one down, and on in the better direction (R220) -/
  | tapHere
  | tapUp
  | tapDown
  | tapOn
  /-- a lane's eye after its taps have moved (R220) -/
  | eyeAfter
deriving DecidableEq, Repr

/-- A reed's nonlinearity (R216): NL_RMS and NL_PEAK in 0.1 fs, truncated, whether the exact values pass check 0x09, and the breakpoints in fs. -/
structure ReedNl where
  rms : Nat := 0
  peak : Nat := 0
  ok : Bool := false
  bp : List Int := []
deriving DecidableEq, Repr

/-- A lane calibration's own numbers (R220). -/
structure TapRun where
  /-- the taps CTLE, DFE1 to DFE8 before the run -/
  before : List Int := []
  /-- the taps as they stand -/
  taps : List Int := []
  /-- the tap under trial -/
  i : Nat := 0
  /-- its best metric so far -/
  best : Nat := 0
  /-- its metric one up, the direction that is better, and the moves made -/
  up : Nat := 0
  dir : Int := 1
  moves : Nat := 0
  /-- the eye before the run -/
  eyeW : Nat := 0
  eyeH : Nat := 0
deriving DecidableEq, Repr

/-- A calibration run in progress. -/
structure CalRun where
  /-- the target as the command numbers it, and FORCE_TDC -/
  target : Nat
  force : Bool
  /-- where the run stands -/
  stage : CalStage
  /-- the physical strand whose cells are swept -/
  phys : Nat
  /-- the strand ran when its sweeps began, so its cells rotate (R213) -/
  rotates : Bool
  /-- the reed's INL results until they are loaded (R216) -/
  nl : ReedNl := {}
  /-- a lane's own numbers -/
  tap : TapRun := {}
deriving DecidableEq, Repr

/-- A calibration unit (R205, R208), by its index in the unit status table (R225). -/
structure CalUnit where
  /-- the pending targets in ascending order, each with FORCE_TDC -/
  pending : List (Nat × Bool) := []
  /-- the run in progress -/
  run : Option CalRun := none
  /-- the target of the latest run, from which a reed quadrant's scan goes on (R323) -/
  last : Option Nat := none
deriving DecidableEq, Repr

/-- What a wale's check TDC table was taken at (R211): when, the rim frequency word, and Tj in 0.1 °C. -/
structure TdcTable where
  /-- when, at which rim word, and at which Tj -/
  taken : Option Nat := none
  word : Nat := 0
  tj : Int := 0
  /-- the counts of its 1,024 bins -/
  bins : List Nat := []
deriving DecidableEq, Repr

/-- What a cell's values were taken at, for a cell that a run which was not accepted has loaded (R221, R224): the rim word, Tj, and OPTIME. -/
structure CellCal where
  word : Nat := 0
  tj : Int := 0
  optime : Nat := 0
deriving DecidableEq, Repr

/-- A splice in a wale (R422): its phases. -/
inductive SplicePhase where
  | cal
  | waitShadow
  | shadow
  | verify
  | handover
deriving DecidableEq, Repr

/-- A splice in progress (R422, R423). -/
structure Splice where
  /-- the logical strand that the spare is to take -/
  strand : Nat
  /-- where the splice stands -/
  phase : SplicePhase
  /-- alignments made -/
  tries : Nat
  /-- what the spare's positions differ by, in U -/
  delta : Int
  /-- the strand is not ready through its residual -/
  parked : Bool
deriving DecidableEq, Repr

/-- The wear thresholds of the plan in force (R232, R301): tuning codes, DTC gain in 0.1 %, eye width in 1/64 UI and height in mV; 0 disables. -/
structure Wear where
  /-- 0 disables each -/
  vco : Nat := 0
  dtc : Nat := 0
  eyeW : Nat := 0
  eyeH : Nat := 0
deriving DecidableEq, Repr

/-! ## The weave plan -/

/-- A weave plan as its sections give it (R291 to R299): PLAN_ID, PLAN_SEQ, and the records of each section by its ID, each record its words. -/
structure Plan where
  id : Nat := 0
  seq : Nat := 0
  secs : List (Nat × List (List Word)) := []
deriving DecidableEq, Repr

/-- What a load holds beside the PLAN registers (R302). -/
structure Load where
  /-- a staging write went beyond word 524,287 and was dropped (R313) -/
  beyond : Bool := false
  /-- the words as the keeper staged them, taken at VERIFY -/
  words : List Word := []
  /-- the plan that the load would put in force: the full plan, or the plan in force with the fragment substituted (R300) -/
  result : Plan := {}
  /-- the fragment of a partial plan -/
  frag : Option Plan := none
  /-- FRAG_SEQ of that fragment -/
  fragSeq : Nat := 0
  /-- the plan that was in force before the commit point -/
  old : Plan := {}
  /-- it came from a boot slot (R306) -/
  boot : Bool := false
  /-- why the load ends once the NVM write of STORING has ended (R304) -/
  late : Option Nat := none
deriving DecidableEq, Repr

/-! ## The host and sideband interfaces -/

/-- What the PCIe endpoint holds beside the registers (R334, R341 to R345). A function is 0 for the PF and k for VF k. -/
structure HostIf where
  /-- configuration requests complete normally (R342, R395) -/
  ready : Bool := false
  /-- the link is in L0 -/
  link : Bool := false
  /-- PERST_N is asserted -/
  perst : Bool := true
  /-- how many VFs are enabled: 0 while VF Enable is clear (R344) -/
  vfs : Nat := 0
  /-- the functions whose FLR is in progress (R345) -/
  flr : List Nat := []
  /-- the baskets whose FLR acts on their rings once the partial reweave of the basket has ended (R313) -/
  flrLater : List Nat := []
  /-- the functions in D3hot (R334) -/
  d3 : List Nat := []
  /-- the functions whose MSI-X is enabled with the function mask clear, and those with Bus Master Enable set (R341) -/
  msix : List Nat := []
  bme : List Nat := []
deriving DecidableEq, Repr

/-- The holding buffer of a master's wide write (R349): where its first word would be reported as not written, and its words by register. -/
structure WideBuf where
  first : Nat
  words : List (Nat × Word)
deriving DecidableEq, Repr

/-- A snapshot whose copies are still being taken: its scope, none for the whole device, the tally at its snapshot point, the copies, and
whether the master will hold it (R347, R352). -/
structure SnapJob where
  /-- a basket, or none for the whole device -/
  scope : Option Nat
  tally : Nat
  copies : List (Nat × Word)
  hold : Bool
deriving DecidableEq, Repr

/-- A master's snapshot: the copies that its reads return, and those still being taken, the oldest first (R352, R459). -/
structure Snap where
  copies : List (Nat × Word) := []
  taking : List SnapJob := []
deriving DecidableEq, Repr

/-- The sideband's bus side (R353 to R357). -/
structure Sideband where
  /-- the static address, once the straps have settled (R354) -/
  stat : Option Nat := none
  /-- the dynamic address -/
  dyn : Option Nat := none
  /-- in-band interrupts are enabled by ENEC -/
  ibi : Bool := false
  /-- the register pointer (R355) -/
  ptr : Nat := 0
  mwl : Nat := 32
  mrl : Nat := 32
  /-- the access of the window that runs: a WRITE's data, or a READ (R356) -/
  win : Option (Nat × Option Word) := none
deriving DecidableEq, Repr

/-- What the Lid holds for the keeper credential (R328, R329). -/
structure Keeper where
  /-- the state before RESPOND -/
  back : Nat := 0
  /-- the key named by the response under verification, the nonce spent on it, and its words (R329) -/
  key : Nat := 0
  nonce : List Word := []
  resp : List Word := []
  /-- CHALLENGE is refused after a failure -/
  refuse : Bool := false
  /-- the elapsed time at which ORPHANED was entered (BSK_KEEPER_STATUS) -/
  orphanAt : Nat := 0
deriving DecidableEq, Repr

/-! ## NVM -/

/-- A word of erased MTP (R229). -/
def erased : Word := BitVec.ofNat 32 0xFFFFFFFF

/-- A slot of an NVM group (R229, R307, R391, R416), erased where nothing is said: the four header words, the body, as bytes by their address or offset or
as words, and CHECK and COMMIT. -/
structure NvmSlot where
  tag : Word := erased
  seq : Word := erased
  len : Word := erased
  rsv : Word := erased
  /-- the body is programmed; an erased one reads 0xFF throughout -/
  body : Bool := false
  cells : List Host.Cell := []
  words : List Word := []
  check : Word := erased
  commit : Word := erased
deriving DecidableEq, Repr

/-- A write of the NVM writer in progress: its group, the slot it writes, and the body as it stood when the write began (R231). -/
structure NvmJob where
  group : Nat
  slot : Nat
  body : NvmSlot
deriving DecidableEq, Repr

/-! ## Power, life cycle and test access -/

/-- What the power block holds beside its registers (R389, R390, R398). -/
structure Power where
  /-- for each strap, how many samples in a row have returned the valid level that DEV_SB_STRAP shows (R389) -/
  steady : List (Nat × Nat) := []
  /-- the straps' levels latched at reset release, as DEV_SB_STRAP shows them (R390) -/
  latch : Nat := 0
  /-- the pace level that the droop sensors call for (R398) -/
  pace : Nat := 0
  /-- the elapsed time at which the level in force reached 2, while it is there (PWR_PACE_TIME) -/
  since : Option Nat := none
deriving DecidableEq, Repr

/-- A life-cycle command in progress: its code, its SLOT, its argument words, and for RETURN the nonce and the token (R431, R433, R434). -/
structure LcJob where
  code : Nat
  slot : Nat
  args : List Word
  nonce : List Word := []
  token : List Word := []
deriving DecidableEq, Repr

/-- What the Lid holds for the life cycle (R431 to R434). -/
structure LifeCycle where
  job : Option LcJob := none
  /-- a token has failed verification less than 1 s ago (R432) -/
  refuse : Bool := false
deriving DecidableEq, Repr

/-- The test access port (R437 to R440). -/
structure Tap where
  /-- the instruction in force, by its code; Test-Logic-Reset selects IDCODE -/
  ir : Nat := 1
  /-- the update latches of the boundary cells, cell i in bit i (R438) -/
  cells : Nat := 0
  /-- the debug nonce, while it is unspent and has not expired (R440) -/
  nonce : Option (List Word) := none
  /-- DBG_CHAL returns zeros after a failed signature -/
  refuse : Bool := false
  /-- a scan has destroyed the core's state, until the next cold start (R437) -/
  scanned : Bool := false
deriving DecidableEq, Repr

/-! ## Links (R261 to R286) -/

/-- A sequenced frame's content (R264): a completion with the chain position of the hub that wrote it, a credit grant, a partner control
message, or a command forwarded down the chain. -/
inductive Frame where
  | cpl (chain : Nat) (ws : List Word)
  | credit (count cls basket chain : Nat)
  | pctl (d0 d1 : Word)
  | cmd (urgent : Bool) (ws : List Word)
deriving DecidableEq, Repr

/-- A replay episode (R269). -/
structure Episode where
  /-- when it opened, and the attempts made since -/
  opened : Nat
  attempts : Nat
  /-- the FSEQ of the youngest of the hub's frames that were unacknowledged at its opening, while it is -/
  upto : Option Nat
  /-- frames that the far end had unacknowledged are still outstanding -/
  far : Bool
deriving DecidableEq, Repr

/-- The replay layer of a link, or of a bond (R268, R269). -/
structure Link where
  /-- the link is up: its lanes have entered ACTIVE and not left for DETECT since -/
  up : Bool := false
  /-- FSEQ of the next frame sent, and of the next one expected -/
  txSeq : Nat := 0
  rxNext : Nat := 0
  /-- the frames sent and not acknowledged, oldest first, and those that wait to be sent -/
  unacked : List (Nat × Frame) := []
  waiting : List Frame := []
  /-- the WINDOW that the far end advertised -/
  window : Nat := 256
  /-- frames received since the latest ACK -/
  owed : Nat := 0
  /-- a NAK has been sent, and the frame it asks for has not arrived -/
  nakked : Bool := false
  episode : Option Episode := none
  /-- a RET that arrived during the episode, with its reason (R281) -/
  retLater : Option Nat := none
  /-- the command whose parse waits for a completion entry, and with it the link's ingress: whether a CMD_U frame brought it, and its words (R239) -/
  stalled : Option (Bool × List Word) := none
deriving DecidableEq, Repr

/-- What a bond, or a warp or chain link, agreed (R274, R275). -/
structure Agreement where
  /-- rate and FEC -/
  rate : Nat
  fec : Bool
  /-- time by beats -/
  beat : Bool
  /-- lanes of the bond, this lane's position, and its lowest lane -/
  width : Nat
  pos : Nat
  first : Nat
  /-- the handle, and whether a spare stands in -/
  handle : Nat
  subst : Bool
deriving DecidableEq, Repr

/-- What one copy of a frame marked "repeated" says: a training set's ID16 and RATES, an ENUM that echoes the hub's, a RET's reason (R265). -/
inductive Repeated where
  | ts (id rates : Nat)
  | enum
  | ret (reason : Nat)
deriving DecidableEq, Repr

/-- What a physical lane holds on its way up (R271 to R279). -/
structure LaneRun where
  /-- the latest copy of a repeated frame received: the receiver acts on the second of two that are the same (R265) -/
  heard : Option Repeated := none
  /-- the rate code to which a retraining at an agreed rate limits its training sets (R275) -/
  limit : Nat := 0
  /-- block lock is lost while frames are carried, and has not come back (R268) -/
  lost : Bool := false
  /-- ID16 of the training sets on which it holds block lock -/
  id16 : Option Nat := none
  /-- the rates that they offer -/
  rates : Nat := 0
  /-- it may not train: an offer was refused less than 100 ms ago (R276) -/
  hold : Bool := false
  /-- the far end's capability word, its two data blocks -/
  cap : Option (Nat × Nat) := none
  agreed : Option Agreement := none
  /-- SUBSTITUTE names it as the lane to be replaced (R278) -/
  replaced : Bool := false
  /-- the equaliser's taps in force, CTLE and DFE1 to DFE8 (R220) -/
  taps : List Int := []
  /-- the ends that have sent RET -/
  retHub : Bool := false
  retFar : Bool := false
deriving DecidableEq, Repr

/-- A function's mailbox for partner control (R285, R286). -/
structure Mailbox where
  /-- the partner of the message in progress -/
  dest : Option Nat := none
  /-- the 10 ms after a TIMEOUT run -/
  late : Bool := false
  /-- the messages received, oldest first: the sender and its data block -/
  rx : List (Nat × Word × Word) := []
deriving DecidableEq, Repr

/-! ## What leaves the hub -/

/-- Something the hub sends: a frame on physical lane `p`, an interrupt message, or a reply to a bus. The record `State.sent`, newest first,
is the model's own (DESIGN CHOICE, log entry 6). -/
inductive Sent where
  /-- a sequenced frame, with its FSEQ -/
  | frame (p seq : Nat) (f : Frame)
  | ack (p seq : Nat) (nak : Bool)
  /-- a training set and an align marker (R265) -/
  | ts (p rates lane : Nat) (ready : Bool) (id16 : Nat)
  | aln (p aseq : Nat) (echo : Bool)
  | cap (p d1 d2 : Nat)
  | enum (p handle basket chain beatExp : Nat)
  | ret (p reason : Nat)
  | sync (p : Nat) (m : SyncMsg)
  | delayReq (p seq : Nat)
  | delayResp (p seq turn : Nat)
  | beat (p q st be arrive : Nat)
  /-- an MSI-X message: function and vector (R341) -/
  | msix (f v : Nat)
  /-- an in-band interrupt with its mandatory data byte (R357) -/
  | ibi (b : Nat)
  /-- the data of a read by master `m` -/
  | readData (m : Nat) (v : Word)
  /-- a poisoned completion of a read by master `m` (R338), and one as Unsupported Request (R338, R345) -/
  | poisoned (m : Nat)
  | unsupported (m : Nat)
  /-- bytes that the sideband returns, least significant first, as a number, with their count (R353 to R355) -/
  | sbData (n v : Nat)
  /-- what the TAP shifts out of a data register of `n` bits (R438) -/
  | tdo (n v : Nat)
deriving DecidableEq, Repr

/-! ## The state -/

/-- The hub. -/
structure State where
  /-- the registers that differ from their reset values, by key, ascending (R14, R17; DESIGN CHOICE, log entry 4) -/
  regs : List (Nat × Word) := []
  /-- the stores of the indirect space that differ from what they read unwritten, by address, ascending (R26, R450) -/
  mem : List Host.Cell := []
  /-- the commands that wait, first in, first out -/
  pending : List Instr := []
  /-- the elapsed time of R371 in units of 2^-40 LSB of the tally, and in LSBs of 2^-48 s -/
  fine : Nat := 0
  elapsed : Nat := 0
  /-- how many free values have been taken: the model's own (DESIGN CHOICE, log entry 3) -/
  freeCtr : Nat := 0
  /-- what has left the hub, newest first: the model's own (DESIGN CHOICE, log entry 6) -/
  sent : List Sent := []
  hrt : Hearth := {}
  rims : List (Nat × Rim) := []
  strands : List (Nat × Strand) := []
  tal : Tally := {}
  /-- the hops, in the order in which they entered (R148) -/
  hops : List Hop := []
  /-- how many hops have armed, and the number of the next command -/
  armCtr : Nat := 0
  nextId : Nat := 0
  /-- the completion entries reserved and not yet written, by basket (R239) -/
  resv : List (Nat × Nat) := []
  /-- a PF reset has reset the completion rings, and the keeper has not reattached since (R257) -/
  cplHeld : Bool := false
  /-- the grants within reservation and the latest grant, by 4 * basket + class (R248, R253) -/
  grants : List (Nat × List Nat) := []
  lastGrant : List (Nat × Option Nat) := []
  /-- how many commands have been granted, and the basket to which the latest grant beyond reservation of each class went on each bank, by
  4 * bank + class (R247, R248) -/
  grantCtr : Nat := 0
  turn : List (Nat × Nat) := []
  /-- the addresses of the words whose ECC is beyond correction (R402, R428) -/
  eccBad : List Nat := []
  col : Collector := {}
  /-- the FAULTS records of the plan in force (R299, R373) -/
  faultsRecs : List FaultsRec := []
  spokes : List (Nat × Spoke) := []
  reeds : List (Nat × ReedRun) := []
  units : List (Nat × CalUnit) := []
  tdc : List (Nat × TdcTable) := []
  /-- the rim word at which each cell's FRESH gain was taken, by 3 * strand + cell (R232) -/
  freshWord : List (Nat × Nat) := []
  /-- what the values of a cell that a run not accepted has loaded were taken at, by 3 * strand + cell (R221, R224) -/
  cellCal : List (Nat × Option CellCal) := []
  /-- the 16-bit LFSR of each wale, which picks the rim phases of a sweep (R212; DESIGN CHOICE, log entry 102) -/
  lfsr : List (Nat × Nat) := []
  splices : List (Nat × Splice) := []
  /-- the links by their lowest physical lane, the lanes' training, the mailboxes by function, and the partner control messages that wait for
  their ACK, oldest first: partner and function -/
  links : List (Nat × Link) := []
  lanes : List (Nat × LaneRun) := []
  boxes : List (Nat × Mailbox) := []
  pctl : List (Nat × Nat) := []
  spliceWait : List Nat := []
  wear : Wear := {}
  wearStrands : List Nat := []
  /-- the plan in force (R289) -/
  plan : Option Plan := none
  load : Load := {}
  /-- the strands that have still to take the move or the stop of a partial reweave (R312) -/
  moving : List Nat := []
  /-- the strands and logical rims whose wear requests found no free spare, or wait for their turn (R421) -/
  wearWait : List Nat := []
  rimWearWait : List Nat := []
  host : HostIf := {}
  /-- the wide holding buffers, by master (R349) -/
  bufs : List (Nat × WideBuf) := []
  /-- the words of wide values that a read of their lowest word has latched, by register (R349) -/
  latched : List (Nat × Word) := []
  /-- the operands that write-only registers hold for the commands that take them, by register -/
  opnds : List (Nat × Word) := []
  /-- the MSI-X messages held, each its PBA bit: function, vector and source (R341, R455, R456) -/
  held : List (Nat × Nat × Nat) := []
  snaps : List (Nat × Snap) := []
  sb : Sideband := {}
  keeper : Keeper := {}
  pwr : Power := {}
  lc : LifeCycle := {}
  tap : Tap := {}
  /-- the NVM slots, by 16 * group + slot: groups 1 to 4 calibration, 5 boot plans, 6 markers, 7 repair map (R229, R307, R391, R416) -/
  nvm : List (Nat × NvmSlot) := []
  nvmRun : Option NvmJob := none
  /-- the groups other than calibration whose writes wait for the writer, first come first -/
  nvmQueue : List Nat := []
  /-- the macro entries and the fresh VCO codes of the repair map's body, by body offset (R416) -/
  repair : List Host.Cell := []
  /-- the words of the fuse array that have a blown bit (R430) -/
  fuses : List (Nat × Word) := []
  /-- the allocated rings, and the function whose doorbell each host ring last accepted (R235, R207) -/
  rings : List Nat := []
  dbFrom : List (Nat × Nat) := []
  /-- the fetch capacity C of R251, in thousand profiles/s, and the reservations withdrawn, the latest first: a basket's TIMED one, or 64 for every
  BULK and MAINT one -/
  cap : Nat := 12000000
  withdrawn : List Nat := []
deriving DecidableEq, Repr

/-- Nothing the spec describes stops the hub: no meaning ends in a fault. -/
inductive Fault where
deriving DecidableEq, Repr

/-- Why the model answers no next state. -/
inductive Refusal where
  /-- raised by an arm of `exec` whose command has no meaning yet; safe -/
  | notModelled (mnemonic : String)

deriving DecidableEq, Repr

/-- What a meaning answers. -/
abbrev Out := Host.Outcome State Fault Refusal

/-- The hub right after cold reset: every register at its reset value, the stores as start-up leaves them, and no command waiting
(DESIGN CHOICE, log entry 13). State without a
register is at rest (DESIGN CHOICE, log entry 84). -/
def State.reset : State := {}


end Sys2Proof.Machine
end

