-- ==== Sys2Proof/Machine/Ops.lean ====
section
/-! DEFINITION. The named operations over registers, the stores, and the records that the state holds beside them. -/

namespace Sys2Proof.Machine

/-! ## Sparse tables -/

/-- What the table `m` holds at `k`; `d` is what a key it does not list holds. -/
def tabGet {α : Type} (d : Nat → α) : List (Nat × α) → Nat → α
  | [], k => d k
  | c :: r, k => if c.1 = k then c.2 else tabGet d r k

/-- The entry `(k, x)` put into its place in the ascending table `m`. -/
def tabIns {α : Type} (k : Nat) (x : α) : List (Nat × α) → List (Nat × α)
  | [] => [(k, x)]
  | c :: r => if k < c.1 then (k, x) :: c :: r else c :: tabIns k x r

/-- The table with `x` at `k`, and no entry there where `x` is what an unlisted key holds. -/
def tabSet {α : Type} [DecidableEq α] (d : Nat → α) (m : List (Nat × α)) (k : Nat) (x : α) : List (Nat × α) :=
  let r := m.filter fun c => c.1 ≠ k
  if x = d k then r else tabIns k x r

/-- The keys rise strictly. -/
def rising {α : Type} : List (Nat × α) → Bool
  | [] => true
  | [_] => true
  | a :: b :: r => decide (a.1 < b.1) && rising (b :: r)

/-- The canonical form: strictly rising keys and no entry that an unlisted key would hold anyway. -/
def tabWf {α : Type} [DecidableEq α] (d : Nat → α) (m : List (Nat × α)) : Bool :=
  rising m && m.all fun c => decide (c.2 ≠ d c.1)

/-! ## Registers and fields -/

/-- The word a register holds. -/
def State.reg (s : State) (a : Nat) : Word := tabGet regReset s.regs a

/-- The register `a` set to `v`. -/
def State.setReg (s : State) (a : Nat) (v : Word) : State := { s with regs := tabSet regReset s.regs a v }

/-- The `w` bits of `v` from bit `lo` up, as a number. -/
def bitsAt (v : Word) (lo w : Nat) : Nat := v.toNat / 2 ^ lo % 2 ^ w

/-- The word `v` with the `w` bits from bit `lo` up holding `x`, taken modulo their width. -/
def withBits (v : Word) (lo w x : Nat) : Word :=
  let n := v.toNat
  BitVec.ofNat 32 (n - (n / 2 ^ lo % 2 ^ w) * 2 ^ lo + (x % 2 ^ w) * 2 ^ lo)

/-- What field `f` holds. -/
def State.get (s : State) (f : Fld) : Nat := bitsAt (s.reg f.reg) f.lo f.w

/-- Field `f` set to `x`. -/
def State.put (s : State) (f : Fld) (x : Nat) : State := s.setReg f.reg (withBits (s.reg f.reg) f.lo f.w x)

/-- A one-bit field read as a flag. -/
def State.flag (s : State) (f : Fld) : Bool := s.get f == 1

/-- A flag set: an event bit, or a cause. -/
def State.raise (s : State) (f : Fld) : State := s.put f 1

/-- A flag cleared. -/
def State.lower (s : State) (f : Fld) : State := s.put f 0

/-- A flag made `b`. -/
def State.putFlag (s : State) (f : Fld) (b : Bool) : State := s.put f (if b then 1 else 0)

/-- A counter field stepped by one, staying at its highest value. -/
def State.incSat (s : State) (f : Fld) : State := s.put f (if s.get f + 1 < 2 ^ f.w then s.get f + 1 else 2 ^ f.w - 1)

/-- A counter field raised by `k`, staying at its highest value. -/
def State.addSat (s : State) (f : Fld) (k : Nat) : State := s.put f (min (s.get f + k) (2 ^ f.w - 1))

/-- A counter field stepped by one, modulo its width. -/
def State.incMod (s : State) (f : Fld) : State := s.put f (s.get f + 1)

/-- An LXG1024-H (R2, DEV_ID.VARIANT). -/
def State.small (s : State) : Bool := s.get DEV_ID_VARIANT == 1

/-- Bit `b` of the bitmap whose word `i` is register `r i`. -/
def mapBit (r : Nat → Nat) (b : Nat) : Fld := ⟨r (b / 32), b % 32, 1⟩

/-- A two's complement number of `w` bits. -/
def signed (w x : Nat) : Int := if x < 2 ^ (w - 1) then (x : Int) else (x : Int) - 2 ^ w

/-- The `w` bits that an integer leaves in two's complement. -/
def unsigned (w : Nat) (x : Int) : Nat := (x % (2 ^ w : Int)).toNat

/-- `f` applied to the state for each element in turn. -/
def eachDo {α : Type} (l : List α) (f : α → State → State) (s : State) : State := l.foldl (fun t a => f a t) s

/-! ## Time (R371) -/

/-- What a write-only register holds for the command that takes it. -/
def State.opnd (s : State) (a : Nat) : Word := tabGet (fun _ => (0 : Word)) s.opnds a

/-- `n` microseconds of elapsed time, in the tally's units of 2^-48 s. -/
def usec (n : Nat) : Nat := n * 2 ^ 48 / 1000000

/-- `n` milliseconds of elapsed time. -/
def msec (n : Nat) : Nat := n * 2 ^ 48 / 1000

/-! ## Memory of the stores (R26, R450) -/

/-- What a byte of a store that nothing has written reads as: start-up writes every SRAM location to zero (R393), but for the calibration
records, which read their defaults while nothing has been loaded into them: each record's KIND, a GAIN of 512 in every DTC cell, and the cells
0, 1 and 2 of a strand in the roles MAIN, COMP and RELIEF (R209, R226, R227; DESIGN CHOICE, log entry 18). -/
def memDefault (a : Nat) : BitVec 8 :=
  if 0x04200000 ≤ a ∧ a < 0x04200000 + 96 * 1088 then
    let o := (a - 0x04200000) % 96
    if o = 2 then 1 else if o = 21 then 0x24 else if 24 ≤ o ∧ (o - 24) % 24 = 1 then 2 else 0
  else if 0x0423A000 ≤ a ∧ a < 0x0423A000 + 128 * 256 then (if (a - 0x0423A000) % 128 = 2 then 2 else 0)
  else if 0x04242000 ≤ a ∧ a < 0x04242000 + 1088 * 20 then (if (a - 0x04242000) % 1088 = 2 then 3 else 0)
  else if 0x04248000 ≤ a ∧ a < 0x04248000 + 64 * 108 then (if (a - 0x04248000) % 64 = 2 then 4 else 0)
  else 0

/-- One byte of the stores. -/
def State.byte (s : State) (a : Nat) : BitVec 8 := tabGet memDefault s.mem a

/-- One byte of the stores written. -/
def State.setByte (s : State) (a : Nat) (v : BitVec 8) : State := { s with mem := tabSet memDefault s.mem a v }

/-- The memory is in its canonical form. -/
def Memory.wf (m : List Host.Cell) : Bool := tabWf memDefault m

/-- The 32-bit word of the stores at address `a`, little-endian (R11). -/
def State.memWord (s : State) (a : Nat) : Word :=
  BitVec.ofNat 32 ((s.byte a).toNat + 256 * (s.byte (a + 1)).toNat + 65536 * (s.byte (a + 2)).toNat + 16777216 * (s.byte (a + 3)).toNat)

/-- The 32-bit word of the stores at address `a` written, little-endian (R11). -/
def State.setMemWord (s : State) (a : Nat) (v : Word) : State :=
  let n := v.toNat
  (((s.setByte a (BitVec.ofNat 8 n)).setByte (a + 1) (BitVec.ofNat 8 (n / 256))).setByte (a + 2) (BitVec.ofNat 8 (n / 65536))).setByte
    (a + 3) (BitVec.ofNat 8 (n / 16777216))

/-! ## Outputs and free values -/

/-- Something leaves the hub. -/
def State.emit (s : State) (o : Sent) : State := { s with sent := o :: s.sent }

/-- The next free value's number, and the state that has used it up (DESIGN CHOICE, log entry 3). -/
def State.fresh (s : State) : Nat × State := (s.freeCtr, { s with freeCtr := s.freeCtr + 1 })

/-! ## Records beside the registers -/

def State.rim (s : State) (n : Nat) : Rim := tabGet (fun _ => {}) s.rims n
def State.setRim (s : State) (n : Nat) (r : Rim) : State := { s with rims := tabSet (fun _ => {}) s.rims n r }
def State.strand (s : State) (n : Nat) : Strand := tabGet (fun _ => {}) s.strands n
def State.setStrand (s : State) (n : Nat) (r : Strand) : State := { s with strands := tabSet (fun _ => {}) s.strands n r }
def State.modStrand (s : State) (n : Nat) (f : Strand → Strand) : State := s.setStrand n (f (s.strand n))
def State.modRim (s : State) (n : Nat) (f : Rim → Rim) : State := s.setRim n (f (s.rim n))

end Sys2Proof.Machine
end

