-- ==== Sys2Proof/Machine/CalRecords.lean ====
section
/-! DEFINITION. The calibration records: where they lie, their fields, and what they make of a DTC code (R209, R210, R225 to R228). Every record
lies in the calibration workspace, at the address of R225. -/

namespace Sys2Proof.Machine

/-- The record of the calibration workspace in which an address lies (R225). -/
def recordAt (a : Nat) : Option Nat :=
  if 0x04200000 ≤ a ∧ a < 0x04200000 + 96 * 1088 then some (a - (a - 0x04200000) % 96)
  else if 0x0423A000 ≤ a ∧ a < 0x0423A000 + 128 * 256 then some (a - (a - 0x0423A000) % 128)
  else if 0x04242000 ≤ a ∧ a < 0x04242000 + 1088 * 20 then some (a - (a - 0x04242000) % 1088)
  else if 0x04248000 ≤ a ∧ a < 0x04248000 + 64 * 108 then some (a - (a - 0x04248000) % 64)
  else none

/-- STORED of the record at `a` (R226). -/
def recStored (a : Nat) : Fld := ⟨a + 4, 16, 1⟩

/-- A field of the stores' words: as a register's, at an address of the indirect space. -/
def State.mget (s : State) (f : Fld) : Nat := bitsAt (s.memWord f.reg) f.lo f.w

/-- Such a field set to `x`. A calibration record that changes is no longer as the NVM holds it: its STORED clears (R231). -/
def State.mput (s : State) (f : Fld) (x : Nat) : State :=
  let w := withBits (s.memWord f.reg) f.lo f.w x
  let t := s.setMemWord f.reg w
  match recordAt f.reg with
  | some a => if w ≠ s.memWord f.reg ∧ f ≠ recStored a then t.setMemWord (a + 4) (withBits (t.memWord (a + 4)) 16 1 0) else t
  | none => t

/-! ## Where the records lie (R225 to R228) -/

def recStrand (phys : Nat) : Nat := 0x04200000 + 96 * phys
def recTdc (w : Nat) : Nat := 0x0421A000 + 0x800 * w
def recReed (n : Nat) : Nat := 0x0423A000 + 128 * n
def recRim (p : Nat) : Nat := 0x04242000 + 1088 * p
def recLane (p : Nat) : Nat := 0x04248000 + 64 * p
def recUnit (u : Nat) : Nat := 0x0424A000 + 16 * u
def recSeq (a : Nat) : Fld := ⟨a, 0, 16⟩
def recState (a : Nat) : Fld := ⟨a, 20, 2⟩
def recResult (a : Nat) : Fld := ⟨a, 22, 2⟩
def recCheck (a : Nat) : Fld := ⟨a, 24, 8⟩
def recTj (a : Nat) : Fld := ⟨a + 4, 0, 16⟩
def recExpAge (a : Nat) : Fld := ⟨a + 4, 17, 1⟩
def recExpTj (a : Nat) : Fld := ⟨a + 4, 18, 1⟩
def recExpFreq (a : Nat) : Fld := ⟨a + 4, 19, 1⟩
def recWear (a : Nat) : Fld := ⟨a + 4, 20, 1⟩
def recOptime (a : Nat) : Fld := ⟨a + 8, 0, 32⟩
def recQuality (a lo w : Nat) : Fld := ⟨a + 12, lo, w⟩
/-- The rim frequency word of a strand's or a reed's record. -/
def recFreqF (a : Nat) : Fld := ⟨a + 16, 0, 32⟩
def recFreqN (a : Nat) : Fld := ⟨a + 20, 0, 4⟩
def roleMain (phys : Nat) : Fld := ⟨recStrand phys + 20, 8, 2⟩
def roleComp (phys : Nat) : Fld := ⟨recStrand phys + 20, 10, 2⟩
def roleRelief (phys : Nat) : Fld := ⟨recStrand phys + 20, 12, 2⟩
/-- Cell `k` of a physical strand: W(6 + 6k) to W(11 + 6k) (R227). -/
def cellAt (phys k : Nat) : Nat := recStrand phys + 24 + 24 * k
def cellGain (a : Nat) : Fld := ⟨a, 0, 10⟩
def cellOffset (a : Nat) : Fld := ⟨a, 16, 8⟩
def cellState (a : Nat) : Fld := ⟨a, 24, 2⟩
def cellBp (a j : Nat) : Fld := ⟨a + 4 + 4 * (j / 4), 8 * (j % 4), 8⟩
def cellFresh (a : Nat) : Fld := ⟨a + 20, 8, 10⟩
def cellInl (a : Nat) : Fld := ⟨a + 20, 18, 14⟩

/-! ## What drives a DTC (R209, R210) -/

/-- A cell as it drives edges: OFFSET and the 17 breakpoints (R209). -/
structure DtcCell where
  offset : Int := 0
  bp : List Int := []
deriving DecidableEq, Repr

/-- corr8 of R210. -/
def corr8 (c : Nat) (bp : List Int) : Int :=
  let j := c / 16
  let r : Int := c % 16
  (bp.getD j 0 * (16 - r) + bp.getD (j + 1) 0 * r + 8) / 16

/-- The control word with which a cell is driven that places DTC code `c`, in eighth-steps (R210). -/
def DtcCell.word (x : DtcCell) (c : Nat) : Int := 8 * ((c : Int) + 160 + x.offset) + corr8 c x.bp

/-- Cell `c` of physical strand `phys` as its record holds it (R209, R227). -/
def State.dtcCell (s : State) (phys c : Nat) : DtcCell :=
  let a := cellAt phys c
  { offset := signed 8 (s.mget (cellOffset a))
    bp := (List.range 17).map fun j => signed 8 (s.mget (if j = 16 then ⟨a + 20, 0, 8⟩ else cellBp a j)) }

end Sys2Proof.Machine
end

