-- ==== Sys2Proof/Machine/LinkOps.lean ====
section
/-! DEFINITION. Links and bonds: which lanes make one, and how sequenced frames leave (R259 to R269, R277). -/

namespace Sys2Proof.Machine

/-- The phases of R271. -/
def lDETECT : Nat := 0
def lTRAIN : Nat := 1
def lALIGN : Nat := 2
def lNEGOTIATE : Nat := 3
def lENUMERATE : Nat := 4
def lACTIVE : Nat := 5
def lRETIRE : Nat := 6
def lOFF : Nat := 7

def State.phase (s : State) (p : Nat) : Nat := s.get (LANE_STATUS_PHASE p)
def State.link (s : State) (l : Nat) : Link := tabGet (fun _ => {}) s.links l
def State.setLink (s : State) (l : Nat) (x : Link) : State := { s with links := tabSet (fun _ => {}) s.links l x }
def State.lane (s : State) (p : Nat) : LaneRun := tabGet (fun _ => {}) s.lanes p
def State.setLane (s : State) (p : Nat) (x : LaneRun) : State := { s with lanes := tabSet (fun _ => {}) s.lanes p x }

/-- The link of lane `p`, by its lowest physical lane: the bond's for a partner's lane (R277). -/
def State.linkOf (s : State) (p : Nat) : Nat :=
  let h := s.get (LANE_STATUS_HANDLE p)
  if h < 96 then s.get (LANE_PTN_STATUS_FIRST h) else p

/-- The lanes of the link that lane `p` belongs to. -/
def State.linkLanes (s : State) (p : Nat) : List Nat :=
  let h := s.get (LANE_STATUS_HANDLE p)
  if h < 96 then (List.range 108).filter fun q => s.get (LANE_STATUS_HANDLE q) == h else [p]

/-- A lane is ACTIVE (R271). -/
def State.laneActive (s : State) (p : Nat) : Bool := s.phase p == lACTIVE

/-- Sequenced frames pass on lane `p`: it is ACTIVE or in RETIRE (R261). -/
def State.laneCarries (s : State) (p : Nat) : Bool := s.phase p == lACTIVE || s.phase p == lRETIRE

/-- A frame may be opened now: in RETIRE only a completion (R279), on a chain link none while it replays (R282), and never more than the lesser
of 256 and WINDOW unacknowledged (R268). -/
def State.mayOpen (s : State) (l : Nat) (x : Link) (f : Frame) : Bool :=
  decide (x.unacked.length < min 256 x.window) && !((l == 2 || l == 3) && x.episode.isSome) &&
    (s.laneActive l || (s.phase l == lRETIRE && match f with | .cpl _ _ => true | _ => false))

/-- One frame leaves on link `l`, numbered, and is kept until it is acknowledged (R268). -/
def openFrame (l : Nat) (f : Frame) (s : State) : State :=
  let x := s.link l
  (s.setLink l { x with txSeq := (x.txSeq + 1) % 4096, unacked := x.unacked ++ [(x.txSeq, f)] }).emit (.frame l x.txSeq f)

/-- The rank of a sequenced frame (R261). -/
def Frame.rank : Frame → Nat
  | .credit _ _ _ _ => 1
  | .cmd true _ => 2
  | .cmd false _ | .cpl _ _ | .pctl _ _ => 3

/-- Frame `f` among those that wait: ahead of every one of lower rank, behind the others (R263). -/
def rankIn (f : Frame) (l : List Frame) : List Frame :=
  l.takeWhile (fun g => decide (g.rank ≤ f.rank)) ++ f :: l.dropWhile fun g => decide (g.rank ≤ f.rank)

/-- The frames that wait on link `l` leave in their order, those that may; at most `n` of them (R263, R268, R279). -/
def drainLink : Nat → Nat → State → State
  | 0, _, s => s
  | n + 1, l, s =>
    match (s.link l).waiting.find? (s.mayOpen l (s.link l)) with
    | some f => drainLink n l (openFrame l f (s.setLink l { (s.link l) with waiting := (s.link l).waiting.erase f }))
    | none => s

/-- Every frame that waits on link `l` and may leave does. -/
def drain (l : Nat) (s : State) : State := drainLink (s.link l).waiting.length l s

/-- A sequenced frame is to leave on link `l`: it takes its place by rank among those that wait (R263). -/
def sendFrame (l : Nat) (f : Frame) (s : State) : State := drain l (s.setLink l { (s.link l) with waiting := rankIn f (s.link l).waiting })

/-- Blocks of lane `p` are parsed: it carries frames, and its ingress does not wait for a completion entry (R239, R261). -/
def State.parses (s : State) (p : Nat) : Bool := s.laneCarries p && (s.link (s.linkOf p)).stalled.isNone

/-- The lane that a command source feeds its rings from: 0xF0 and 0xF1 are the warp lanes, below 96 a partner's bond (RING_SRC). -/
def State.sourceLane (s : State) (f : Nat) : Nat := if f = 0xF0 then 0 else if f = 0xF1 then 1 else s.get (LANE_PTN_STATUS_FIRST f)

/-- The lane of source `f` is ACTIVE. -/
def State.sourceActive (s : State) (f : Nat) : Bool :=
  if f = 0xF0 then s.laneActive 0 else if f = 0xF1 then s.laneActive 1
  else decide (f < 96) && s.flag (LANE_PTN_STATUS_PRESENT f) && s.laneActive (s.get (LANE_PTN_STATUS_FIRST f))

end Sys2Proof.Machine
end

