-- ==== Sys2Proof/Machine/Operands.lean ====
section
/-! DEFINITION. The fields of commands, and what becomes of a command: completions, rings and slots (R141 to R148, R161, R234 to R245). -/

namespace Sys2Proof.Machine

/-! ## The fields of a command (R141) -/

def cmdOp (w0 : Word) : Nat := bitsAt w0 0 4
def cmdClass (w0 : Word) : Nat := bitsAt w0 4 2
def cmdSpec (w0 : Word) : Bool := bitsAt w0 6 1 == 1
def cmdReply (w0 : Word) : Nat := bitsAt w0 8 2
def cmdChain (w0 : Word) : Nat := bitsAt w0 10 3
def cmdAllChain (w0 : Word) : Bool := bitsAt w0 13 1 == 1
def cmdBasket (w0 : Word) : Nat := bitsAt w0 14 6
def cmdTarget (w0 : Word) : Nat := bitsAt w0 20 10
def cmdProfile (w1 : Word) : Nat := bitsAt w1 0 20
def cmdTag (w1 : Word) : Nat := bitsAt w1 20 12
def Hop.op (h : Hop) : Nat := cmdOp h.w0
def Hop.cls (h : Hop) : Nat := cmdClass h.w0
def Hop.spec (h : Hop) : Bool := cmdSpec h.w0
def Hop.basket (h : Hop) : Nat := cmdBasket h.w0
def Hop.target (h : Hop) : Nat := cmdTarget h.w0
def Hop.tag (h : Hop) : Nat := cmdTag h.w1
def Hop.timed (h : Hop) : Bool := h.cls == 1
/-- The logical rim that a RETUNE names: bits 23:20 of W0. -/
def Hop.rim (h : Hop) : Nat := bitsAt h.w0 20 4
/-- The hop holds an arm slot (R245). -/
def Hop.slot (h : Hop) : Bool := h.st != .queued

/-! ## Completions (R145, R148, R161) -/

/-- The four words of a completion (R161). -/
def cplWords (w0 w1 : Word) (code detail edge : Nat) : List Word :=
  [ BitVec.ofNat 32 (code + 256 * detail + 65536 * cmdOp w0 + 1048576 * cmdClass w0 + (if cmdSpec w0 then 4194304 else 0) + 16777216 * cmdBasket w0),
    w1,
    BitVec.ofNat 32 (edge % 2 ^ 32),
    BitVec.ofNat 32 (edge / 2 ^ 32 % 2 ^ 16 + 65536 * cmdTarget w0) ]

/-- The depth of ring `r` (R235). -/
def State.ringDepth (s : State) (r : Nat) : Nat := 2 ^ s.get (RING_DESC1_DEPTH_EXP r)

/-- The entries between CONS and PROD of ring `r` (R236). -/
def State.ringUsed (s : State) (r : Nat) : Nat := (s.get (RING_PROD_IDX r) + 2 ^ 17 - s.get (RING_CONS_IDX r)) % 2 ^ 17

/-- The address in the indirect space of the entry for index `i` of ring `r` (R236, R450). -/
def State.ringEntry (s : State) (r i : Nat) : Nat := 0x14000000 + 16 * (s.get (RING_DESC0_BASE r) + i % s.ringDepth r)

/-- The four words of an entry stored from address `a` up. -/
def storeEntry (a : Nat) (ws : List Word) (s : State) : State :=
  eachDo ((List.range 4).map fun i => (a + 4 * i, ws.getD i 0)) (fun p t => t.setMemWord p.1 p.2) s

/-- The four words of the entry at address `a`. -/
def State.loadEntry (s : State) (a : Nat) : List Word := (List.range 4).map fun i => s.memWord (a + 4 * i)

/-- The completion entries reserved and not yet written, in basket `b` (R239). -/
def State.reservedOf (s : State) (b : Nat) : Nat := tabGet (fun _ => 0) s.resv b

def State.setReserved (s : State) (b k : Nat) : State := { s with resv := tabSet (fun _ => 0) s.resv b k }

/-- A completion entry can be reserved in basket `b`: its ring has room beside what is reserved already (R239). -/
def State.canReserve (s : State) (b : Nat) : Bool :=
  decide (s.ringUsed (s.get (RING_BSK_CPL_RING b)) + s.reservedOf b < s.ringDepth (s.get (RING_BSK_CPL_RING b)))

/-- One completion written into basket `b`'s completion ring, at PROD, in the entry reserved for it; DEV_CPL_EVT shows it to
the PF and to the basket's VF (R239, DEV_CPL_EVT). -/
def cplToRing (b : Nat) (ws : List Word) (s : State) : State :=
  let r := s.get (RING_BSK_CPL_RING b)
  let i := s.get (RING_PROD_IDX r)
  let t := (storeEntry (s.ringEntry r i) ws s).put (RING_PROD_IDX r) (i + 1)
  ((t.setReserved b (t.reservedOf b - 1)).raise (mapBit (DEV_CPL_EVT 0) b)).raise (mapBit (DEV_CPL_EVT (b + 1)) b)

/-- One completion sent on lane `p`, or discarded and counted where the lane is not ACTIVE (R145). -/
def cplToLane (p b : Nat) (ws : List Word) (s : State) : State :=
  if s.laneActive p then sendFrame p (.cpl (s.get TAL_STATUS_CHAIN_POS) ws) s else s.incSat (RING_BSK_CNT0_CPL_DISC b)

/-- The completion ring of basket `b` has been reset by a PF reset and waits for the keeper to reattach (R257). -/
def State.cplReset (s : State) : Bool := s.cplHeld

/-- A completion of a command goes to every place that REPLY names for its code (R141, R145): one entry only for a host command.
`viaRing` says that an entry of the basket's ring is reserved for it. -/
def writeCpl (src : CmdSrc) (viaRing : Bool) (w0 w1 : Word) (code detail edge : Nat) (s : State) : State :=
  let ws := cplWords w0 w1 code detail edge
  let b := cmdBasket w0
  let rep := cmdReply w0
  match src with
  | .host r =>
    -- the completion ring of the basket that owns the host ring (R145, R240)
    let hb := s.get (RING_DESC1_BASKET r)
    if viaRing then cplToRing hb ws s else s
  | .lane p =>
    let toRing := rep != 1
    let toLane := rep == 1 || rep == 2 || (rep == 3 && code != 1)
    let t := if toRing && viaRing then
        (if s.cplHeld then
          (if code = 5 then s.incSat (RING_BSK_CNT0_ABORT_NW b) else s.incSat (RING_BSK_CNT0_CPL_DISC b)).setReserved b (s.reservedOf b - 1)
         else cplToRing b ws s)
      else s
    if toLane then cplToLane p b ws t else t

/-- RING_BSK_ARM and RING_ARM_TOTAL count the slots held, and their peaks follow (R245). -/
def countSlots (b : Nat) (s : State) : State :=
  let all := s.hops.filter Hop.slot
  let mine := all.filter fun h => h.basket == b
  let urg := mine.filter fun h => h.cls == 0
  let t := ((s.put (RING_BSK_ARM_HELD b) mine.length).put (RING_BSK_ARM_URG_HELD b) urg.length).put RING_ARM_TOTAL_HELD all.length
  let t := if t.get (RING_BSK_PEAK_PEAK b) < mine.length then t.put (RING_BSK_PEAK_PEAK b) mine.length else t
  if t.get RING_ARM_TOTAL_PEAK < all.length then t.put RING_ARM_TOTAL_PEAK all.length else t

/-- The hop with number `i`. -/
def State.hop? (s : State) (i : Nat) : Option Hop := s.hops.find? fun h => h.id == i

/-- Hop `i` changed by `f`. -/
def State.modHop (s : State) (i : Nat) (f : Hop → Hop) : State :=
  { s with hops := s.hops.map fun h => if h.id = i then f h else h }

/-- The oldest hop still in ring `r`. -/
def State.ringHead? (s : State) (r : Nat) : Option Hop := s.hops.find? fun h => h.ring == r && h.st == .queued

/-- An entry leaves ring `r`: CONS moves, and a lane source that is ACTIVE is owed its credit again (R236, R241, R257). -/
def leaveRing (h : Hop) (s : State) : State :=
  let t := s.put (RING_CONS_IDX h.ring) (s.get (RING_CONS_IDX h.ring) + 1)
  match h.feed with
  | some f => eachDo (List.range 6) (fun j u => if u.get (RING_SRC_SRC h.ring j) = f ∧ u.sourceActive f then u.addSat (RING_SRC_OUT_OWED h.ring j) 1 else u) t
  | none => t

/-- Hop `h` completes: its one completion is written, and its slot and tag are freed at that moment (R148). -/
def completeHop (h : Hop) (code detail edge : Nat) (s : State) : State :=
  let t := { s with hops := s.hops.filter fun x => x.id != h.id }
  countSlots h.basket (writeCpl h.src h.reserved h.w0 h.w1 code detail edge t)

/-- Hop `h`, QUEUED in its ring, completes as it leaves the ring; its entry is reserved then (R239). -/
def completeQueued (h : Hop) (code detail edge : Nat) (s : State) : State :=
  let need := !h.reserved && cmdReply h.w0 != 1
  let t := if need then s.setReserved h.basket (s.reservedOf h.basket + 1) else s
  completeHop { h with reserved := h.reserved || need } code detail edge (leaveRing h t)

/-- The completion codes of R162. -/
def cCOMMITTED : Nat := 0x01
def cMISSED : Nat := 0x02
def cSQUASHED : Nat := 0x03
def cSUPERSEDED : Nat := 0x04
def cABORTED : Nat := 0x05
def cLINK_ERR : Nat := 0x06
def cTIMEOUT : Nat := 0x07
def cNOT_READY : Nat := 0x08
def cRETUNE_FAIL : Nat := 0x09
def cBAD_CMD : Nat := 0x10
def cREJ_SOURCE : Nat := 0x11
def cREJ_TARGET : Nat := 0x12
def cBAD_PROFILE : Nat := 0x13
def cBAD_RAMP : Nat := 0x14
def cTAG_BUSY : Nat := 0x15
def cTAG_UNKNOWN : Nat := 0x16
def cSQUASH_LATE : Nat := 0x17

/-- A hop ended by an event must wait in its ring: it needs a completion entry and none is free, or one before it waits for one (R239). -/
def State.abortWaits (s : State) (h : Hop) : Bool :=
  h.st == .queued &&
    ((!h.reserved && (match h.src with | .host _ => true | .lane _ => cmdReply h.w0 != 1) && !s.canReserve h.basket) ||
      (match s.ringHead? h.ring with | some g => g.aborting && g.id != h.id | none => false))

/-- The completion of hop `h` goes to its basket's completion ring. -/
def Hop.toRing (h : Hop) : Bool := match h.src with | .host _ => true | .lane _ => cmdReply h.w0 != 1

/-- The entry of the completion ring that an aborted hop had or needs: where the event resets the ring (`nw`) it is given back and the completion counted,
and otherwise a hop without one reserves it (R239, R257). -/
def abortEntry (nw : Bool) (h : Hop) (s : State) : State :=
  if !h.toRing then s
  else if nw then (if h.reserved then s.setReserved h.basket (s.reservedOf h.basket - 1) else s).incSat (RING_BSK_CNT0_ABORT_NW h.basket)
  else if h.reserved then s
  else s.setReserved h.basket (s.reservedOf h.basket + 1)

/-- The completion ABORTED of a hop: where the event resets its ring, only one for a lane is sent (R168, R257). -/
def abortReply (nw : Bool) (h : Hop) (s : State) : State :=
  if !nw then writeCpl h.src true h.w0 h.w1 cABORTED 0 0 s
  else match h.src with
    | .host _ => s
    | .lane p => if cmdReply h.w0 != 0 then cplToLane p h.basket (cplWords h.w0 h.w1 cABORTED 0 0) s else s

/-- A hop is no more: it has left the hops, and no rim retunes for it. -/
def dropHop (h : Hop) (s : State) : State :=
  eachDo (List.range 16) (fun n t => if (t.rim n).retuneHop = some h.id then t.modRim n fun r => { r with retuneHop := none } else t)
    { s with hops := s.hops.filter fun x => x.id != h.id }

/-- A hop ends ABORTED (R168). `nw` says that its completion ring is reset by the event. A QUEUED one whose entry cannot be reserved waits for it at the head
of its ring (R239). -/
def abortHop (nw : Bool) (h : Hop) (s : State) : State :=
  if !nw && s.abortWaits h then s.modHop h.id fun x => { x with aborting := true }
  else countSlots h.basket (abortReply nw h (abortEntry nw h (dropHop h (if h.st = .queued then leaveRing h s else s))))

/-- Every hop that `p` picks ends ABORTED, in the order in which they entered (R168; DEDUCED, log entry 66). -/
def abortHops (nw : Bool) (p : Hop → Bool) (s : State) : State := eachDo (s.hops.filter p) (abortHop nw) s

/-! ## CRC-32C (R229, R294) -/

/-- One step of the CRC-32C, reflected (R229). -/
def crcBit (c : Nat) : Nat := if c % 2 = 1 then Nat.xor (c / 2) 0x82F63B78 else c / 2
def crcByte (c b : Nat) : Nat := (List.range 8).foldl (fun x _ => crcBit x) (Nat.xor c b)
def crcWord (c : Nat) (w : Word) : Nat := (List.range 4).foldl (fun x i => crcByte x (bitsAt w (8 * i) 8)) c

/-- The CRC-32C of bytes, with initial value and final XOR 0xFFFF_FFFF (R229). -/
def crcBytes (l : List Nat) : Nat := Nat.xor (l.foldl crcByte 0xFFFFFFFF) 0xFFFFFFFF

/-- The CRC-32C of words as bytes, least significant first (R229, R294). -/
def crc32c (ws : List Word) : Nat := Nat.xor (ws.foldl crcWord 0xFFFFFFFF) 0xFFFFFFFF

end Sys2Proof.Machine
end

