-- ==== Sys2Proof/Machine/Flags.lean ====
section
/-! DEFINITION. Who owns what, what holds a spoke parked, and what a strand is not ready for (R20 to R22, R127, R172 to R178). -/

namespace Sys2Proof.Machine

/-! ## Who owns what in the plan in force (R20, R22, R172, R318) -/

/-- The wale of logical strand `n` (R19). -/
def waleOf (n : Nat) : Nat := n / 16

/-- The logical rim that times a wale, where the plan binds it. -/
def State.waleRim (s : State) (w : Nat) : Option Nat :=
  if s.flag (WAL_BIND_BOUND w) then some (s.get (WAL_BIND_RIM w)) else none

/-- The wales bound to logical rim `r`, in ascending number. -/
def State.rimWales (s : State) (r : Nat) : List Nat := (List.range 64).filter fun w => s.waleRim w == some r

/-- The bound strands of a wale, in ascending number. -/
def State.waleStrands (s : State) (w : Nat) : List Nat :=
  ((List.range 16).map fun j => 16 * w + j).filter fun n => (s.strand n).bound

/-- The bound strands that logical rim `r` times. -/
def State.rimStrands (s : State) (r : Nat) : List Nat := (s.rimWales r).flatMap s.waleStrands

/-- The basket that owns a strand's wale. -/
def State.strandBasket (s : State) (n : Nat) : Option Nat :=
  if s.flag (WAL_BIND_BOUND (waleOf n)) then some (s.get (WAL_BIND_BASKET (waleOf n))) else none

/-- The baskets that own a wale on logical rim `r`. -/
def State.rimBaskets (s : State) (r : Nat) : List Nat :=
  (List.range 64).filter fun b => (s.rimWales r).any fun w => s.get (WAL_BIND_BASKET w) == b

/-- The baskets with at least one bound strand (R62). -/
def State.boundBaskets (s : State) : List Nat :=
  (List.range 64).filter fun b =>
    (List.range 64).any fun w =>
      s.flag (WAL_BIND_BOUND w) && (s.get (WAL_BIND_BASKET w) == b) && (s.waleStrands w != [])

/-- The strand that drives spoke `n`, where the plan routes one (R172). -/
def State.spokeStrand (s : State) (n : Nat) : Option Nat :=
  if s.flag (SPK_CFG_ROUTED n) then some (256 * (n / 64) + s.get (SPK_CFG_STRAND n)) else none

/-- The spokes that strand `k` drives: spokes of its own quadrant only (R22). -/
def State.strandSpokes (s : State) (k : Nat) : List Nat :=
  ((List.range 64).map fun j => 64 * (k / 256) + j).filter fun n => s.spokeStrand n == some k

/-- The spokes of a basket. -/
def State.basketSpokes (s : State) (b : Nat) : List Nat :=
  (List.range 256).filter fun n => s.flag (SPK_CFG_ROUTED n) && (s.get (SPK_CFG_BASKET n) == b)

/-! ## Parking a spoke (R174 to R177) -/

/-- The causes that hold spoke `n` PARKED, as a number of 12 bits. -/
def State.spokeCauses (s : State) (n : Nat) : Nat := bitsAt (s.reg (SPK_STATUS n)) 4 12

/-- Spoke `n` counts as PARKED: PARKED or RELEASING (R176). -/
def State.spokeParked (s : State) (n : Nat) : Bool :=
  s.get (SPK_STATUS_STATE n) == 0 || s.get (SPK_STATUS_STATE n) == 3

/-- The strand of spoke `n` runs. -/
def State.spokeRuns (s : State) (n : Nat) : Bool :=
  match s.spokeStrand n with
  | some k => s.flag (STR_STATUS_RUN k)
  | none => false

/-- Cause `c` is set on spoke `n`, which parks it: an entry into PARKED is counted and reported, and RELEASING returns to
PARKED without one, since it still counted as PARKED (R174, R176; DEDUCED, log entry 21). -/
def parkSpoke (c : Nat → Fld) (n : Nat) (s : State) : State :=
  let t := (s.raise (c n)).put (SPK_STATUS_STATE n) 0
  if s.spokeParked n then t
  else (t.incSat (SPK_STATUS_PARKS n)).raise (mapBit SPK_PARK_EVT n)

/-- Spoke `n` leaves PARKED for state `st`, and the release is reported (R176). -/
def leaveParked (n st : Nat) (s : State) : State := (s.put (SPK_STATUS_STATE n) st).raise (mapBit SPK_REL_EVT n)

def State.spoke (s : State) (n : Nat) : Spoke := tabGet (fun _ => {}) s.spokes n
def State.setSpoke (s : State) (n : Nat) (x : Spoke) : State := { s with spokes := tabSet (fun _ => {}) s.spokes n x }

/-- What SPK_CFG(n) holds is in force on the spoke; a PATH of PARKED is with its cause (R171, R174). -/
def State.spokeCurrent (s : State) (n : Nat) : Bool :=
  (s.spoke n).path == s.get (SPK_CFG_PATH n) && (s.spoke n).swing == s.get (SPK_CFG_SWING n) &&
    (s.get (SPK_CFG_PATH n) != 0 || s.flag (SPK_STATUS_C_FW n))

/-- A cause other than PATH = PARKED holds spoke `n`: a write that waits then waits until the spoke leaves PARKED (R178). -/
def State.spokeForced (s : State) (n : Nat) : Bool := (s.lower (SPK_STATUS_C_FW n)).spokeCauses n != 0

/-- What SPK_CFG(n) holds takes effect: a PATH of PARKED sets C_FW (R171, R174). -/
def spokeApply (n : Nat) (s : State) : State :=
  let t := (s.setSpoke n ⟨s.get (SPK_CFG_PATH n), s.get (SPK_CFG_SWING n)⟩).lower (SPK_STATUS_PEND n)
  if s.get (SPK_CFG_PATH n) = 0 then parkSpoke SPK_STATUS_C_FW n t else t

/-- A write that waits at spoke `n` takes effect. -/
def spokePending (n : Nat) (s : State) : State := if s.flag (SPK_STATUS_PEND n) then spokeApply n s else s

/-- The last cause has cleared: RELEASING where the strand runs, otherwise the level of R177 at once, with a write that waited (R176, R178). -/
def releaseSpoke (n : Nat) (s : State) : State :=
  if s.spokeRuns n then s.put (SPK_STATUS_STATE n) 3
  else
    let t := spokePending n s
    if t.flag (SPK_CFG_STOP_LEVEL n) then t.raise (SPK_STATUS_C_STOP n)
    else if t.flag (SPK_STATUS_C_FW n) then t
    else leaveParked n 2 t

/-- Cause `c` clears on spoke `n`; when it was the last one held, the spoke is released (R174, R176). -/
def unparkSpoke (c : Nat → Fld) (n : Nat) (s : State) : State :=
  if s.flag (c n) then
    let t := s.lower (c n)
    if t.spokeCauses n = 0 then releaseSpoke n t else t
  else s

/-- Cause `c` set on each spoke of a list. -/
def parkSpokes (c : Nat → Fld) (l : List Nat) (s : State) : State := eachDo l (parkSpoke c) s

/-- Cause `c` cleared on each spoke of a list. -/
def unparkSpokes (c : Nat → Fld) (l : List Nat) (s : State) : State := eachDo l (unparkSpoke c) s

/-- Every spoke. -/
def allSpokes : List Nat := List.range 256

/-- The spokes of strand `k` when it stops: STOPPED or parked with C_STOP as STOP_LEVEL says (R177). A spoke already parked
shows that level once it is released. A write that waits takes effect at the last low point, unless a cause holds the spoke (R171, R178). -/
def spokeStop (n : Nat) (s : State) : State :=
  let s := if s.spokeForced n then s else spokePending n s
  if s.flag (SPK_CFG_STOP_LEVEL n) then parkSpoke SPK_STATUS_C_STOP n s
  else if s.get (SPK_STATUS_STATE n) = 1 then s.put (SPK_STATUS_STATE n) 2
  else if s.get (SPK_STATUS_STATE n) = 3 then leaveParked n 2 s
  else s

/-- The spokes of a strand at its start edge: a STOPPED spoke follows the strand, and C_STOP clears (R177). -/
def spokeStart (n : Nat) (s : State) : State :=
  if s.get (SPK_STATUS_STATE n) = 2 then s.put (SPK_STATUS_STATE n) 1 else unparkSpoke SPK_STATUS_C_STOP n s

/-! ## Readiness of a strand (R127, R128) -/

/-- One of the reasons of R127 holds for strand `n`. -/
def State.notReady (s : State) (n : Nat) : Bool :=
  s.flag (STR_STATUS_NR_RIM n) || s.flag (STR_STATUS_NR_RETUNE n) || s.flag (STR_STATUS_NR_CAL n) ||
    s.flag (STR_STATUS_NR_RES n) || s.flag (STR_STATUS_NR_PARENT n)


/-- The strands that the plan plaits onto strand `k` (R179). -/
def State.children (s : State) (k : Nat) : List Nat := (s.strands.filter fun c => c.2.parent == some k).map (·.1)


/-! ## Reed runs that a strand's happenings reach (R192, R193) -/

def State.reedRun (s : State) (n : Nat) : ReedRun := tabGet (fun _ => {}) s.reeds n
def State.setReedRun (s : State) (n : Nat) (r : ReedRun) : State := { s with reeds := tabSet (fun _ => {}) s.reeds n r }

def eIDLE : Nat := 0
def eWAIT : Nat := 1
def eRUNNING : Nat := 2

/-- The logical strand that word `cfg` of REED_CFG names as reed `n`'s reference: one of the reed's quadrant (R186). -/
def reedRef (n : Nat) (cfg : Word) : Nat := 256 * (n / 64) + bitsAt cfg 8 8

/-- A setting has committed on strand `k`, or its slew moved the phase (R193); a ramp step and a slew step count as one (DEDUCED, log entry 118). -/
def reedsHop (k : Nat) (s : State) : State :=
  { s with reeds := s.reeds.map fun c =>
      if reedRef c.1 c.2.cfg = k ∧ s.get (REED_STATUS_STATE c.1) = eRUNNING then (c.1, { c.2 with refHop := true }) else c }

/-! ## Splices, loads and rims in service -/

def State.splice? (s : State) (w : Nat) : Option Splice := (s.splices.find? fun c => c.1 == w).map (·.2)
def setSplice (w : Nat) (x : Splice) (s : State) : State := { s with splices := (w, x) :: s.splices.filter fun c => c.1 != w }

/-- The basket of a spoke, a reed and a partner handle. -/
def State.spokeBasket (s : State) (n : Nat) : Option Nat := if s.flag (SPK_CFG_ROUTED n) then some (s.get (SPK_CFG_BASKET n)) else none
def State.reedBasket (s : State) (n : Nat) : Option Nat := if s.flag (REED_CFG_ASSIGNED n) then some (s.get (REED_CFG_BASKET n)) else none
def State.handleBasket (s : State) (h : Nat) : Option Nat :=
  if h < 96 && s.flag (LANE_PTN_BIND_BOUND h) then some (s.get (LANE_PTN_BIND_BASKET h)) else none

/-- The basket of the partner that holds physical lane `p`; none for a lane that no partner holds, and for a warp lane. -/
def State.laneBasket (s : State) (p : Nat) : Option Nat :=
  s.handleBasket (s.get (LANE_STATUS_HANDLE p))

/-- A splice moves strand `k` (R422). -/
def State.splicing (s : State) (k : Nat) : Bool := match s.splice? (waleOf k) with | some x => x.strand == k | none => false

/-- What a run of reed `n` with the settings `cfg` meets now: its reference strand's readiness, what covers the reed or the strand or moves it, and
whether its LOOP source's spoke is PARKED or STOPPED (R127, R192, R193). -/
def State.refCond (s : State) (n : Nat) (cfg : Word) : RefCond :=
  let k := reedRef n cfg
  { ready := s.flag (STR_STATUS_READY k) && s.flag (STR_STATUS_RUN k)
    stale := s.flag (REED_STATUS_CAL_RUN n) || s.flag (STR_STATUS_STALE k) ||
      (match s.waleRim (waleOf k) with | some r => (s.rim r).mig.isSome | none => false) || s.splicing k
    dark := bitsAt cfg 4 1 == 1 && s.get (SPK_STATUS_STATE n) != 1 }

/-- The reed runs in progress with the condition that they meet now, where it is another than the latest (R192, R193). -/
def State.reedsNow (s : State) : List (Nat × ReedRun) :=
  s.reeds.map fun c =>
    let x := s.refCond c.1 c.2.cfg
    if s.get (REED_STATUS_STATE c.1) = eRUNNING ∧ c.2.conds.getLast? ≠ some x then (c.1, { c.2 with conds := c.2.conds ++ [x] }) else c

/-- A splice in a wale of logical rim `n` is past its calibration (R424). -/
def State.rimSplicing (s : State) (n : Nat) : Bool :=
  (s.rimWales n).any fun w => match s.splice? w with | some x => x.phase != .cal | none => false

/-- The splice in wale `w` ends ABANDONED, and the spare then reads `st` (R423). -/
def spliceAbandon (st w : Nat) (s : State) : State :=
  match s.splice? w with
  | none => s
  | some x =>
    let t := { s with splices := s.splices.filter fun c => c.1 != w }
    ((t.put (WAL_SPARE_STATE w) st).put WAL_SPLICE_STATUS_STATE 3).put WAL_SPLICE_STATUS_STRAND x.strand

/-- The splices in the wales of logical rim `n` end ABANDONED (R423). -/
def abandonSplicesRim (n : Nat) (s : State) : State := eachDo (s.rimWales n) (spliceAbandon 0) s

/-- The plan in force binds logical rim `n` (RIM_FREQ_HI). -/
def State.rimBound (s : State) (n : Nat) : Bool := s.get (RIM_FREQ_HI_N n) != 0

/-- The logical rim whose physical rim is `p`. -/
def State.logicalRim (s : State) (p : Nat) : Option Nat :=
  (List.range 16).find? fun n => s.rimBound n && (s.get (RIM_STATUS_PHYS n) == p)

/-- The not-eligible reason of a strand, as NOT_READY's DETAIL tells it, or none while it is eligible (R149); of several the first in the order below
(DESIGN CHOICE, log entry 97). -/
def State.ineligible (s : State) (n : Nat) : Option Nat :=
  if s.flag (STR_STATUS_NR_RETUNE n) then some 2
  else if s.flag (STR_STATUS_NR_RIM n) then some 1
  else if s.flag (STR_STATUS_NR_CAL n) then some 3
  else if s.flag (STR_STATUS_NR_RES n) then some 4
  else if s.flag (STR_STATUS_NR_PARENT n) then some 5
  else if s.flag (STR_STATUS_STALE n) then some 6
  else match s.waleRim (waleOf n) with
    | some r => if s.get (RIM_STATUS_STATE r) = 5 then some 7 else none
    | none => some 1


end Sys2Proof.Machine
end

