-- ==== Sys2Proof/Machine/PlanOps.lean ====
section
/-! DEFINITION. The records of a weave plan, what a load includes, and how a load is aborted (R289, R297 to R299, R302, R304, R309, R311). -/

namespace Sys2Proof.Machine

/-! ## Records (R297, R299) -/

/-- The `w` bits from bit `lo` of word `i` of a record. -/
def recBits (r : List Word) (i lo w : Nat) : Nat := bitsAt (r.getD i 0) lo w

def sDEVICE : Nat := 1
def sRIMS : Nat := 2
def sWALES : Nat := 3
def sSTRANDS : Nat := 4
def sSPOKES : Nat := 5
def sREEDS : Nat := 6
def sBASKETS : Nat := 7
def sRINGS : Nat := 8
def sSOURCES : Nat := 9
def sHANDLES : Nat := 10
def sFAULTS : Nat := 11

/-- The width of the key in bits 0 up of a section's records (R299). -/
def keyWidth (sec : Nat) : Nat :=
  if sec = sRIMS then 4 else if sec = sWALES ∨ sec = sBASKETS ∨ sec = sSOURCES then 6
  else if sec = sSTRANDS then 10 else if sec = sSPOKES ∨ sec = sREEDS then 8
  else if sec = sRINGS then 15 else if sec = sHANDLES then 7 else 16

/-- The records of a section. -/
def Plan.recs (p : Plan) (sec : Nat) : List (List Word) := tabGet (fun _ => []) p.secs sec

/-- The record of a section with key `k`. -/
def Plan.find (p : Plan) (sec k : Nat) : Option (List Word) := (p.recs sec).find? fun r => recBits r 0 0 (keyWidth sec) == k

/-- The basket of wale `w`. -/
def Plan.waleBasket (p : Plan) (w : Nat) : Option Nat := (p.find sWALES w).map fun r => recBits r 0 16 6

/-- Strand `k`'s record, where its wale has one too (R298). -/
def Plan.strand? (p : Plan) (k : Nat) : Option (List Word) :=
  if (p.find sWALES (waleOf k)).isSome then p.find sSTRANDS k else none

/-- What times strand `k`: its wale's rim and its parent; none where the strand is not bound. -/
def Plan.timing (p : Plan) (k : Nat) : Option (Nat × Option Nat) :=
  match p.strand? k, p.find sWALES (waleOf k) with
  | some r, some w => some (recBits w 0 8 4, if recBits r 0 15 1 = 1 then some (recBits r 0 16 10) else none)
  | _, _ => none

/-- The basket of a record of a section, as the plan `p` gives it: a strand's is its wale's (R299). -/
def Plan.recBasket (p : Plan) (sec : Nat) (r : List Word) : Option Nat :=
  if sec = sWALES then some (recBits r 0 16 6)
  else if sec = sSTRANDS then p.waleBasket (recBits r 0 0 10 / 16)
  else if sec = sSPOKES then some (recBits r 0 24 6)
  else if sec = sREEDS then some (recBits r 0 8 6)
  else if sec = sBASKETS ∨ sec = sSOURCES then some (recBits r 0 0 6)
  else if sec = sRINGS then some (recBits r 0 20 6)
  else if sec = sHANDLES then some (recBits r 0 18 6)
  else if sec = sFAULTS then (if recBits r 1 30 1 = 1 then none else some (recBits r 1 24 6))
  else none

/-- The baskets that own a wale on rim `n` in plan `p`, one for each wale. -/
def Plan.rimOwners (p : Plan) (n : Nat) : List Nat :=
  ((p.recs sWALES).filter fun r => recBits r 0 8 4 == n).map fun r => recBits r 0 16 6

/-- Rim `n` is bound exclusively to basket `b`'s wales in plan `p` (R297). -/
def Plan.exclusive (p : Plan) (n b : Nat) : Bool := p.rimOwners n != [] && (p.rimOwners n).all fun x => x == b

/-! ## What a load includes (R309, R311) -/

def pIDLE : Nat := 0
def pSTAGING : Nat := 1
def pVERIFYING : Nat := 2
def pVERIFIED : Nat := 3
def pSTORING : Nat := 4
def pCOMMIT_WAIT : Nat := 5
def pAPPLYING : Nat := 6

def State.loadState (s : State) : Nat := s.get PLAN_STATUS_STATE

/-- The plan in force; with none, the plan that binds nothing. -/
def State.planNow (s : State) : Plan := s.plan.getD {}

/-- A load is VERIFIED, COMMIT_WAIT or APPLYING (R305). -/
def State.loadOpen (s : State) : Bool := s.loadState == pVERIFIED || s.loadState == pCOMMIT_WAIT || s.loadState == pAPPLYING

/-- The open load includes logical rim `n`: every rim in a full reweave, one named in the fragment in a partial one. -/
def State.loadIncludesRim (s : State) (n : Nat) : Bool :=
  s.loadOpen && match s.load.frag with
    | none => true
    | some f => (f.find sRIMS n).isSome

/-- Strand `k` is among those a partial reweave from `old` to `new` includes: its wale changes rim, its parent changes, or it is claimed or
released. -/
def strandMoves (old new : Plan) (k : Nat) : Bool :=
  old.timing k != new.timing k || (old.timing k).isSome && old.waleBasket (waleOf k) != new.waleBasket (waleOf k)

/-- The open load includes strand `k`. While it is APPLYING the plan in force is the new one already, and the strands still to move are
those whose move has not been made. -/
def State.loadIncludesStrand (s : State) (k : Nat) : Bool :=
  s.loadOpen && match s.load.frag with
    | none => true
    | some _ => s.moving.contains k || (s.loadState != pAPPLYING && strandMoves s.planNow s.load.result k)

/-- The open load includes a strand of wale `w`. -/
def State.loadIncludesWale (s : State) (w : Nat) : Bool := (List.range 16).any fun j => s.loadIncludesStrand (16 * w + j)

/-- A load that has not reached its commit point ends with ABORTED and its reason, and a class G fault ends an apply wherever it stands; a
load whose plan is being stored ends when the write has ended (R304). -/
def abortLoad (why : Nat) (s : State) : State :=
  let st := s.loadState
  if st = pSTAGING ∨ st = pVERIFYING ∨ st = pVERIFIED ∨ st = pCOMMIT_WAIT then
    let t := ((s.put PLAN_STATUS_STATE pIDLE).put PLAN_STATUS_RESULT 3).put PLAN_STATUS_CODE why
    { (t.raise PLAN_EVENT_ABORTED) with load := {} }
  else if st = pSTORING then { s with load := { s.load with late := some (s.load.late.getD why) } }
  else if st = pAPPLYING ∧ why = 0x83 then { (s.put PLAN_STATUS_STATE pIDLE) with load := {}, moving := [] }
  else s

end Sys2Proof.Machine
end

