-- ==== Sys2Proof/Machine/TallyOps.lean ====
section
/-! DEFINITION. The tally counter and its averages, which hops and lanes use too. -/

namespace Sys2Proof.Machine

/-! ## The tally counter and its averages, which hops and lanes use too (R80, R82, R90, R91) -/

/-- The nominal increment word: 2^48 / (1.75 * 10^9) LSB in units of 2^-40 LSB, rounded to the nearest, ties up (R80). -/
def nominalInc : Nat := (2 ^ 88 + 875000000) / 1750000000

/-- The rate adjustment in force, in 0.1 ppb (TAL_RATE). -/
def State.rate (s : State) : Int := signed 32 (s.get TAL_RATE_RATE)

/-- The increment word of one hearth cycle: the nominal one with the rate adjustment, rounded down, which is none in FREE and before the hearth's
first lock (R80, R82, R98; DESIGN CHOICE, log entry 87). -/
def State.increment (s : State) : Nat :=
  if s.get TAL_STATUS_STATE = 0 ∨ !s.hrt.everLocked then nominalInc
  else ((nominalInc : Int) + (nominalInc : Int) * s.rate / 10000000000).toNat

/-- The tally in LSBs of 2^-48 s (R28). -/
def State.tally (s : State) : Nat := s.tal.count / 2 ^ 40

/-- The tally's seconds (R380). -/
def State.tallySec (s : State) : Nat := s.tal.count / 2 ^ 88

/-- While the frequency moves towards a source just taken, each moment decides whether it has arrived, and whether the SLEW limit holds its
rate: both depend on frequencies that the spec leaves open, and are free (R57, HRT_STATUS; DESIGN CHOICE, log entry 22). -/
def slewOn (s : State) : State :=
  if s.hrt.moving then
    let (i, t) := s.fresh
    let (j, t) := t.fresh
    { t with hrt := { t.hrt with moving := Config.freeBit i } }.putFlag HRT_STATUS_SLEWING
      (t.get HRT_CTRL_SLEW != 0 && Config.freeBit i && Config.freeBit j)
  else s

/-- One hearth cycle passes: the tally and the elapsed time of R371 move by the increment. -/
def tick (s : State) : State :=
  let i := s.increment
  let s := slewOn s
  { s with tal := { s.tal with count := (s.tal.count + i) % 2 ^ 136 }, fine := s.fine + i, elapsed := (s.fine + i) / 2 ^ 40 }

/-- The rates in force since elapsed time `from_`: the first entry that began no later is the last one needed. -/
def ratesSince (from_ : Nat) : List (Nat × Int) → List (Nat × Int)
  | [] => []
  | e :: r => if e.1 ≤ from_ then [e] else e :: ratesSince from_ r

/-- The rate adjustment set to the servo's correction `r` with the slew `w`, within its limit of 200 ppm in total (R80, R97); what was in force over the
last 10 s is kept for HOLDOVER (R98). -/
def setRate (r w : Int) (s : State) : State :=
  let r := max (-2000000) (min 2000000 r)
  let c := max (-2000000) (min 2000000 (r + w))
  let t := s.put TAL_RATE_RATE (unsigned 32 c)
  { t with tal := { t.tal with servo := r, slew := w, rates := (t.elapsed, c) :: ratesSince (t.elapsed - msec 10000) t.tal.rates } }

/-- What SWSLEW or ACQ_SLEW allows, in 0.1 ppb (TAL_CTRL). -/
def State.slewLimit (s : State) : Nat :=
  if s.tal.acqSlew then 10000 * 10 ^ s.get TAL_CTRL_ACQ_SLEW else 10 ^ s.get TAL_CTRL_SWSLEW

/-- The slew that removes offset `off`: against it, and of a size that is free up to the limit (R97, R98; DESIGN CHOICE, log entry 23). -/
def State.slewPart (s : State) (off : Int) (k : Nat) : Int :=
  let w : Int := (min k s.slewLimit : Nat)
  if 0 < off then -w else if off < 0 then w else 0

/-- The delay average of lane `p`: its exchanges, newest first. -/
def State.avgOf (s : State) (p : Nat) : List Int := tabGet (fun _ => []) s.tal.avg p

def setAvg (p : Nat) (l : List Int) (s : State) : State := { s with tal := { s.tal with avg := tabSet (fun _ => []) s.tal.avg p l } }

/-- TAL_DLCAL_STATUS shows the exchanges of warp lane `p` (R93). -/
def showCount (p : Nat) (s : State) : State :=
  let n := (s.avgOf p).length
  if p = 0 then (s.put TAL_DLCAL_STATUS_COUNT_A n).putFlag TAL_DLCAL_STATUS_DONE_A (n == 4096)
  else if p = 1 then (s.put TAL_DLCAL_STATUS_COUNT_B n).putFlag TAL_DLCAL_STATUS_DONE_B (n == 4096)
  else s

/-- The average of lane `p` starts again from zero, and what it published reads zero (R82, R93). -/
def restartAvg (p : Nat) (s : State) : State :=
  let t := showCount p (setAvg p [] s)
  if p = 0 then t.setReg TAL_DLY_A 0 else if p = 1 then t.setReg TAL_DLY_B 0
  else if t.get (LANE_STATUS_HANDLE p) < 96 then t.setReg (TAL_BEAT_DLY (t.get (LANE_STATUS_HANDLE p))) 0 else t

/-- TALLY_CLOCK_HANDOVER: at the hearth's first lock the counter moves to the hearth without a step, every delay average restarts, and no request stamped
against the monitor oscillator counts any more (R82). -/
def tallyHandover (s : State) : State :=
  eachDo (List.range 108) (fun p t => if t.avgOf p = [] then t else restartAvg p t) { s with tal := { s.tal with reqs := [] } }

/-- A quotient rounded to the nearest, ties away from zero (R88). -/
def roundAway (a : Int) (b : Nat) : Int :=
  if 0 ≤ a then (2 * a + b) / (2 * b) else -((2 * (-a) + b) / (2 * b))

end Sys2Proof.Machine
end

