-- ==== Sys2Proof/Machine/ReedOps.lean ====
section
/-! DEFINITION. Reed runs: their samples and records (R186 to R199). -/

namespace Sys2Proof.Machine

/-- Reed `n` runs or waits for a free record. -/
def State.reedBusy (s : State) (n : Nat) : Bool := s.get (REED_STATUS_STATE n) != eIDLE

/-- The rules of R186 hold for a word of REED_CFG(n): the plan assigns the reed to a basket, the reference strand belongs to it, and a LOOP source names
a spoke of it. -/
def State.reedCfgOk (s : State) (n : Nat) (cfg : Word) : Bool :=
  let b := s.get (REED_CFG_BASKET n)
  s.flag (REED_CFG_ASSIGNED n) && (s.strandBasket (reedRef n cfg) == some b) && (s.strand (reedRef n cfg)).bound &&
    (bitsAt cfg 4 1 == 0 || (s.flag (SPK_CFG_ROUTED n) && s.get (SPK_CFG_BASKET n) == b))

/-- The records written and not consumed, modulo 1,024 (R198). -/
def State.reedUsed (s : State) (n : Nat) : Nat := (s.get (REED_RES_HEAD_HEAD n) + 1024 - s.get (REED_RES_TAIL_TAIL n)) % 1024

/-- REED_STATUS.FULL follows the ring (R198). -/
def reedFull (n : Nat) (s : State) : State := s.putFlag (REED_STATUS_FULL n) (s.reedUsed n == 512)

/-- Where reed `n`'s region of the measure store begins (R196, R450). -/
def reedRegion (n : Nat) : Nat := 0x08000000 + 0xC000 * n

/-- The bytes from `a` up to `a + len` read as nothing has written them. -/
def clearBytes (a len : Nat) (s : State) : State := { s with mem := s.mem.filter fun c => c.1 < a || a + len ≤ c.1 }

/-- Every bin of reed `n`'s histogram is zero (R199). -/
def clearHist (n : Nat) (s : State) : State := clearBytes (reedRegion n + 0x8000) 0x4000 s

/-- Waiting reed `n` starts when its ring has a free record: where CLR is set it zeroes the histogram (R191, R198, R199). -/
def reedTryStart (n : Nat) (s : State) : State :=
  if s.get (REED_STATUS_STATE n) = eWAIT ∧ s.reedUsed n < 512 then
    let r := s.reedRun n
    let t := s.put (REED_STATUS_STATE n) eRUNNING
    let t := if bitsAt r.cfg 6 1 = 1 then clearHist n t else t
    t.setReedRun n { r with conds := [s.refCond n r.cfg], refHop := false }
  else s

/-! ## Timestamps (R187, R188) -/

/-- The rim frequency word of a rim, and of the rim that times a wale, in units of 2^-32 (R67). -/
def State.rimWord (s : State) (r : Nat) : Nat := s.get (RIM_FREQ_HI_N r) * 2 ^ 32 + s.get (RIM_FREQ_LO_F r)
def State.waleWord (s : State) (w : Nat) : Nat := match s.waleRim w with | some r => s.rimWord r | none => 0

/-- OFFSET, and breakpoint `k`, of reed `n`'s record, in fs (R228). -/
def reedOffset (n : Nat) : Fld := ⟨recReed n + 24, 0, 32⟩
def reedBp (n k : Nat) : Fld := ⟨recReed n + 32 + 4 * (k / 2), 16 * (k % 2), 16⟩

/-- What calibration removes from a timestamp in bin `b`, in 1/64 fs: the INL, which lies linearly between the breakpoints, less the reed's own delay; nothing
without a valid calibration (R188, R216, REED_STATUS.CAL_VALID). -/
def State.reedCorr (s : State) (n b : Nat) : Int :=
  if s.flag (REED_STATUS_CAL_VALID n) then
    let bp := fun (k : Nat) => signed 16 (s.mget (reedBp n k))
    bp (b / 64) * (64 - b % 64 : Nat) + bp (b / 64 + 1) * (b % 64 : Nat) - 64 * signed 32 (s.mget (reedOffset n))
  else 0

/-- The time of an input edge, in phase units of the rim whose word is `word`: the middle of its bin, of which 2,048 make a rim period, with the correction
`corr` of each bin in 1/64 fs (R187, R188; DESIGN CHOICE, log entry 100). -/
def edgeTime (corr : Nat → Int) (word : Nat) (e : InputEdge) : Int :=
  65536 * e.period + 32 * e.bin + 16 + roundAway (corr e.bin * (65536 * 1750000000 * word)) (64 * 10 ^ 15 * 2 ^ 32)

/-- An edge that a run sees: its time, its sample window, which opens every 32 rim periods from the run's start, and whether it comes within 30 ps of the
input's edge before it (R187). -/
structure Stamp where
  time : Int
  win : Int
  near : Bool
  edge : InputEdge
deriving DecidableEq, Repr

/-- Two times lie within 30 ps of each other, at rim word `word`. -/
def within30 (word : Nat) (a b : Int) : Bool := decide ((b - a).natAbs * 10 ^ 12 * 2 ^ 32 ≤ 30 * 65536 * 1750000000 * word)

/-- The condition in which an edge fell. -/
def ReedRun.condOf (r : ReedRun) (e : InputEdge) : RefCond := r.conds.getD e.cond (r.conds.getLastD {})

/-- The edges of the selected polarity, stamped: none come from a spoke that gives none (R187, R193). -/
def State.stamps (s : State) (corr : Nat → Int) (n : Nat) (r : ReedRun) (d : ReedData) : List Stamp :=
  let word := s.waleWord (waleOf (reedRef n r.cfg))
  let l := (d.edges.filter fun e => !(r.condOf e).dark).map fun e => (edgeTime corr word e, e)
  let near := false :: (l.zip (l.drop 1)).map fun p => within30 word p.1.1 p.2.1
  ((l.zip near).map fun p => (⟨p.1.1, (p.1.2.period - d.start) / 32, p.2, p.1.2⟩ : Stamp)).filter fun x => x.edge.rises == (bitsAt r.cfg 3 1 == 0)

/-- The first edge of each sample window that has one, with the edges after it; a window in which the reference strand is not ready passes without a sample
(R187, R193). -/
def ReedRun.firsts (r : ReedRun) : Option Int → List Stamp → List (Stamp × List Stamp)
  | _, [] => []
  | w, x :: l => if x.near || w == some x.win || !(r.condOf x.edge).ready then r.firsts w l else (x, l) :: r.firsts (some x.win) l

/-! ## Samples (R189, R190) -/

/-- WIN_LO of R189 where the period in force is `t`. -/
def winFrom (win : Word) (t : Nat) : Int := if win = BitVec.ofNat 32 0x80000000 then -((t / 2 ^ 37 : Nat) : Int) else signed 32 win.toNat

/-- The reference edge that puts the arrival of a timestamp `x` within the window [WIN_LO, WIN_LO + T_ref), the latest one where several do: its number, and
the arrival (R189; DESIGN CHOICE, log entry 100). -/
def refEdge (win : Word) (x : Int) : List Int → List Nat → Option (Nat × Int)
  | y :: ys, t :: ts =>
    let a := x - y / 2 ^ 36
    let lo := winFrom win t
    if lo ≤ a ∧ (a - lo) * 2 ^ 36 < t then some (ys.length, a) else refEdge win x ys ts
  | _, _ => none

/-- The reference edge of a stamped edge, and its arrival, which is free where no placed edge puts it in the window. -/
def State.arrival (s : State) (n : Nat) (r : ReedRun) (x : Stamp) : Option Nat × Int :=
  let k := s.strand (reedRef n r.cfg)
  match refEdge r.winLo x.time k.ys k.ts with
  | some (j, a) => (some j, a)
  | none => (none, x.edge.loose)

/-- A sample: its value, and the first edge that it was taken from. -/
structure Sample where
  v : Int
  first : Stamp
deriving DecidableEq, Repr

/-- The samples of a run whose timestamps have the correction `corr` (R190). -/
def State.samplesBy (s : State) (corr : Nat → Int) (n : Nat) (r : ReedRun) (d : ReedData) : List Sample :=
  let l := r.firsts none (s.stamps corr n r d)
  let md := bitsAt r.cfg 0 3
  if md = 1 ∨ md = 2 then l.map fun p => ⟨(s.arrival n r p.1).2, p.1⟩
  else if md = 3 then (l.take 1).filterMap fun p => p.2[r.gate - 1]?.map fun y => ⟨y.time - p.1.time, p.1⟩
  else if md = 4 then l.filterMap fun p => p.2.head?.map fun y => ⟨y.time - p.1.time, p.1⟩
  else []

/-- The samples of a measurement run, with what calibration removes. -/
def State.samples (s : State) (n : Nat) (r : ReedRun) (d : ReedData) : List Sample := s.samplesBy (s.reedCorr n) n r d

/-- The most samples that a run takes (R190). -/
def reedLimit (cfg : Word) : Nat :=
  let md := bitsAt cfg 0 3
  if md = 1 ∨ md = 4 then 2 ^ bitsAt cfg 16 5 else if md = 2 ∨ md = 3 then 1 else 0

/-- The run's samples are all taken (R191). -/
def State.reedTaken (s : State) (n : Nat) (d : ReedData) : Bool :=
  decide (reedLimit (s.reedRun n).cfg ≤ (s.samples n (s.reedRun n) d).length)

/-! ## Records (R197 to R199) -/

/-- The word of a saturating signed 32-bit value. -/
def sat32 (x : Int) : Word := BitVec.ofInt 32 (max (-(2 ^ 31)) (min (2 ^ 31 - 1) x))

/-- A sample's bin, which counts one more; a sample outside counts at the end and is an overflow (R199). -/
def binOf (lo : Int) (be : Nat) (v : Int) : Nat × Bool :=
  let b := (v - lo) / (2 ^ be : Int)
  if b < 0 then (0, true) else if 2047 < b then (2047, true) else (b.toNat, false)

/-- One bin of reed `n`'s histogram stepped by one. -/
def bumpBin (n b : Nat) (s : State) : State :=
  let a := reedRegion n + 0x8000 + 8 * b
  let v := (s.memWord a).toNat + 2 ^ 32 * (s.memWord (a + 4)).toNat + 1
  (s.setMemWord a (BitVec.ofNat 32 v)).setMemWord (a + 4) (BitVec.ofNat 32 (v / 2 ^ 32))

/-- What a run's record says of it beside its samples (R192, R197): the flags, the tally value and the number of the reference edge. -/
structure ReedMark where
  stale : Bool
  refNr : Bool
  cut : Bool
  timeout : Bool
  ovf : Bool
  tally : Nat
  edge : Nat
deriving DecidableEq, Repr

/-- The sixteen words of a run's record (R197), with `first` where a run without a sample has no FIRST, MIN and MAX. -/
def reedRecord (r : ReedRun) (n seq : Nat) (m : ReedMark) (vs : List Int) (first : Int) : List Word :=
  let md := bitsAt r.cfg 0 3
  let sums := md == 1 || md == 4
  let f := vs.headD first
  let ds := vs.map (· - f)
  let sq := (ds.map fun x => x * x).sum
  let b := fun (x : Bool) (k : Nat) => if x then 2 ^ k else 0
  let w0 := seq % 65536 + 65536 * md + b m.stale 19 + b m.refNr 20 + b r.refHop 21 + b m.cut 22 + b m.timeout 23 + b m.ovf 24
  let cnt := if md = 3 then (if vs = [] then 0 else r.gate) else vs.length
  let fu := unsigned 64 f
  let su := if sums then unsigned 64 ds.sum else 0
  let qu := if sums then min sq.toNat (2 ^ 64 - 1) else 0
  let lo := if sums then (if vs = [] then sat32 first else sat32 (ds.foldl min 0)) else 0
  let hi := if sums then (if vs = [] then sat32 first else sat32 (ds.foldl max 0)) else 0
  let ed := if md = 3 then 0 else m.edge
  let w := fun (x : Nat) => BitVec.ofNat 32 x
  [w w0, w cnt, w fu, w (fu / 2 ^ 32), w su, w (su / 2 ^ 32), w qu, w (qu / 2 ^ 32), lo, hi,
    w m.tally, w (m.tally / 2 ^ 32), w (m.tally / 2 ^ 64), w ed, w (ed / 2 ^ 32 % 65536 + 65536 * reedRef n r.cfg), 0]

/-- `a` phase units of the rim whose word is `word` in tally LSBs, rounded down (R80, R107). -/
def unitsToLsb (word : Nat) (a : Int) : Int := a * 2 ^ 64 / (1750000000 * word : Nat)

/-- What the record of reed `n`'s run says, where `xs` are the samples that count: TALLY is the tally value of the reference edge plus the arrival of the
first timestamped edge (R192, R199; DESIGN CHOICE, log entry 100). -/
def State.reedMark (s : State) (n : Nat) (r : ReedRun) (cut timeout nr ovf : Bool) (xs : List Sample) (d : ReedData) : ReedMark :=
  let ref := (r.firsts none (s.stamps (s.reedCorr n) n r d)).head?.map fun p => s.arrival n r p.1
  { stale := !s.flag (REED_STATUS_CAL_VALID n) || xs.any fun x => (r.condOf x.first.edge).stale
    refNr := nr || r.conds.any fun c => !c.ready
    cut := cut, timeout := timeout, ovf := ovf
    tally := match ref with
      | some (some _, a) => unsigned 96 (d.tally + unitsToLsb (s.waleWord (waleOf (reedRef n r.cfg))) a)
      | _ => d.tally
    edge := match ref with
      | some (some j, _) => j
      | _ => d.edge }

/-- A run in progress ends: the samples enter the histogram, one record is written at HEAD, REED_DONE_EVT shows it, and the reed is IDLE. `nr` says that the
reference strand's stop ended it (R191, R192, R197 to R199). The first record carries SEQ 1 (DEDUCED, log entry 34). -/
def reedFinish (n : Nat) (cut timeout nr : Bool) (d : ReedData) (s : State) : State :=
  let r := s.reedRun n
  let md := bitsAt r.cfg 0 3
  let xs := (s.samples n r d).take (reedLimit r.cfg)
  let vs := xs.map (·.v)
  let hist := md == 4 || (md == 1 && bitsAt r.cfg 5 1 == 1)
  let bins := vs.map (binOf (signed 32 r.histLo.toNat) (bitsAt r.cfg 21 4))
  let t := if hist then eachDo bins (fun p u => bumpBin n p.1 u) s else s
  let f := vs.headD 0
  let sq := (vs.map fun x => (x - f) * (x - f)).sum
  let ovf := (hist && bins.any (·.2)) || ((md == 1 || md == 4) && decide (2 ^ 64 ≤ sq))
  let seq := s.get (REED_STATUS_SEQ n) + 1
  let h := s.get (REED_RES_HEAD_HEAD n)
  let a := reedRegion n + 0x40 * (h % 512)
  let ws := reedRecord r n seq (s.reedMark n r cut timeout nr ovf xs d) vs d.first
  let t := eachDo ws.zipIdx (fun p u => u.setMemWord (a + 4 * p.2) p.1) t
  let t := ((t.put (REED_RES_HEAD_HEAD n) (h + 1)).put (REED_STATUS_SEQ n) seq).put (REED_STATUS_STATE n) eIDLE
  (reedFull n t).raise (mapBit REED_DONE_EVT n)

/-- What a run had seen when something else ended it is a free value (DESIGN CHOICE, log entry 24). -/
def State.freeReed (s : State) : ReedData × State :=
  let (i, t) := s.fresh
  ({ start := Config.freeInt i
     edges := (Config.freeEdges i).map fun e => ⟨e.1, e.2.1 % 2048, e.2.2.1, e.2.2.2.1, e.2.2.2.2⟩
     tally := Config.freeNat i, edge := Config.freeNat (i + 1), first := Config.freeInt (i + 1) }, { t with freeCtr := t.freeCtr + 1 })

/-- Reed `n`'s run is cut: one in progress writes its record with CUT; one that waits ends without a record (R191). -/
def reedCut (n : Nat) (s : State) : State :=
  if s.get (REED_STATUS_STATE n) = eRUNNING then
    let (d, t) := s.freeReed
    reedFinish n true false false d t
  else s.put (REED_STATUS_STATE n) eIDLE

/-- Every run that `p` picks is cut (R193). -/
def cutReeds (p : Nat → Bool) (s : State) : State := eachDo ((s.reeds.map (·.1)).filter p) reedCut s

/-- Strand `k` has stopped: every run that refers to it ends with REF_NR and CUT (R191). -/
def reedsStopped (k : Nat) (s : State) : State :=
  eachDo ((s.reeds.filter fun c => reedRef c.1 c.2.cfg == k && s.get (REED_STATUS_STATE c.1) == eRUNNING).map (·.1))
    (fun n u => let (d, v) := u.freeReed; reedFinish n true false true d v) s

/-- A RUN or MEASURE for reed `n`: a run in progress is cut, and the new one takes its settings now and starts, or waits for a free record
(R191, R193). -/
def reedRequest (n : Nat) (s : State) : State :=
  let t := reedCut n s
  let r : ReedRun := { cfg := t.reg (REED_CFG n), gate := t.get (REED_GATE_GATE n), winLo := t.reg (REED_WIN n), histLo := t.reg (REED_HIST_LO n), runMax := t.get (REED_RUN_MAX_RUN_MAX n) }
  reedTryStart n ((t.setReedRun n r).put (REED_STATUS_STATE n) eWAIT)

end Sys2Proof.Machine
end

