-- ==== Sys2Proof/Machine/StrandOps.lean ====
section
/-! DEFINITION. The arithmetic of a strand, bit for bit as R107 to R126 and R170, R180 give it. -/

namespace Sys2Proof.Machine

/-- 8 ticks in U: the least high time and low time (R109). -/
def eightTicks : Nat := 8 * 2 ^ 48

/-- The output period and the high time of a setting, in U (R108, R109). -/
def highTime (p n d : Nat) : Nat × Nat :=
  let d := if d = 0 then 128 else d
  let t := n * p
  (t, min (max (t * d / 256) eightTicks) (t - eightTicks))

/-- An edge at position `pos` placed with shaper `sh`: its code, and the shaper after it (R111). -/
def placeEdge (pos : Int) (sh : Nat) : Int × Nat :=
  let q := pos / 2 ^ 40
  let a := sh + (pos % 2 ^ 40).toNat
  if 2 ^ 40 ≤ a then (q + 1, a - 2 ^ 40) else (q, a)

/-- The smallest integer m with m * b at least a, for b above 0 (R124). -/
def ceilDiv (a b : Int) : Int := -((-a) / b)

/-- The rim position of rising edge `j` of a strand whose edges' positions are `ys`, newest first. -/
def edgeAt (ys : List Int) (j : Nat) : Option Int :=
  if j < ys.length then ys[ys.length - 1 - j]? else none

/-- `to_rim` of R180: the rim position of plait position `pos`, from the parent's edges counted from edge `k0`, whose position was `z0`;
none while the parent has not placed the cycle's edges. `adj` is what R181 subtracts while only the parent's wale has moved. -/
def toRim (ys : List Int) (k0 z0 adj pos : Int) : Option Int :=
  let k := k0 + pos / 2 ^ 52
  let o := pos % 2 ^ 52
  match if k < 0 then none else edgeAt ys k.toNat, edgeAt ys (k.toNat + 1) with
  | some a, some b => some (a - adj - z0 + o * (b - a) / 2 ^ 52)
  | _, _ => none

/-- What a strand's surroundings give the placement of its edges. -/
structure Around where
  /-- its plait parent's edges, and what R181 subtracts from them; none for a strand timed by a rim -/
  par : Option (List Int × Int) := none
  /-- what 2^52 U of its own positions are on the rim: for a plaited strand its parent's output period in force -/
  cycle : Nat := 2 ^ 52
  /-- it is STALE (R119), and eligible (R149) -/
  stale : Bool := false
  elig : Bool := true
  /-- the cells that place its edges and its companion track (R209) -/
  main : DtcCell := {}
  comp : DtcCell := {}
deriving DecidableEq, Repr

/-- A position of the strand as a rim position: itself for a strand timed by a rim, `to_rim` of it for a plaited one (R180). -/
def rimPos (a : Around) (x : Strand) (pos : Int) : Option Int :=
  match a.par with
  | none => some pos
  | some (ys, adj) => toRim ys x.k0 x.z0 adj pos

/-- The parts of code `q` (R112), with the word that drives `cell` for its DTC code (R210). -/
def placed (cell : DtcCell) (q : Int) : Placed :=
  let c := (q % 256).toNat
  { period := q / 4096, phase := (q / 256 % 16).toNat, code := c, word := cell.word c }

/-- The strand's edge at `e` is placed, with its falling edge and its companion edges (R111, R112, R124 `emit`, R170); none where a plaited
strand's parent has not completed the cycles they lie in. `first` says that it is the start edge. -/
def emitEdge (a : Around) (first : Bool) (x : Strand) : Option Strand :=
  let pos := x.e + x.phi * 2 ^ 36
  match rimPos a x pos, rimPos a x (pos + x.h), rimPos a x (pos + x.h / 2), rimPos a x (pos + x.h + (x.t - x.h) / 2) with
  | some y, some f, some c, some cf =>
    let py := placeEdge y x.s
    let pf := placeEdge f x.sf
    let pc := placeEdge c x.sc
    let pcf := placeEdge cf x.scf
    some { x with
      s := py.2, sf := pf.2, sc := pc.2, scf := pcf.2
      rise := placed a.main py.1, fall := placed a.main pf.1, compRise := placed a.comp pc.1, compFall := placed a.comp pcf.1
      edges := if first then 0 else x.edges + 1
      pend := false
      ys := y :: x.ys
      ts := x.t * a.cycle / 2 ^ 52 :: x.ts
      qs := py.1 :: x.qs }
  | _, _, _, _ => none

/-- The slew step of an edge that is not the first of a new setting (R118, R124): the phase, whether the slew goes on, and whether the gap
holds it. -/
def slewStep (x : Strand) : Int × Bool × Bool :=
  let g : Int := x.h + eightTicks
  let m := min (x.target - x.phi).natAbs x.sigma
  let d : Int := if x.target < x.phi then max (-(m : Int)) (ceilDiv (g - x.t) (2 ^ 36)) else m
  (x.phi + d, x.phi + d != x.target, decide (x.target < x.phi) && d == 0)

/-- The next rising edge without a new setting (R124 `next_edge` with none); the start edge of a plaited strand that has not placed it yet (R182).
A STALE strand's slew makes no step (R119). An output period of a ramp's step passes (R166). -/
def plainEdge (a : Around) (x : Strand) : Option Strand :=
  if x.pend then emitEdge a true x
  else
    let y := if x.slewing && !a.stale then
        let r := slewStep x
        { x with phi := r.1, slewing := r.2.1, held := r.2.2 }
      else x
    emitEdge a false { y with e := y.e + y.t, ramp := y.ramp.map fun r => { r with left := r.left - 1 } }

/-- A slot of a strand. -/
def Strand.slot (x : Strand) (k : Nat) : Slot := x.slots.getD k {}

/-- The setting is a coherent return to slot `k` (R122). -/
def coherent (x : Strand) (g : Setting) (k : Nat) : Bool :=
  let c := x.slot k
  c.valid && c.prof == g.prof && c.p == g.p && c.n == g.n

/-- The first edge of a new setting (R115, R121, R124 `next_edge`). HELD clears with it: the model's choice (DESIGN CHOICE, log entry 94). -/
def settingEdge (a : Around) (g : Setting) (x : Strand) : Option Strand :=
  let gap : Int := x.h + eightTicks
  let xo := x.e + x.phi * 2 ^ 36
  let y := if g.loadsPhase then { x with phi := g.phase, slewing := false } else x
  let y := if g.startsSlew then { y with target := g.target, sigma := g.sigma, slewing := true } else y
  let y := { y with held := false }
  let th := highTime g.p g.n g.d
  let co := match g.slot with | some k => coherent x g k | none => false
  let anchor : Int := match g.slot with | some k => if co then (x.slot k).anchor else x.e | none => x.e
  let need := xo + gap - y.phi * 2 ^ 36 - anchor
  let m := if co then ceilDiv need th.1 else max 1 (ceilDiv need th.1)
  let e := anchor + m * th.1
  let slots := match g.slot with
    | some k => if co then y.slots else y.slots.set k ⟨true, g.prof, g.p, g.n, e⟩
    | none => y.slots
  emitEdge a false { y with e := e, t := th.1, h := th.2, p := g.p, n := g.n, d := g.d, slots := slots }

/-- The output period after one ramp step towards `tgt` (R166). -/
def rampPeriod (cur tgt k : Nat) : Nat :=
  if cur < tgt then min tgt (cur + cur / 2 ^ k) else max tgt (cur - cur / (2 ^ k + 1))

/-- The period word of a ramp step: T_next / N rounded to the nearest U, ties up; the last step uses P exactly (R166). -/
def rampWord (cur : Nat) (r : Ramp) : Nat :=
  let tgt := r.n * r.p
  let nx := rampPeriod cur tgt r.k
  if nx = tgt then r.p else (2 * nx + r.n) / (2 * r.n)

/-- What a ramp still has to do once its step with period word `p` has taken effect: the next one comes 2^RAMP_J output periods after that step's first
edge (R166). -/
def rampLeft (p : Nat) (r : Ramp) : Option Ramp := if p = r.p then none else some { r with left := 2 ^ r.j }

/-- A ramp's next step takes the boundary (R166): its phase action and duty are those in force. -/
def rampEdge (a : Around) (r : Ramp) (x : Strand) : Option Strand :=
  let p := rampWord x.t r
  let g : Setting := ⟨p, r.n, x.d, x.phi, false, false, x.target, x.sigma, none, 0, 0, 0⟩
  (settingEdge a g { x with ramp := rampLeft p r }).map fun y => { y with held := x.held }

/-- The strand's ramp has a step to take at its next boundary; while the strand is not eligible the step waits (R166). -/
def rampDue (a : Around) (x : Strand) : Option Ramp :=
  match x.ramp with
  | some r => if r.left = 0 && a.elig && !x.pend then some r else none
  | none => none

/-- The next edge where no hop takes its boundary. -/
def nextEdge (a : Around) (x : Strand) : Option Strand :=
  match rampDue a x with
  | some r => rampEdge a r x
  | none => plainEdge a x

/-- The strand at its start edge (R124 `start`, R125, R163), which a plaited strand has still to place (R182). -/
def startEdge (k0 z0 : Int) (g : Setting) (x : Strand) : Strand :=
  let th := highTime g.p g.n g.d
  let e : Int := 2 ^ 19 * 2 ^ 48
  let empty : List Slot := [{}, {}, {}, {}]
  let y := if g.startsSlew then { x with target := g.target, sigma := g.sigma } else x
  { y with
    e := e, phi := g.phase, p := g.p, n := g.n, d := g.d, t := th.1, h := th.2, s := 0, sf := 0, sc := 0, scf := 0, edges := 0
    slewing := g.startsSlew, held := false
    slots := match g.slot with | some k => empty.set k ⟨true, g.prof, g.p, g.n, e⟩ | none => empty
    ramp := none, ys := [], ts := [], qs := [], k0 := k0, z0 := z0, pend := x.parent.isSome, failRun := 0, everRun := true }

/-- The parent's edges as a child sees them, with the offset of R181 while only the parent's wale has moved. -/
def State.parentOf (s : State) (k : Nat) : Option (List Int × Int) :=
  (s.strand k).parent.map fun q =>
    let adj := match s.waleRim (waleOf q) with
      | some r => match (s.rim r).mig with
        | some g => if g.moved.any (fun m => m.1 == waleOf k) then 0 else ((g.moved.find? fun m => m.1 == waleOf q).map (·.2)).getD 0
        | none => 0
      | none => 0
    ((s.strand q).ys, adj)

/-- The surroundings of strand `k`. -/
def State.around (s : State) (k : Nat) : Around :=
  let p := s.get (STR_STATUS_PHYS k)
  { par := s.parentOf k
    cycle := match (s.strand k).parent with | some q => (s.strand q).ts.headD (2 ^ 52) | none => 2 ^ 52
    stale := s.flag (STR_STATUS_STALE k)
    elig := (s.ineligible k).isNone
    main := s.dtcCell p (s.mget (roleMain p))
    comp := s.dtcCell p (s.mget (roleComp p)) }

/-- `n` further edges of a strand without a new setting, as far as they can be placed. -/
def advance : Nat → Around → Strand → Strand
  | 0, _, x => x
  | n + 1, a, x =>
    match nextEdge a x with
    | some y => advance n a y
    | none => x

/-- Strand `k` places `n` further edges, if it runs (R124). -/
def runEdges (k n : Nat) (s : State) : State :=
  if s.flag (STR_STATUS_RUN k) then
    let x := s.strand k
    let y := advance n (s.around k) x
    (if (x.slewing && !s.flag (STR_STATUS_STALE k) && x.edges != y.edges) || x.p != y.p then reedsHop k s else s).setStrand k y
  else s

/-- Clears all four slots of a strand, profile, P, N and anchor with the valid bit (R123; DESIGN CHOICE, log entry 95). -/
def clearSlots (x : Strand) : Strand := { x with slots := [{}, {}, {}, {}] }

/-- Strand `k` stops: RUN clears, its spokes show the level of R177, its slots stay (R164), and a strand plaited onto it places the edges
that lie in completed cycles and then stops too (R182). -/
def stopStrand : Nat → Nat → State → State
  | 0, k, s =>
    let t := (reedsStopped k (s.lower (STR_STATUS_RUN k))).modStrand k fun x => { x with ramp := none, pend := false }
    eachDo (t.strandSpokes k) spokeStop t
  | d + 1, k, s =>
    let t := (reedsStopped k (s.lower (STR_STATUS_RUN k))).modStrand k fun x => { x with ramp := none, pend := false }
    let t := eachDo (t.strandSpokes k) spokeStop t
    eachDo ((t.children k).filter fun c => t.flag (STR_STATUS_RUN c)) (fun c u => stopStrand d c (runEdges c (u.strand k).ys.length u)) t

/-- The setting that a strand record gives (R137), with the profile's absolute index. -/
def settingOf (rec : List Word) (prof : Nat) : Setting :=
  let w3 := rec.getD 3 0
  let w4 := rec.getD 4 0
  let md := bitsAt w3 28 2
  let ph := signed 32 (rec.getD 2 0).toNat
  { p := (rec.getD 0 0).toNat + 2 ^ 32 * (rec.getD 1 0).toNat
    n := bitsAt w3 0 13
    d := bitsAt w3 16 8
    phase := ph
    loadsPhase := md == 1 || md == 3
    startsSlew := md == 2 || md == 3
    target := if md = 3 then signed 32 (rec.getD 5 0).toNat else ph
    sigma := bitsAt w4 0 16
    slot := if 4 ≤ bitsAt w3 24 3 then some (bitsAt w3 24 3 - 4) else none
    prof := prof
    rampK := bitsAt w4 16 4
    rampJ := bitsAt w4 20 4 }

/-- A strand's own numbers move by `delta` at a splice or at a migration of its wale; those of a plaited strand do not at the migration, where its
parent's edges carry the move (R126, R181). The recorded edges of a plaited strand stay at both (DEDUCED, log entry 119). -/
def shiftStrand (splice : Bool) (delta : Int) (k : Nat) (s : State) : State :=
  s.modStrand k fun x =>
    let y := { x with ys := if splice && x.parent.isSome then x.ys else x.ys.map (· + delta) }
    if !splice && x.parent.isSome then y
    else { y with
      e := x.e + delta
      slots := x.slots.map fun c => if c.valid then { c with anchor := c.anchor + delta } else c }

end Sys2Proof.Machine
end

