-- ==== Sys2Proof/Machine/Settle.lean ====
section
/-! DEFINITION. How a hop gets from ARMED to DUE. -/

namespace Sys2Proof.Machine

/-! ## A hop's way from ARMED to DUE (R147, R149, R152, R153, R163 to R165) -/

/-- What keeps hop `h` from its target, as NOT_READY's DETAIL tells it; none while the target is eligible (R149, R163, R165, R214). Of several
reasons the first in the order below is told (DESIGN CHOICE, log entry 97). -/
def State.blocked (s : State) (h : Hop) : Option Nat :=
  if h.op = 4 then
    let n := h.rim
    if (s.rim n).mig.isSome then some 7
    else if (s.rim n).retuneHop.isSome || s.get (RIM_STATUS_STATE n) == 3 then some 2
    else if s.get (RIM_STATUS_STATE n) ≠ 2 then some 1
    else if s.loadIncludesRim n then some 8
    else none
  else if h.op = 5 then
    match s.waleRim (waleOf h.target) with
    | some r =>
      if s.get (RIM_STATUS_STATE r) = 3 then some 2
      else if s.get (RIM_STATUS_STATE r) = 5 then some 7
      else if s.get (RIM_STATUS_STATE r) ≠ 2 then some 1
      else match (s.strand h.target).parent with
        | some q => if !s.flag (STR_STATUS_RUN q) then some 5 else if s.flag (STR_STATUS_STALE h.target) then some 6 else none
        | none => if s.flag (STR_STATUS_STALE h.target) then some 6 else none
    | none => some 1
  else s.ineligible h.target

/-- The tally has reached a fire value less the fire lead of 24 ns (R152). -/
def State.leadReached (s : State) (fire : Nat) : Bool := decide (fire * 1000000000 ≤ s.tally * 1000000000 + 24 * 2 ^ 48)

/-- The rising edges that the plait parent of strand `k` has placed since its start. -/
def State.parentEdges (s : State) (k : Nat) : Nat := match (s.strand k).parent with | some q => (s.strand q).ys.length | none => 0

/-- A hop becomes DUE; one that finds its strand stopped completes as REJ_TARGET with DETAIL 0x02 (R147, R164). -/
def becomeDue (h : Hop) (s : State) : State :=
  if (h.op = 1 ∨ h.op = 6) ∧ !s.flag (STR_STATUS_RUN h.target) then
    completeHop h cREJ_TARGET 2 0 ((s.incSat (BSK_REJ_CNT_REJ_TARGET h.basket)))
  else s.modHop h.id fun x => { x with st := .due, dueEdge := s.parentEdges h.target }

/-- An ARMED hop becomes DUE or HELD, as its target is eligible or not; a TIMED one waits for its fire lead, and where that has passed
already it becomes DUE or MISSED, which of the two is not specified: a free choice (R147, R152, R153). -/
def settleArmed (h : Hop) (s : State) : State :=
  match s.blocked h with
  | some _ => s.modHop h.id fun x => { x with st := .held, heldAt := s.elapsed }
  | none =>
    if !h.timed then becomeDue h s
    else if h.fire < s.tally then completeHop h cMISSED 0 0 s
    else if s.leadReached h.fire then
      let (i, t) := s.fresh
      if Config.freeBit i then becomeDue h t else completeHop h cMISSED 0 0 t
    else s.modHop h.id fun x => { x with st := .armed }

/-- A hop arms: it takes its place in the order of arming, which it keeps should it be HELD and arm again (R146, R150; DESIGN CHOICE, log entry 98),
and settles. -/
def armHop (h : Hop) (s : State) : State :=
  let t := { s with armCtr := s.armCtr + 1 }
  let h := { h with st := .armed, armSeq := s.armCtr }
  settleArmed h (t.modHop h.id fun _ => h)

/-- The hops of one target settle again after its eligibility may have changed: HELD ones arm when it is eligible, DUE and ARMED ones are
HELD when it is not (R147, R149). -/
def resettle (p : Hop → Bool) (s : State) : State :=
  eachDo (s.hops.filter p) (fun h t =>
    match h.st, t.blocked h with
    | .held, none => settleArmed { h with st := .armed } t
    | .armed, some _ => t.modHop h.id fun x => { x with st := .held, heldAt := t.elapsed }
    | .due, some _ => if h.op = 4 && (t.rim h.rim).retuneHop == some h.id then t else t.modHop h.id fun x => { x with st := .held, heldAt := t.elapsed }
    | _, _ => t) s

/-- The hops of strand `k`. -/
def settleStrand (k : Nat) (s : State) : State := resettle (fun h => (h.op == 1 || h.op == 5 || h.op == 6) && h.target == k) s

/-- The RETUNE hops of rim `n`, and the hops of the strands it times. -/
def settleRim (n : Nat) (s : State) : State :=
  let ks := s.rimStrands n
  resettle (fun h => (h.op == 4 && h.rim == n) || ((h.op == 1 || h.op == 5 || h.op == 6) && ks.contains h.target)) s

end Sys2Proof.Machine
end

