-- ==== Sys2Proof/Machine/Readiness.lean ====
section
/-! DEFINITION. The readiness of strands and what follows from it (R21, R127, R128, R182). -/

namespace Sys2Proof.Machine

/-- A reason of R127 other than the residual holds for strand `n`. -/
def State.notReadyElse (s : State) (n : Nat) : Bool :=
  s.flag (STR_STATUS_NR_RIM n) || s.flag (STR_STATUS_NR_RETUNE n) || s.flag (STR_STATUS_NR_CAL n) || s.flag (STR_STATUS_NR_PARENT n)

/-- READY follows the reasons; leaving it is reported, and ends its splice unless the reason is its residual (R127, STR_NRDY_EVT, R423). Its hops
settle (R149). -/
def setReady (n : Nat) (s : State) : State :=
  let r := (s.strand n).bound && !s.notReady n
  let t := s.putFlag (STR_STATUS_READY n) r
  let t := if s.flag (STR_STATUS_READY n) && !r then t.raise (mapBit STR_NRDY_EVT n) else t
  let t := if s.splicing n && s.notReadyElse n then spliceAbandon 0 (waleOf n) t else t
  settleStrand n t

/-- The readiness of strand `n` taken again, and that of the strands plaited onto it, to depth 3 (R21, R127, R182). -/
def refreshReady : Nat → Nat → State → State
  | 0, n, s => setReady n s
  | d + 1, n, s =>
    let t := setReady n s
    eachDo (t.children n) (fun c u => refreshReady d c (u.putFlag (STR_STATUS_NR_PARENT c) (!t.flag (STR_STATUS_READY n)))) t

/-- A reason of strand `n` set or cleared, with what follows for its readiness and its children's. -/
def setReason (f : Nat → Fld) (b : Bool) (n : Nat) (s : State) : State := refreshReady 3 n (s.putFlag (f n) b)

end Sys2Proof.Machine
end

