-- ==== Sys2Proof/Machine/Fault.lean ====
section
/-! DEFINITION. The fault collector: kinds, log, causes, and what classes W and B do (R361 to R380). -/

namespace Sys2Proof.Machine

/-! ## The kinds of R363 -/

/-- The code of a kind (R363). -/
def FaultKind.code : FaultKind → Nat
  | .mark => 0x1
  | .cleared => 0x2
  | .recovered => 0x3
  | .lockedOut => 0x4
  | .keeperClear => 0x5
  | .devEscalated => 0x6
  | .logResume => 0x7
  | .supply => 0x10
  | .thermal => 0x11
  | .thermalWarn => 0x12
  | .paceL3 => 0x13
  | .fuse => 0x14
  | .nvm => 0x15
  | .tamper => 0x16
  | .nvmSlot => 0x17
  | .bootPlan => 0x18
  | .srcTrip => 0x20
  | .srcSwitch => 0x21
  | .holdover => 0x22
  | .hearthWait => 0x23
  | .hearthLost => 0x24
  | .rimUnlock => 0x28
  | .rimWear => 0x29
  | .resVisit => 0x30
  | .resFault => 0x31
  | .spareGone => 0x32
  | .dtcWear => 0x33
  | .replay => 0x40
  | .exhaust => 0x41
  | .fecUncorr => 0x42
  | .bondNarrow => 0x43
  | .creditViol => 0x44
  | .eyeWear => 0x45
  | .talWire => 0x48
  | .talHoldover => 0x49
  | .talMismatch => 0x4a
  | .talSwitch => 0x4b
  | .resWithdrawn => 0x50
  | .resRestored => 0x51
  | .eccCorr => 0x58
  | .eccUncorr => 0x59
  | .calReject => 0x60
  | .calExpired => 0x61

/-- Every kind of R363. -/
def allKinds : List FaultKind :=
  [.mark, .cleared, .recovered, .lockedOut, .keeperClear, .devEscalated, .logResume, .supply, .thermal, .thermalWarn, .paceL3, .fuse, .nvm, .tamper, .nvmSlot, .bootPlan, .srcTrip, .srcSwitch, .holdover, .hearthWait, .hearthLost, .rimUnlock, .rimWear, .resVisit, .resFault, .spareGone, .dtcWear, .replay, .exhaust, .fecUncorr, .bondNarrow, .creditViol, .eyeWear, .talWire, .talHoldover, .talMismatch, .talSwitch, .resWithdrawn, .resRestored, .eccCorr, .eccUncorr, .calReject, .calExpired]

/-- The kind whose code is `c`; none for an unused code. -/
def kindOf (c : Nat) : Option FaultKind := allKinds.find? fun k => k.code == c

/-- The class of a kind: in a basket's scope, and in the device's (R363). -/
def FaultKind.cls (k : FaultKind) (basket : Bool) : FaultClass :=
  match k with
  | .hearthWait | .rimUnlock | .resFault => .b
  | .supply | .thermal | .fuse | .nvm | .tamper | .hearthLost => .g
  | .mark | .cleared | .recovered | .lockedOut | .keeperClear | .logResume => .i
  | .exhaust | .eccUncorr => if basket then .b else .w
  | .devEscalated | .thermalWarn | .paceL3 | .nvmSlot | .bootPlan | .srcTrip | .srcSwitch | .holdover | .rimWear | .resVisit | .spareGone | .dtcWear | .replay | .fecUncorr | .bondNarrow | .creditViol | .eyeWear | .talWire | .talHoldover | .talMismatch | .talSwitch | .resWithdrawn | .resRestored | .eccCorr | .calReject | .calExpired => .w

/-- The kinds whose class B cause stays uncleared until an event of its own (R363); the others' causes clear as they are raised. -/
def FaultKind.condition (k : FaultKind) : Bool := k == .hearthWait || k == .rimUnlock || k == .resFault

/-- The default N and T of an escalating kind, T in µs (R363). -/
def FaultKind.escDefault : FaultKind → Option (Nat × Nat)
  | .replay => some (32, 10000)
  | .fecUncorr => some (16, 1000)
  | .creditViol => some (16, 1000)
  | .eccCorr => some (255, 1000000)
  | _ => none

/-- The code of a class (R361). -/
def FaultClass.code : FaultClass → Nat
  | .w => 0
  | .b => 1
  | .g => 2
  | .i => 3

/-- The 64 bits of a fault message (R361). -/
def faultMsg (source : Nat) (k : FaultKind) (c : FaultClass) (b : Option Nat) (detail : Nat) : Nat :=
  source * 2 ^ 48 + k.code * 2 ^ 40 + c.code * 2 ^ 38 + (b.getD 0) * 2 ^ 32 + detail % 2 ^ 32

/-- The sources of R362. -/
def srcSupply : Nat := 0x0000
def srcThermal : Nat := 0x0001
def srcPace : Nat := 0x0002
def srcHearth : Nat := 0x1000
def srcRim (n : Nat) : Nat := 0x2000 + n
def srcStrand (n : Nat) : Nat := 0x3000 + n
def srcWale (w : Nat) : Nat := 0x4000 + w
def srcRing (b : Nat) : Nat := 0x7000 + b
def srcLane (p : Nat) : Nat := 0x8000 + p
def srcTally (i : Nat) : Nat := 0x9000 + i
def srcPlan : Nat := 0xA000
def srcSram (m : Nat) : Nat := 0xB000 + m
def srcFuses : Nat := 0xC000
def srcNvm : Nat := 0xC001
def srcLid : Nat := 0xD000
def srcCal (u : Nat) : Nat := 0xE000 + u

/-! ## The fault log (R379, R380) -/

/-- The records of the log that are free (R379). -/
def State.logFree (s : State) : Nat :=
  32768 - (s.get FC_LOG_HEAD_HEAD + 65536 - s.get FC_LOG_TAIL_TAIL) % 65536

/-- FC_STATUS shows how full the log is, and FC_EVENT.LOG_LOW is set as it reaches 64 free records. -/
def logLevel (s : State) : State :=
  let f := s.logFree
  let t := (s.putFlag FC_STATUS_LOG_LOW (f ≤ 64)).putFlag FC_STATUS_LOG_FULL (f == 0)
  if f ≤ 64 && !s.flag FC_STATUS_LOG_LOW then t.raise FC_EVENT_LOG_LOW else t

/-- One record appended at HEAD, low word first (R361, R379). -/
def logPut (msg : Nat) (s : State) : State :=
  let h := s.get FC_LOG_HEAD_HEAD
  let a := 0x05000000 + 8 * (h % 32768)
  let t := (s.setMemWord a (BitVec.ofNat 32 msg)).setMemWord (a + 4) (BitVec.ofNat 32 (msg / 2 ^ 32))
  logLevel (t.put FC_LOG_HEAD_HEAD (h + 1))

/-- The MARK that goes before a record whose tally second differs from that of the record before it (R380). -/
def logMark (s : State) : State :=
  let sec := s.tallySec
  if s.col.lastSec = some sec ∨ s.logFree = 0 then s
  else { logPut (faultMsg 0xF000 .mark .i none (sec % 2 ^ 32)) s with col := { s.col with lastSec := some sec } }

/-- A record written, with its MARK before it. A class I record finds no room without a count (R379, R380). -/
def logWrite (msg : Nat) (s : State) : State :=
  let t := logMark s
  if t.logFree = 0 then t else logPut msg t

/-- The LOG_RESUME record, once more than 64 records are free again after some were left out or lost (R379). -/
def logResume (s : State) : State :=
  if s.logFree > 64 && (s.get FC_LOG_LOST_LOST_W + s.get FC_LOG_LOST_LOST_GB != 0) then
    let d := s.get FC_LOG_LOST_LOST_W + 65536 * s.get FC_LOG_LOST_LOST_GB
    logWrite (faultMsg 0xF000 .logResume .i none d) (s.setReg FC_LOG_LOST 0)
  else s

/-- A class I record of the collector for basket `b`, or for none. -/
def logInfo (k : FaultKind) (b : Option Nat) (detail : Nat) (s : State) : State :=
  logWrite (faultMsg 0xF000 k .i b detail) s

/-- A class G or B message is logged, or counted in LOST_GB where no record is free, its MARK's counted (R379, R380). -/
def logGB (msg : Nat) (s : State) : State :=
  let t := logMark s
  if t.logFree = 0 then (t.incSat FC_LOG_LOST_LOST_GB).raise FC_EVENT_LOG_LOST else logPut msg t

/-- When a class W record of this source, kind and basket was last written. -/
def lastW? (s : State) (src : Nat) (k : FaultKind) (b : Option Nat) : Option Nat :=
  (s.col.lastW.find? fun e => e.1 == src && (e.2.1 == k) && (e.2.2.1 == b)).map fun e => e.2.2.2

/-- A class W message is logged, unless one of the same source, kind and basket was written within W_GAP; where 64 or fewer records
are free it is left out and counted (R379). -/
def logW (msg src : Nat) (k : FaultKind) (b : Option Nat) (s : State) : State :=
  let gap := s.get FC_CFG_W_GAP * (2 ^ 48) / 10000
  let near := match lastW? s src k b with
    | some t => decide (s.elapsed < t + gap)
    | none => false
  if near then s
  else if s.logFree ≤ 64 then (s.incSat FC_LOG_LOST_LOST_W).raise FC_EVENT_LOG_LOST
  else
    let t := logWrite msg s
    { t with col := { t.col with
        lastW := (src, k, b, t.elapsed) :: t.col.lastW.filter fun e => !(e.1 == src && (e.2.1 == k) && (e.2.2.1 == b)) } }

/-! ## FAULT_N (R374) -/

/-- Basket `b` is QUIET or FAULTED. -/
def State.basketHeld (s : State) (b : Nat) : Bool := s.get (BSK_STATUS_STATE b) == 2 || s.get (BSK_STATUS_STATE b) == 3

/-- Every rail is good; VDD_IO is; no strap reads invalid (R384, R388, DEV_SB_RAILS, DEV_SB_STRAP). -/
def State.railsGood (s : State) : Bool := s.get DEV_SB_RAILS_GOOD == 0xFF
def State.vddIoGood (s : State) : Bool := s.get ⟨DEV_SB_RAILS, 6, 1⟩ == 1
def State.strapsValid (s : State) : Bool := (List.range 8).all fun j => s.get ⟨DEV_SB_STRAP, 2 * j, 2⟩ != 2

/-- Something requires FAULT_N low (R374). -/
def State.faultNeed (s : State) : Bool :=
  !s.railsGood || !s.strapsValid || s.flag FC_STATUS_G_ACTIVE || (List.range 64).any s.basketHeld

/-- FAULT_N follows the need while VDD_IO is good; the ball's changes show in DEV_SB_EVENT, and FC_STATUS counts the baskets
held (R374, R383). -/
def faultN (s : State) : State :=
  let need := s.vddIoGood && s.faultNeed
  let was := s.flag FC_STATUS_FAULT_N
  let t := s.putFlag FC_STATUS_FAULT_N need
  let t := t.put FC_STATUS_QUIET ((List.range 64).countP fun b => t.get (BSK_STATUS_STATE b) == 2)
  let t := t.put FC_STATUS_FAULTED ((List.range 64).countP fun b => t.get (BSK_STATUS_STATE b) == 3)
  if need && !was then t.raise DEV_SB_EVENT_FAULT_SET
  else if was && !need then t.raise DEV_SB_EVENT_FAULT_CLR
  else t

/-! ## Causes and the quiet period (R367 to R369, R375) -/

/-- An uncleared condition cause of this source, kind and basket. -/
def State.cause? (s : State) (src : Nat) (k : FaultKind) (b : Nat) : Option Cause :=
  s.col.causes.find? fun c => c.source == src && (c.kind == k) && c.basket == b

/-- The uncleared condition causes of basket `b`. -/
def State.causesOf (s : State) (b : Nat) : List Cause := s.col.causes.filter fun c => c.basket == b

/-- FC_BSK_STATE shows the causes of basket `b` (R383). -/
def countCauses (b : Nat) (s : State) : State :=
  let t := s.put (FC_BSK_STATE_CAUSES b) (min 255 (s.causesOf b).length)
  t.put (FC_BSK_STATE_HELD b) (min 31 ((s.causesOf b).countP fun c => c.heldBy != []))

/-- How many causes function `m` holds (R377), which HELD shows. -/
def State.heldCount (s : State) (m : Nat) : Nat := (s.col.causes.countP fun c => c.heldBy.contains m) + s.col.holds.countP fun h => h.1 == m

def showHeld (m : Nat) (s : State) : State := s.put (FC_FORCE_STATUS_HELD m) (s.heldCount m)

/-- The quiet period of basket `b` runs from its full length, or does not run (R369). It runs only in QUIET with no cause uncleared. -/
def setQuiet (b : Nat) (run : Bool) (s : State) : State :=
  let q := s.col.quiet.filter fun x => x != b
  let t := { s with col := { s.col with quiet := if run then b :: q else q, quietAt := tabSet (fun _ => 0) s.col.quietAt b (if run then s.elapsed else 0) } }
  t.put (FC_BSK_STATE_QUIET_LEFT b) (if run then t.get (BSK_TIMERS1_QUIET b) else 0)

/-- The quiet period of basket `b` starts, if it may: the basket is QUIET and none of its causes is uncleared (R369). -/
def startQuiet (b : Nat) (s : State) : State :=
  setQuiet b (s.get (BSK_STATUS_STATE b) == 2 && (s.causesOf b).isEmpty) s

/-- A cause of basket `b` has ended: it is dropped from the causes, a CLEARED record is written, and the quiet period starts where
it was the last (R369). -/
def dropCause (src : Nat) (k : FaultKind) (b : Nat) (s : State) : State :=
  let t := { s with col := { s.col with causes := s.col.causes.filter fun c => !(c.source == src && (c.kind == k) && c.basket == b) } }
  let t := logInfo .cleared (some b) (src * 65536 + k.code) t
  startQuiet b (countCauses b t)

/-- The detected side of a cause ends; the cause clears unless an injection holds it (R363, R377). -/
def clearCause (src : Nat) (k : FaultKind) (b : Nat) (s : State) : State :=
  match s.cause? src k b with
  | none => s
  | some c =>
    if c.heldBy = [] then dropCause src k b s
    else { s with col := { s.col with causes := s.col.causes.map fun x => if x = c then { c with detected := false } else x } }

/-! ## What a class does (R365, R367, R368) -/

/-- The class B effects on basket `b`: its spokes park through C_BASKET, the basket becomes QUIET, or FAULTED where RECOV reads 16,
and a quiet period that runs starts again (R367 to R369). -/
def basketFault (b : Nat) (s : State) : State :=
  if s.flag FC_STATUS_G_ACTIVE then s
  else
    let st := s.get (BSK_STATUS_STATE b)
    let t := if st = 1 then parkSpokes SPK_STATUS_C_BASKET (s.basketSpokes b) s else s
    let t :=
      if st = 1 ∨ st = 2 then
        if s.get (BSK_STATUS_RECOV b) = 16 then
          ((logInfo .lockedOut (some b) 0 (t.put (BSK_STATUS_STATE b) 3)).raise FC_EVENT_LOCKED_OUT).raise (FC_BSK_EVT_LOCKED_OUT b)
        else t.put (BSK_STATUS_STATE b) 2
      else t
    faultN (startQuiet b t)

/-- The N and T in force for an escalating combination: the plan's record with precedence, or the defaults (R373). -/
def escParams (s : State) (src : Nat) (k : FaultKind) (b : Option Nat) : Option (Nat × Nat) :=
  match k.escDefault with
  | none => none
  | some dflt =>
    let fits := fun (r : FaultsRec) => match b with
      | some x => r.basket == x && !r.device
      | none => r.device
    let pick := fun (f : FaultsRec → Bool) => (s.faultsRecs.find? fun r => fits r && f r).map fun r => (r.n, r.t)
    some <|
      (pick fun r => r.source == src && r.kind == k.code).getD <|
      (pick fun r => r.source == src && r.kind == 0xFF).getD <|
      (pick fun r => r.source == 0xFFFF && r.kind == k.code).getD <|
      (pick fun r => r.source == 0xFFFF && r.kind == 0xFF).getD dflt

/-- The times of the messages of a combination still in its count. -/
def escTimes (s : State) (src : Nat) (k : FaultKind) (b : Option Nat) : List Nat :=
  match s.col.esc.find? fun e => e.source == src && (e.kind == k) && (e.basket == b) with
  | some e => e.times
  | none => []

def setEsc (src : Nat) (k : FaultKind) (b : Option Nat) (ts : List Nat) (s : State) : State :=
  let r := s.col.esc.filter fun e => !(e.source == src && (e.kind == k) && (e.basket == b))
  { s with col := { s.col with esc := if ts = [] then r else ⟨src, k, b, ts⟩ :: r } }

/-- The parts of a message that every class shares: the counters, the registers that hold messages, and the event bits (R379, R383). -/
def noteB (b : Nat) (msg : Nat) (s : State) : State :=
  let t := (s.incSat FC_CNT_B).incSat (FC_BSK_CNT_B b)
  let t := ((t.setReg (FC_BSK_LAST0 b) (BitVec.ofNat 32 msg)).setReg (FC_BSK_LAST1 b) (BitVec.ofNat 32 (msg / 2 ^ 32))).raise FC_EVENT_B_RAISED
  let t := (t.raise (FC_BSK_EVT_B_RAISED b)).setReg DEV_SB_FAULT0 (BitVec.ofNat 32 msg)
  t.setReg DEV_SB_FAULT1 (BitVec.ofNat 32 (msg / 2 ^ 32))

/-- A class B message of basket `b`: logged and counted, its cause recorded, the basket's state moved (R367, R368). -/
def raiseB (src : Nat) (k : FaultKind) (b detail : Nat) (injected : Option Nat) (s : State) : State :=
  let msg := faultMsg src k .b (some b) detail
  let t := logGB msg (noteB b msg s)
  let t := if k.condition || injected.isSome then
      { t with col := { t.col with causes := ⟨src, k, b, injected.isNone, injected.toList⟩ :: t.col.causes } }
    else t
  basketFault b (countCauses b t)

/-- The device action of an escalation: a warp lane is to retrain (R270, R372). -/
def escalateDevice (src : Nat) (s : State) : State :=
  if src / 4096 = 8 ∧ src % 4096 < 4 then { s with col := { s.col with retrain := src % 4096 :: s.col.retrain } } else s

/-- A class W message: counted, logged as R379 lays down, and escalated where its combination reaches N within T (R372). -/
def raiseW (src : Nat) (k : FaultKind) (b : Option Nat) (detail : Nat) (s : State) : State :=
  let msg := faultMsg src k .w b detail
  let t := s.incMod FC_CNT_W
  let t := match b with | some x => t.incMod (FC_BSK_CNT_W x) | none => t
  let t := logW msg src k b t
  if t.flag FC_STATUS_G_ACTIVE then t
  else match escParams t src k b with
    | none => t
    | some (n, tm) =>
      let span := usec tm
      let ts := t.elapsed :: (escTimes t src k b).filter fun x => decide (t.elapsed < x + span)
      if ts.length < n then setEsc src k b ts t
      else
        let t := setEsc src k b [] t
        match b with
        | some x =>
          -- the class B fault of an escalation is an event cause: it clears as it is raised
          let m := faultMsg src k .b (some x) n
          basketFault x (logGB m (noteB x m t))
        | none =>
          let m := faultMsg src .devEscalated .w none (k.code + 256 * n)
          escalateDevice src ((logW m src .devEscalated none (t.incMod FC_CNT_W)).raise FC_EVENT_DEV_ESC)

end Sys2Proof.Machine
end

