-- ==== Sys2Proof/Machine/CalOps.lean ====
section
/-! DEFINITION. Calibration records, units and the ends of runs, which the calibration rows, the hops and the faults share
(R205 to R232). -/

namespace Sys2Proof.Machine

/-! ## Validity of a strand's cells (R127, R209, R224) -/

/-- The MAIN and COMP cells of a physical strand hold values that are VALID or EXPIRED. -/
def State.cellsValid (s : State) (phys : Nat) : Bool :=
  let ok := fun c => let x := s.mget (cellState (cellAt phys c)); x == 1 || x == 2
  ok (s.mget (roleMain phys)) && ok (s.mget (roleComp phys))

/-- The header of a strand's record shows the state of the worse duty cell (R226): DEFAULT before EXPIRED before VALID. -/
def worseCell (phys : Nat) (s : State) : State :=
  let a := s.mget (cellState (cellAt phys (s.mget (roleMain phys))))
  let b := s.mget (cellState (cellAt phys (s.mget (roleComp phys))))
  s.mput (recState (recStrand phys)) (if a = 0 ∨ b = 0 then 0 else max a b)

/-- What the values of cell `c` of physical strand `phys` were taken at, where they are not those of the latest accepted run. -/
def State.cellCalOf (s : State) (phys c : Nat) : Option CellCal := tabGet (fun _ => none) s.cellCal (3 * phys + c)
def setCellCal (phys c : Nat) (x : Option CellCal) (s : State) : State := { s with cellCal := tabSet (fun _ => none) s.cellCal (3 * phys + c) x }

/-- Strand `k` is not ready, and its spokes hold C_CAL, while its physical strand has no valid DTC calibration (R127, R128, R174). -/
def refreshCal (k : Nat) (s : State) : State :=
  if (s.strand k).bound then
    let bad := !s.cellsValid (s.get (STR_STATUS_PHYS k))
    let t := setReason STR_STATUS_NR_CAL bad k s
    if bad then parkSpokes SPK_STATUS_C_CAL (t.strandSpokes k) t else unparkSpokes SPK_STATUS_C_CAL (t.strandSpokes k) t
  else s

/-- The logical strand that runs on a physical strand. -/
def State.strandOn (s : State) (phys : Nat) : Option Nat :=
  ((List.range 16).map fun j => 16 * (phys / 17) + j).find? fun k => s.get (STR_STATUS_PHYS k) == phys

/-- The cells of physical strand `phys` have changed, their values or their roles: the record's header, and the readiness of the logical strand that runs on
it, follow (R127, R209, R226). -/
def cellsChanged (phys : Nat) (s : State) : State :=
  let t := worseCell phys s
  match t.strandOn phys with
  | some k => refreshCal k t
  | none => t

/-- STALE set or cleared on strand `k`: waiting hops settle (R129). -/
def setStale (k : Nat) (b : Bool) (s : State) : State := settleStrand k (s.putFlag (STR_STATUS_STALE k) b)

/-! ## Check TDC conversions (R211) -/

/-- The counts of the bins of wale `w`'s check TDC: even ones until a stage has counted them (R211; DESIGN CHOICE, log entry 101). -/
def State.tdcBins (s : State) (w : Nat) : List Nat :=
  let l := (tabGet (fun _ => ({} : TdcTable)) s.tdc w).bins
  if l = [] then List.replicate 1024 4096 else l

/-- What a conversion reports that lands in bin `i`, in units of 2^-23 of a rim period: the width of the bins below it, and half of its own (R211). -/
def tdcTime (bins : List Nat) (i : Nat) : Int := (2 * (bins.take i).sum + bins.getD i 0 : Nat)

/-- A difference of two conversions, whose range is one rim period, taken nearest to zero (DESIGN CHOICE, log entry 101). -/
def nearZero (x : Int) : Int := (x + 2 ^ 22) % 2 ^ 23 - 2 ^ 22

/-- `n * d` units of 2^-23 of a rim period at rim word `word` are `d * 10 ^ 15 * 2 ^ 32 / perFs` fs: the number `perFs` (R67). -/
def tdcPerFs (word n : Nat) : Nat := n * 2 ^ 23 * 1750000000 * word

/-- The mean of `n` values whose sum is `x`, of which 10^15 * 2^32 / `tdcPerFs` are an fs, lies within ±`lim` fs. -/
def meanWithin (word n : Nat) (x : Int) (lim : Nat) : Bool := decide (x.natAbs * (10 ^ 15 * 2 ^ 32) ≤ lim * tdcPerFs word n)

/-- n times the sum of squares of `l` less the square of its sum: n^2 times its variance. -/
def spread (l : List Int) : Int := l.length * (l.map fun x => x * x).sum - l.sum * l.sum

/-- The rms of the values of `l` about their mean is at most `lim` fs. -/
def rmsWithin (word : Nat) (l : List Int) (lim : Nat) : Bool :=
  decide (spread l * (10 ^ 15 * 2 ^ 32) ^ 2 ≤ ((lim * tdcPerFs word l.length : Nat) : Int) ^ 2)

/-- The whole part of a square root, below 2^96. -/
def isqrt (n : Nat) : Nat := (List.range 96).foldr (fun i r => if (r + 2 ^ i) ^ 2 ≤ n then r + 2 ^ i else r) 0

/-- The mean of `l` in fs, rounded to the nearest, and its rms about the mean in fs, truncated (STR_RES; DESIGN CHOICE, log entry 101). -/
def meanFs (word : Nat) (l : List Int) : Int := roundAway (l.sum * (10 ^ 15 * 2 ^ 32)) (tdcPerFs word l.length)
def rmsFs (word : Nat) (l : List Int) : Nat := isqrt (spread l * (10 ^ 15 * 2 ^ 32) ^ 2 / (tdcPerFs word l.length : Nat) ^ 2).toNat

/-! ## Units (R208, R225) -/

/-- The reading of a temperature sensor, in 0.1 °C (PWR_TEMP). -/
def State.tj (s : State) (sensor : Nat) : Int := signed 12 (s.get (PWR_TEMP_TJ sensor))

def State.unit (s : State) (u : Nat) : CalUnit := tabGet (fun _ => {}) s.units u

/-- The pace governor pauses every unit but the NVM writer at levels 2 and 3 (R208). -/
def State.unitPaused (s : State) (u : Nat) : Bool := u != 69 && decide (2 ≤ s.get RING_CAP_PACE)

/-- A unit's status entry shows its state, its target and its number of pending targets (R225). -/
def showUnit (u : Nat) (s : State) : State :=
  let x := s.unit u
  let st := match x.run with | some _ => if s.unitPaused u then 2 else 1 | none => 0
  let tg := match x.run with | some r => r.target | none => 0
  let t := (s.mput ⟨recUnit u, 0, 2⟩ st).mput ⟨recUnit u, 2, 11⟩ tg
  let t := t.mput ⟨recUnit u + 4, 0, 32⟩ x.pending.length
  match x.last with | some l => t.mput ⟨recUnit u + 8, 0, 32⟩ l | none => t

def setUnit (u : Nat) (x : CalUnit) (s : State) : State :=
  showUnit u { s with units := tabSet (fun _ => {}) s.units u x }

/-- The unit of each kind of target. -/
def unitStrand (k : Nat) : Nat := waleOf k
def unitReed (n : Nat) : Nat := 64 + n / 64
def unitRim : Nat := 68
def unitNvm : Nat := 69
def unitLane (p : Nat) : Nat := 128 + p

/-- A target of a wale's unit is a position 0 to 15, or 16 for the spare. -/
def State.physOf (s : State) (w pos : Nat) : Nat := if pos = 16 then 17 * w + 16 else s.get (STR_STATUS_PHYS (16 * w + pos))

/-- The record of unit `u`'s target `x`. -/
def State.recOf (s : State) (u x : Nat) : Nat :=
  if u < 64 then recStrand (s.physOf u x) else if u < 68 then recReed x else if u = 68 then recRim x else recLane x

/-- The basket that a calibration target belongs to; none for a warp lane, a rim or an unowned one (R363). -/
def State.calBasket (s : State) (u x : Nat) : Option Nat :=
  if u < 64 then s.strandBasket (16 * u)
  else if u < 68 then (if s.flag (REED_CFG_ASSIGNED x) then some (s.get (REED_CFG_BASKET x)) else none)
  else if u < 128 then none
  else if x < 4 then none
  else s.laneBasket x

/-- The run of unit `u` is over: the unit is idle, and the status entry shows its target as the latest (R225). -/
def unitIdle (u : Nat) (s : State) : State :=
  let x := s.unit u
  setUnit u { x with run := none, last := (match x.run with | some r => some r.target | none => x.last) } s

/-- The logical strand of a wale unit's target, if it is one. -/
def strandOfTarget (u x : Nat) : Option Nat := if u < 64 ∧ x < 16 then some (16 * u + x) else none

/-- The stage of R211 is skipped: the wale's table is less than 10 s old, at the same word, at a Tj within 2 °C. -/
def State.tdcFresh (s : State) (w : Nat) : Bool :=
  let d := tabGet (fun _ => ({} : TdcTable)) s.tdc w
  match d.taken with
  | some t => decide (s.elapsed < t + msec 10000) && d.word == s.waleWord w && decide ((d.tj - s.tj (w / 16)).natAbs ≤ 20)
  | none => false

/-- A run's result written into its record (R222, R226). -/
def writeResult (a result check : Nat) (s : State) : State := (s.mput (recResult a) result).mput (recCheck a) check

/-- The write of a calibration group in progress ends, and its slot stays erased (R223, R419; DEDUCED, log entry 20). -/
def dropStore (s : State) : State :=
  match s.nvmRun with
  | some j => if j.group ≤ 4 then { s with nvmRun := none } else s
  | none => s

/-- Unit `u`'s run ends ABANDONED with a cause of R222: nothing more is loaded, STALE and CAL_RUN clear at once, and a lane's taps return to where they
were, unless link training sets them (R222, R223). No fault is raised (DEDUCED, log entry 120). -/
def calAbandon (cause u : Nat) (s : State) : State :=
  match (s.unit u).run with
  | none => s
  | some r =>
    let t := if u = unitNvm then dropStore s else writeResult (s.recOf u r.target) 3 cause s
    let t := if u < 64 then
        match strandOfTarget u r.target with
        | some k => if t.flag (STR_STATUS_STALE k) then setStale k false t else t
        | none => t
      else if u < 68 then t.lower (REED_STATUS_CAL_RUN r.target)
      else if 128 ≤ u ∧ cause ≠ 0x24 then t.setLane (u - 128) { (t.lane (u - 128)) with taps := r.tap.before }
      else t
    unitIdle u t

/-- Unit `u`'s target `x` is no longer pending. -/
def dropPending (u x : Nat) (s : State) : State :=
  let c := s.unit u
  setUnit u { c with pending := c.pending.filter fun p => p.1 != x } s

/-- Every unit's run and pending target that `p` picks ends with the cause given (R223). -/
def calEndWhere (cause : Nat) (p : Nat → Nat → Bool) (s : State) : State :=
  eachDo (s.units.map (·.1)) (fun u t =>
    let c := t.unit u
    let t := if c.pending.any fun x => p u x.1 then setUnit u { c with pending := c.pending.filter fun x => !p u x.1 } t else t
    match (t.unit u).run with
    | some r => if p u r.target then calAbandon cause u t else t
    | none => t) s

/-- Rim `n` enters RETUNE, UNLOCKED or a migration: the strand runs on it end ABANDONED with cause 0x22. A measurement of its lock margin ends so where the
rim is UNLOCKED, and else it is taken again once that state ends (R218, R223). -/
def abandonCalRim (n : Nat) (s : State) : State :=
  let t := eachDo (s.rimWales n) (fun w t => calAbandon 0x22 w t) s
  match (t.unit unitRim).run with
  | some r =>
    if r.stage = .margin && r.target == t.get (RIM_STATUS_PHYS n) then
      if t.get (RIM_STATUS_STATE n) = 4 then calAbandon 0x22 unitRim t
      else setUnit unitRim { (t.unit unitRim) with run := none, pending := tabIns r.target r.force (t.unit unitRim).pending } t
    else t
  | none => t

/-- The hearth leaves LOCKED: a sweep ends ABANDONED with cause 0x27 (R223). -/
def abandonCalHearth (s : State) : State :=
  match (s.unit unitRim).run with
  | some r => if r.stage = .bands then calAbandon 0x27 unitRim s else s
  | none => s

/-- A migration needs the spare rim that a sweep uses (R223). -/
def abandonCalSpare (p : Nat) (s : State) : State :=
  match (s.unit unitRim).run with
  | some r => if r.stage = .bands && r.target == p then calAbandon 0x23 unitRim s else s
  | none => s

end Sys2Proof.Machine
end

