-- ==== Sys2Proof/Machine/SpliceOps.lean ====
section
/-! DEFINITION. Splices and wear requests, which the wales' rows, calibration, hops and faults share (R421 to R424). -/

namespace Sys2Proof.Machine

/-- The spare of wale `w`, by physical number (R19). -/
def sparePhys (w : Nat) : Nat := 17 * w + 16

/-- The physical strand behind strand `k` is marked FAILED (R408). -/
def State.strandDead (s : State) (k : Nat) : Bool := s.flag ⟨WAL_FAILED (waleOf k), s.get (STR_STATUS_PHYS k) - 17 * waleOf k, 1⟩

/-- The repair map has to be written: PENDING shows it until a write of it commits (R417). -/
def queueRepairMap (s : State) : State := s.raise BIST_MAP_STATUS_PENDING

/-- The wear requests recorded against strands show in BIST_WEAR_PEND_S, one bit a wale. -/
def showWear (w : Nat) (s : State) : State :=
  s.putFlag (mapBit BIST_WEAR_PEND_S w) (s.wearStrands.any fun k => waleOf k == w)

/-- A strand's wear request is discharged (R421). -/
def dischargeWear (k : Nat) (s : State) : State :=
  if s.wearStrands.contains k then
    (showWear (waleOf k) { s with wearStrands := (s.wearStrands.filter fun j => j != k), wearWait := (s.wearWait.filter fun j => j != k) }).raise BIST_EVENT_WEAR_DONE
  else s

/-- The strand has taken its wale's spare (R422 step 5): PHYS, WAL_SPARE and WAL_FAILED show it, a residual cause ends, the repair map is
queued and a wear request discharged. The spare has left FREE for good, which WAL_EVENT shows (DEDUCED, log entry 26). -/
def spliceDone (k : Nat) (s : State) : State :=
  let w := waleOf k
  let old := s.get (STR_STATUS_PHYS k)
  let t := (s.put (STR_STATUS_PHYS k) (sparePhys w)).put (WAL_SPARE_STATE w) 2
  let t := (t.put (WAL_SPARE_POS w) (k % 16)).put ⟨WAL_FAILED w, old - 17 * w, 1⟩ 1
  let t := ((t.raise (WAL_EVENT_SPLICED w)).raise (WAL_EVENT_SPARE_GONE w)).put WAL_SPLICE_STATUS_STATE 2
  let t := t.put WAL_SPLICE_STATUS_STRAND k
  let t := { t with splices := t.splices.filter fun c => c.1 != w }
  let t := t.modStrand k fun x => { x with failRun := 0 }
  let t := setReason STR_STATUS_NR_RES false k t
  let t := unparkSpokes SPK_STATUS_C_RES (t.strandSpokes k) t
  let t := match t.strandBasket k with | some b => clearCause (srcStrand k) .resFault b t | none => t
  settleStrand k (dischargeWear k (queueRepairMap (refreshCal k t)))

/-- The phase with which a splice begins: the spare's cells are swept first unless they are VALID (R422 step 1). -/
def State.spareValid (s : State) (w : Nat) : Bool :=
  s.mget (cellState (cellAt (sparePhys w) (s.mget (roleMain (sparePhys w))))) == 1 &&
    s.mget (cellState (cellAt (sparePhys w) (s.mget (roleComp (sparePhys w))))) == 1

/-- A splice of strand `k` starts: a calibration of its wale ends ABANDONED, the spare is SPLICING, and a strand that does not run takes it
at once (R422, R223). -/
def spliceBegin (k : Nat) (s : State) : State :=
  let w := waleOf k
  let t := calAbandon 0x23 w s
  let t := ((t.put (WAL_SPARE_STATE w) 1).put WAL_SPLICE_STATUS_STATE 1).put WAL_SPLICE_STATUS_STRAND k
  if !t.flag (STR_STATUS_RUN k) then spliceDone k t
  else
    let p := t.flag (STR_STATUS_NR_RES k)
    let ok := t.spareValid w
    let t := setSplice w ⟨k, if ok then .waitShadow else .cal, 0, 0, p⟩ t
    if ok then t
    else setUnit w { (t.unit w) with run := some { target := 16, force := false, stage := if t.tdcFresh w then .sweep 0 else .tdc, phys := sparePhys w, rotates := false } } t

/-- The conditions of R422 hold but for the load's, which waits. -/
def State.spliceOk (s : State) (k : Nat) : Bool :=
  let w := waleOf k
  s.get (WAL_SPARE_STATE w) == 0 && (s.splice? w).isNone &&
    (match s.waleRim w with
      | some n => match (s.rim n).mig with | some g => !(g.hitless && g.locked) | none => true
      | none => true)

/-- A splice that is accepted starts, or waits for a load that includes the strand (R422). -/
def spliceStart (k : Nat) (s : State) : State :=
  if s.loadIncludesStrand k then { s with spliceWait := k :: s.spliceWait.filter fun j => j != k } else spliceBegin k s

/-- A wear-driven or residual splice starts where it may (R131, R421). -/
def spliceIfFree (k : Nat) (s : State) : State := if s.spliceOk k then spliceStart k s else s

/-- The wear request of strand `k` is acted on: its splice starts, or it stays pending until the spare becomes FREE (R421). -/
def wearSplice (k : Nat) (s : State) : State :=
  if s.spliceOk k then spliceStart k { s with wearWait := s.wearWait.filter fun j => j != k }
  else if s.wearWait.contains k then s else { s with wearWait := k :: s.wearWait }

/-- A strand's drift has crossed its threshold: a wear request (R232, R421). -/
def wearStrand (k : Nat) (s : State) : State :=
  let t := raiseW (srcStrand k) .dtcWear (s.strandBasket k) (s.get (STR_STATUS_PHYS k)) s
  let t := if t.wearStrands.contains k then t else showWear (waleOf k) { t with wearStrands := k :: t.wearStrands }
  let t := t.raise BIST_EVENT_WEAR_REQ
  if t.flag BIST_WEAR_POLICY_AUTO_STRAND then wearSplice k t else t

/-- The spare's own sweep has ended: the splice goes on to its shadow start; after a rejection it is ABANDONED with the spare FREE (R422 step 1;
DEDUCED, log entry 26). -/
def spliceCalDone (w : Nat) (ok : Bool) (s : State) : State :=
  match s.splice? w with
  | some x => if x.phase = .cal then (if ok then setSplice w { x with phase := .waitShadow } s else spliceAbandon 0 w s) else s
  | none => s

/-- The spare fails: WAL_SPARE reads FAILED, SPARE_GONE is set and raised (R423). -/
def spliceFail (w : Nat) (s : State) : State :=
  match s.splice? w with
  | some x =>
    let t := (spliceAbandon 3 w s).raise (WAL_EVENT_SPARE_GONE w)
    raiseW (srcWale w) .spareGone (t.strandBasket x.strand) 0 t
  | none => s

/-- The strand of a splice has become not ready through its residual: its alignment and verification are omitted (R422). -/
def spliceParked (k : Nat) (s : State) : State :=
  match s.splice? (waleOf k) with
  | some x => setSplice (waleOf k) { x with parked := true, phase := if x.phase = .shadow ∨ x.phase = .verify then .handover else x.phase } s
  | none => s

/-- A STOP has committed on the strand: its splice completes by remapping (R423). -/
def spliceStopped (k : Nat) (s : State) : State :=
  match s.splice? (waleOf k) with
  | some x => if x.strand = k ∧ x.phase ≠ .cal then spliceDone k s else s
  | none => s

end Sys2Proof.Machine
end

