-- ==== Sys2Proof/Machine/Reaction.lean ====
section
/-! DEFINITION. What class G does, and how a detection reaches the collector (R365 to R367). -/

namespace Sys2Proof.Machine

/-- A class G message: logged, counted and, from the first, held as FC_FIRST_G; its effects are those of R365, R402 and R423. -/
def raiseG (src : Nat) (k : FaultKind) (detail : Nat) (s : State) : State :=
  let msg := faultMsg src k .g none detail
  let t := logGB msg (s.incSat FC_CNT_G)
  let t := if t.get FC_CNT_G = 1 then
      (t.setReg FC_FIRST_G0 (BitVec.ofNat 32 msg)).setReg FC_FIRST_G1 (BitVec.ofNat 32 (msg / 2 ^ 32))
    else t
  let t := ((t.setReg DEV_SB_FAULT0 (BitVec.ofNat 32 msg)).setReg DEV_SB_FAULT1 (BitVec.ofNat 32 (msg / 2 ^ 32))).raise FC_EVENT_G_RAISED
  let t := { t with col := { t.col with gCauses := (src, k) :: t.col.gCauses } }
  let t := t.raise FC_STATUS_G_ACTIVE
  let t := parkSpokes SPK_STATUS_C_G allSpokes t
  let t := abortHops false (fun _ => true) t
  let t := eachDo (List.range 64) (spliceAbandon 0) (cutReeds (fun _ => true) (calEndWhere 0x25 (fun _ _ => true) (abortLoad 0x83 t)))
  let t := if t.get PWR_STATUS_STAGE = 4 then t.raise PWR_EVENT_SHUT_ABORT else t
  -- before plan-ready, start-up ends here, and configuration opens (R395)
  let t := if s.get DEV_SB_STATUS_STAGE = 2 then { t with host := { t.host with ready := true } } else t
  faultN (t.put DEV_SB_STATUS_STAGE 4)

/-- A detection reaches the collector (R367). One that matches an uncleared condition cause of its source, kind and basket raises no
message: the cause is detected from now on (R375, R377). -/
def raiseFault (src : Nat) (k : FaultKind) (b : Option Nat) (detail : Nat) (s : State) : State :=
  match k.cls b.isSome, b with
  | .b, some x =>
    match s.cause? src k x with
    | some c => { s with col := { s.col with causes := s.col.causes.map fun y => if y = c then { c with detected := true } else y } }
    | none => raiseB src k x detail none s
  | .b, none => s
  | .w, _ => raiseW src k b detail s
  | .g, _ => if s.col.gCauses.contains (src, k) then s else raiseG src k detail s
  | .i, _ => logInfo k b detail s

end Sys2Proof.Machine
end

