-- ==== Sys2Proof/Machine/Deliver.lean ====
section
/-! DEFINITION. Interrupts: what a change of the event registers sends (R341, R357, R455 to R457), and the end of every meaning. -/

namespace Sys2Proof.Machine

/-- The numbers of the bits set in a word. -/
def bitsOf (v : Word) : List Nat := (List.range 32).filter fun i => v.getLsbD i

/-- The register at `base + st * i` for an `i` below `n`. -/
def regIndex (base st n a : Nat) : Option Nat :=
  if base ≤ a ∧ (a - base) % st = 0 ∧ (a - base) / st < n then some ((a - base) / st) else none

/-- The VF of a basket, as a source `v` of its own (R456). -/
def vfSrc (b : Option Nat) (v : Nat) : List (Nat × Nat) := b.toList.map fun x => (x + 1, v)

/-- The interrupt sources, each a function with its source number, that the bits `up` of register `a` belong to (R455 to R457). A source
of the PF is numbered as in R455, one of a VF by its vector. -/
def State.irqSources (s : State) (a : Nat) (up : Word) : List (Nat × Nat) :=
  let bits := bitsOf up
  let pf := fun (x : Nat) => [(0, x)]
  -- a bitmap whose bit b of word i stands for unit 32 i + b, of source `x` for the PF and `v` for the VF of the unit's basket
  let map := fun (x v i : Nat) (own : Nat → Option Nat) => (0, x) :: bits.flatMap fun b => vfSrc (own (32 * i + b)) v
  if a = HRT_EVENT then pf 1
  else if (regIndex (RIM_EVENT 0) 0x20 16 a).isSome then pf 2
  else if a = TAL_EVENT then pf 3
  else if let some i := regIndex (STR_NRDY_EVT 0) 4 32 a then map 4 4 i s.strandBasket
  else if let some w := regIndex (WAL_EVENT 0) 0x20 64 a then (0, 5) :: vfSrc (s.strandBasket (16 * w)) 4
  else if a = SPK_EVENT then pf 6
  else if let some i := regIndex (SPK_PARK_EVT 0) 4 8 a then map 6 5 i s.spokeBasket
  else if let some i := regIndex (SPK_REL_EVT 0) 4 8 a then map 6 5 i s.spokeBasket
  else if a = REED_EVENT then pf 7
  else if let some i := regIndex (REED_DONE_EVT 0) 4 8 a then map 7 6 i s.reedBasket
  else if let some m := regIndex (RING_EVENT 0) 0x1000 65 a then (if m = 0 then pf 8 else [(m, 2)])
  else if let some m := regIndex (LANE_EVENT 0) 0x1000 65 a then (if m = 0 then pf 9 else [(m, 3)])
  else if let some i := regIndex (LANE_ARRIVE_EVT 0) 4 3 a then map 9 3 i s.handleBasket
  else if let some i := regIndex (LANE_DEPART_EVT 0) 4 3 a then map 9 3 i s.handleBasket
  else if a = PLAN_EVENT then pf 10
  else if a = BSK_EVENT ∨ (regIndex (BSK_VIOL_EVT 0) 4 3 a).isSome then pf 11
  else if a = FC_EVENT then pf 12
  else if let some b := regIndex (FC_BSK_EVT 0) 0x20 64 a then [(b + 1, 1)]
  else if a = PWR_EVENT then pf 13
  else if a = BIST_EVENT then pf 14
  else if a = LC_EVENT then pf 15
  else if let some k := regIndex 0x30000000 0x1000 65 (a - a % 0x1000) then
    let o := a % 0x1000
    let dev := if k = 0 then pf 0 else [(k, 7)]
    if o = 0x24 ∧ up.getLsbD 0 then dev
    else if o = 0x44 ∧ (up.getLsbD 0 || up.getLsbD 1) then dev
    else if o = 0x60 ∧ up.getLsbD 0 then dev
    else if o = 0x80 ∨ o = 0x84 then
      if k = 0 then bits.map fun b => (0, 64 + 8 * (o - 0x80) + b) else [(k, 0)]
    else []
  else []

/-- The vector of a source: the PF's as DEV_IRQ_MAP routes it, a VF's its own (R455, R456). -/
def State.vectorOf (s : State) (e : Nat × Nat) : Nat := if e.1 = 0 then s.get (DEV_IRQ_MAP_VECTOR e.2) else e.2

/-- The vector-control word of a vector in a function's MSI-X table: bit 0 masks it (R341, R445). -/
def msixCtrl (f v : Nat) : Nat := 0x20000000 + 0x2000 * f + 16 * v + 12

/-- A message of the vector would be held: it is masked, or the function is, or Bus Master Enable is clear, or the function is in D3hot
(R341). -/
def State.msixHeld (s : State) (f v : Nat) : Bool :=
  bitsAt (s.reg (msixCtrl f v)) 0 1 == 1 || !s.host.msix.contains f || !s.host.bme.contains f || s.host.d3.contains f

/-- The function that owns the source exists: a VF that is not enabled sends nothing. -/
def State.fnExists (s : State) (f : Nat) : Bool := f == 0 || decide (f ≤ s.host.vfs)

/-- The bits of the event registers that have gone from 0 to 1 between two states, by register. -/
def risen (s t : State) : List (Nat × Word) :=
  t.regs.filterMap fun c =>
    let up := c.2 &&& ~~~(tabGet (fun _ => (0 : Word)) s.regs c.1)
    if up = 0 then none else some (c.1, up)

/-- The sources with a bit that has gone from 0 to 1. -/
def dueSources (s t : State) : List (Nat × Nat) :=
  (((risen s t).flatMap fun c => t.irqSources c.1 c.2).filter fun e => t.fnExists e.1).dedup

/-- The in-band interrupt that falls due (R357). -/
def ibiDue (s t : State) : List Sent :=
  let up := (risen s t).filter fun c => c.1 == DEV_SB_EVENT
  if t.sb.ibi && up.any fun c => c.2 &&& t.reg DEV_SB_IBI_EN &&& 0x1F != 0 then [.ibi (bitsAt (t.reg DEV_SB_EVENT) 0 8)] else []

/-- The messages that the change from `s` to `t` sends and holds (R341). The reed runs in progress meet what the change has brought (R193). -/
def deliver (s t : State) : State :=
  let due := dueSources s t
  let vecs := (due.map fun e => (e.1, t.vectorOf e)).dedup
  let sends := (vecs.filter fun v => !t.msixHeld v.1 v.2).map fun v => Sent.msix v.1 v.2
  let holds := (due.filter fun e => t.msixHeld e.1 (t.vectorOf e)).map fun e => (e.1, t.vectorOf e, e.2)
  { t with sent := ibiDue s t ++ sends ++ t.sent, held := t.held ++ holds.filter (fun h => !t.held.contains h), reeds := t.reedsNow }

/-- A meaning that has taken `s` to `t` ends: its interrupts are sent. -/
def done (s t : State) : Out := .next (deliver s t)

end Sys2Proof.Machine
end

