-- ==== Sys2Proof/Machine/Access.lean ====
section
/-! DEFINITION. Who may reach what: the host's and the sideband's accesses to registers (R14, R15, R31 to R34, R39, R326 to R328, R345, R349,
R351, R445, R448, R452, R454). -/

namespace Sys2Proof.Machine

/-! ## Blocks and masters -/

/-- The block page that holds register `a`, which is also its BLK_EN bit (R444, R450, R452). -/
def pageOf (a : Nat) : Nat :=
  if a < 0x100000 then a / 0x10000
  else if a < 0x02000000 then 4
  else if a < 0x04000000 then 8
  else if 0x38000000 ≤ a ∧ a < 0x3F000000 then a % 0x1000 / 0x100
  else 0

/-- The block of page `k` is enabled; the DEV page always is (R39, DEV_BLK_EN). -/
def State.enabled (s : State) (k : Nat) : Bool := k == 0 || s.flag ⟨DEV_BLK_EN, k, 1⟩

/-- The block that holds register `a` is enabled. -/
def State.enabledAt (s : State) (a : Nat) : Bool := s.enabled (pageOf a)

/-- Master `m` is the keeper: the PF, while it is ATTACHED, or CHECKING entered from ATTACHED (R328). -/
def State.isKeeper (s : State) (m : Nat) : Bool :=
  m == 0 && (s.get BSK_KEEPER_STATUS_STATE == 1 || (s.get BSK_KEEPER_STATUS_STATE == 3 && s.keeper.back == 1))

/-- The host can reach function `m`: configuration has opened, the link is in L0, and the function exists, is not in FLR and not in D3hot
(R342 to R345, R334). The sideband's own conditions are those of its window (R356). -/
def State.hostOk (s : State) (m : Nat) : Bool :=
  m == 65 || (s.host.ready && s.host.link && s.fnExists m && !s.host.flr.contains m && !s.host.d3.contains m)

/-! ## Violations (R326, R327) -/

/-- A violation of master `m` counted. -/
def countViol (f : Nat → Fld) (m : Nat) (s : State) : State := (s.incSat (f m)).raise (mapBit BSK_VIOL_EVT m)

def countKp (m : Nat) (s : State) : State := countViol BSK_VIOL_KP_WR m s
def countForeign (m : Nat) (s : State) : State := countViol BSK_VIOL_FOREIGN m s

/-! ## What a VF reaches (R448 and the rules of the blocks) -/

/-- The bits of a bitmap's word `i` whose units `own` gives to basket `b`. -/
def ownMask (own : Nat → Option Nat) (b i : Nat) : Word :=
  BitVec.ofNat 32 (((List.range 32).filter fun j => own (32 * i + j) == some b).map fun j => 2 ^ j).sum

/-- The bits of register `a` that the VF of basket `b` reaches: all of them, some bits of a bitmap, or none. -/
def State.vfMask (s : State) (b a : Nat) : Word :=
  let all : Word := BitVec.ofNat 32 0xFFFFFFFF
  let own := fun (x : Option Nat) => if x = some b then all else 0
  if 0x30000000 ≤ a ∧ a < 0x3F000000 then all
  else if a < 0x10000 then (if [DEV_ID, DEV_SERIAL, DEV_IDENT, DEV_LIMITS, DEV_BLK_VIEW].contains a then all else 0)
  else if a < 0x100000 then
    if a = TAL_STATUS ∨ a = TAL_NOW0 ∨ a = TAL_NOW1 ∨ a = TAL_NOW2 then all
    else if a = STR_CMD then all
    else if let some i := regIndex (STR_READY 0) 4 128 a then ownMask s.strandBasket b (i % 32)
    else if let some w := regIndex (WAL_BIND 0) 0x20 64 a then own (s.strandBasket (16 * w))
    else if let some w := regIndex (WAL_EVENT 0) 0x20 64 a then own (s.strandBasket (16 * w))
    else if let some i := regIndex (SPK_PARKED 0) 4 24 a then ownMask s.spokeBasket b (i % 8)
    else if let some n := regIndex (SPK_CFG 0) 0x10 256 a then own (s.spokeBasket n)
    else if let some n := regIndex (SPK_STATUS 0) 0x10 256 a then own (s.spokeBasket n)
    else if a = REED_CMD then all
    else if let some i := regIndex (REED_DONE_EVT 0) 4 16 a then ownMask s.reedBasket b (i % 8)
    else if REED_CFG 0 ≤ a ∧ a < REED_CFG 256 then own (s.reedBasket ((a - REED_CFG 0) / 0x20))
    else if a = RING_DB then all
    else if RING_BSK_CFG 0 ≤ a ∧ a < RING_BSK_CFG 64 then (if (a - RING_BSK_CFG 0) / 0x40 = b then all else 0)
    else if let some i := regIndex (LANE_PRESENT 0) 4 12 a then ownMask s.handleBasket b (i % 4)
    else if LANE_STATUS 0 ≤ a ∧ a < LANE_STATUS 108 then own (s.laneBasket ((a - LANE_STATUS 0) / 0x20))
    else if LANE_PTN_STATUS 0 ≤ a ∧ a < LANE_PTN_STATUS 96 then own (s.handleBasket ((a - LANE_PTN_STATUS 0) / 0x20))
    else if a = PLAN_ID ∨ a = PLAN_FRAG_SEQ b then all
    else if BSK_STATUS b ≤ a ∧ a < BSK_STATUS (b + 1) then all
    else if let some n := regIndex (BSK_RIM_OWN 0) 4 16 a then (if (s.rimBaskets n).contains b then all else 0)
    else if FC_BSK_STATE b ≤ a ∧ a < FC_BSK_STATE (b + 1) then all
    else if a = PWR_STATUS then all
    else 0
  else if a < 0x02000000 then own (s.strandBasket ((a - 0x01000000) / 0x100))
  else if a < 0x04000000 then
    let r := (a - 0x02000000) / 0x40
    if s.get (RING_DESC1_KIND r) ≠ 0 ∧ s.get (RING_DESC1_BASKET r) = b then all else 0
  else 0

/-- The bits of register `a` that master `m` reaches. The aperture bases exist for VFs only (DEV_VF_QAP_BASE), the completion events for
functions only, and the keeper registers for the PF only among the functions (R333, R454). -/
def State.reach (s : State) (m a : Nat) : Word :=
  if 1 ≤ m ∧ m ≤ 64 then s.vfMask (m - 1) a
  else if 0x30000000 ≤ a ∧ a < 0x38000000 ∧ (a % 0x1000 = 0x70 ∨ a % 0x1000 = 0x74) then 0
  else if m = 65 ∧ 0x30000000 ≤ a ∧ a < 0x38000000 ∧ (a % 0x1000 = 0x80 ∨ a % 0x1000 = 0x84) then 0
  else if m = 65 ∧ BSK_KEEPER_CMD ≤ a ∧ a ≤ BSK_KEEPER_RESP 23 then 0
  else BitVec.ofNat 32 0xFFFFFFFF

/-! ## The holding buffer of wide writes (R349) -/

/-- Master `m`'s holding buffer is discarded; one with words in it sets PARTIAL and captures where its first word went (DEV_IND_STATUS,
DEV_IND_PART_ADDR). -/
def dropBuf (m : Nat) (s : State) : State :=
  match s.bufs.find? fun e => e.1 == m with
  | none => s
  | some e =>
    let t := { s with bufs := s.bufs.filter fun x => x.1 != m }
    if t.flag (DEV_IND_STATUS_PARTIAL m) then t
    else (t.raise (DEV_IND_STATUS_PARTIAL m)).setReg (DEV_IND_PART_ADDR m) (BitVec.ofNat 32 e.2.first)

/-! ## Fused-off resources (R3) -/

/-- The number of the unit whose location `a` is, from `base` at a stride of `st`, lies from `n` up to `lim`. -/
def pastUnits (base st n lim a : Nat) : Bool := decide (base + st * n ≤ a ∧ a < base + st * lim)

/-- The registers and store locations of the strands, wales, spokes, reeds, lanes, partners, baskets, VFs and calibration units that an LXG1024-H does not
have: where they begin, their stride, the first number that is fused off, and the end (R2). -/
def fusedUnits : List (Nat × Nat × Nat × Nat) :=
  [(0x01000000, 0x100, 512, 1024), (STR_READY 0, 4, 16, 32), (STR_STALE 0, 4, 16, 32), (STR_RUN 0, 4, 16, 32), (STR_NRDY_EVT 0, 4, 16, 32),
    (WAL_BIND 0, 0x20, 32, 64), (SPK_CFG 0, 0x10, 128, 256), (SPK_PARKED 0, 4, 4, 8), (SPK_PARK_EVT 0, 4, 4, 8), (SPK_REL_EVT 0, 4, 4, 8),
    (REED_CFG 0, 0x20, 128, 256), (REED_DONE_EVT 0, 4, 4, 8), (REED_BUSY 0, 4, 4, 8), (LANE_STATUS 0, 0x20, 56, 108),
    (LANE_PTN_STATUS 0, 0x20, 48, 96), (LANE_PRESENT 0, 4, 2, 3), (LANE_ARRIVE_EVT 0, 4, 2, 3), (LANE_DEPART_EVT 0, 4, 2, 3),
    (TAL_BEAT_DLY 0, 4, 48, 96), (TAL_BEAT_ASYM 0, 4, 48, 96), (PLAN_FRAG_SEQ 0, 4, 32, 64), (BSK_VIOL 0, 4, 33, 65),
    (BSK_STATUS 0, 0x40, 32, 64), (RING_BSK_CFG 0, 0x40, 32, 64), (FC_BSK_STATE 0, 0x20, 32, 64), (DEV_IRQ_MAP 0, 4, 96, 128),
    (0x30000000, 0x1000, 33, 65), (0x38000000, 0x1000, 33, 65), (0x08000000, 0xC000, 128, 256), (0x04200000, 96, 544, 1088), (0x0421A000, 0x800, 32, 64),
    (0x0423A000, 128, 128, 256), (0x04248000, 64, 56, 108), (0x0424A000, 16, 32, 64), (0x0424A000, 16, 66, 68), (0x0424A000, 16, 184, 236)]

/-- On an LXG1024-H, address `a` belongs to a resource that it does not have (R2, R3). -/
def State.fusedOff (s : State) (a : Nat) : Bool := s.small && fusedUnits.any fun u => pastUnits u.1 u.2.1 u.2.2.1 u.2.2.2 a

/-! ## Writes and reads -/

/-- A write by master `m` to register `a`, whose effect is `k`: nothing where the host cannot reach the function; a drop where the block is
gated, or the register is fused off; a count where a field of it is the keeper's (`kp`) and `m` is not the keeper; a drop where `m` does not reach
the register (R3, R14, R326, R345, R349, R351). -/
def gateWrite (m a : Nat) (kp : Bool) (k : State → State) (s : State) : State :=
  if !s.hostOk m then s
  else
    let t := dropBuf m s
    if !t.enabledAt a || t.fusedOff a then t
    else if kp && !t.isKeeper m then (if 1 ≤ m ∧ m ≤ 64 ∧ pageOf a = 0 then t else countKp m t)
    else if t.reach m a = 0 then t
    else k t

/-- A read by master `m` of register `a`, whose side effect is `k`. -/
def gateRead (m a : Nat) (k : State → State) (s : State) : State :=
  if s.hostOk m && s.enabledAt a && !s.fusedOff a && s.reach m a != 0 then k s else s

/-- A rejected write to an RWS field: CFG_REJ of the writing master, with the address of the first (R351, DEV_CFG_REJ). -/
def cfgReject (m at_ : Nat) (ind : Bool) (s : State) : State :=
  if s.flag (DEV_CFG_REJ_FLAG m) then s
  else ((s.raise (DEV_CFG_REJ_FLAG m)).putFlag (DEV_CFG_REJ_VIA_IND m) ind).setReg (DEV_CFG_REJ_ADDR m) (BitVec.ofNat 32 at_)

/-- The word that a plain write of `v` to register `a` leaves, on the bits that `reach` and `kp` leave to the writer: RW and RSVL fields take
it, W1C fields clear where it has 1, RWS fields take it only while their block is disabled (R14, R15, R351). -/
def mergeWord (row : RegRow) (old v mask : Word) (enabled : Bool) : Word :=
  let w := fun (x : Nat) => BitVec.ofNat 32 x
  let take := (w row.rw ||| w row.rsvl ||| (if enabled then 0 else w row.rws)) &&& mask
  let clear := w row.w1c &&& mask &&& v
  ((old &&& ~~~take) ||| (v &&& take)) &&& ~~~clear

/-- The bits of register `a` that master `m` may write: those it reaches, without the keeper's where it is not the keeper. -/
def State.writeMask (s : State) (m a : Nat) (row : RegRow) : Word :=
  if s.isKeeper m then s.reach m a else s.reach m a &&& ~~~(BitVec.ofNat 32 row.kp)

/-- A plain write by master `m` of `v` to register `a`, named `at_` where CFG_REJ captures it. A keeper's field among those written is counted
against another master (R326), and an RWS field of an enabled block that would change keeps its value and sets CFG_REJ (R351;
DESIGN CHOICE, log entry 5). -/
def storeAt (m a at_ : Nat) (ind : Bool) (v : Word) (s : State) : State :=
  match regRow? a with
  | none => s
  | some (row, _) =>
    let old := s.reg a
    let mask := s.writeMask m a row
    let en := s.enabledAt a
    let t := s.setReg a (mergeWord row old v mask en)
    let t := if en && (old ^^^ v) &&& BitVec.ofNat 32 row.rws &&& mask != 0 then cfgReject m at_ ind t else t
    if en && row.kp != 0 && !s.isKeeper m && !(decide (1 ≤ m ∧ m ≤ 64) && pageOf a == 0) then countKp m t else t

/-- The reserved bits of register `a` take the written ones (R16, R348). -/
def keepRsvl (m a : Nat) (v : Word) (s : State) : State :=
  match regRow? a with
  | some (row, _, _) =>
    let mask := BitVec.ofNat 32 row.rsvl &&& s.writeMask m a row
    s.setReg a ((s.reg a &&& ~~~mask) ||| (v &&& mask))
  | none => s

/-- A plain write, with the register's own address captured by CFG_REJ: its offset in BAR0 (DEV_CFG_REJ_ADDR). -/
def storeRw (m a : Nat) (v : Word) (s : State) : State := storeAt m a a false v s

end Sys2Proof.Machine
end

