-- ==== Sys2Proof/Machine/Retune.lean ====
section
/-! DEFINITION. What a rim's lock, unlock and migration do to its wales, strands and spokes (R68 to R75, R165). -/

namespace Sys2Proof.Machine

def rOFF : Nat := 0
def rLOCKING : Nat := 1
def rLOCKED : Nat := 2
def rRETUNE : Nat := 3
def rUNLOCKED : Nat := 4
def rMIGRATING : Nat := 5
def mIDLE : Nat := 0
def mLOCKING : Nat := 1
def mMOVING : Nat := 2
def mABANDONED : Nat := 3

/-- The spokes of the strands that logical rim `n` times. -/
def State.rimSpokes (s : State) (n : Nat) : List Nat := (s.rimStrands n).flatMap s.strandSpokes

/-- Physical rim `p` is a free spare (RIM_POOL). -/
def State.rimFree (s : State) (p : Nat) : Bool := p < 20 && (s.get ⟨RIM_POOL, p, 1⟩ == 1)

/-- The lowest-numbered free spare. -/
def State.lowestFreeRim (s : State) : Option Nat := (List.range 20).find? s.rimFree

/-- The rim's wear request shows in BIST_WEAR_PEND_R, and ends with a migration (R421). -/
def dischargeRimWear (n : Nat) (s : State) : State :=
  if s.flag ⟨BIST_WEAR_PEND_R, n, 1⟩ then
    ({ s with rimWearWait := s.rimWearWait.filter fun j => j != n }.put ⟨BIST_WEAR_PEND_R, n, 1⟩ 0).raise BIST_EVENT_WEAR_DONE
  else s

/-- The fresh VCO code of physical rim `p` in band `b`, where the factory recorded one (R416, RIM_TUNE). -/
def State.freshCode (s : State) (p b : Nat) : Option Nat :=
  let w := (tabGet memDefault s.repair (0x1120 + 128 * p + 2 * b)).toNat + 256 * (tabGet memDefault s.repair (0x1121 + 128 * p + 2 * b)).toNat
  if 32768 ≤ w then some (w % 4096) else none

/-- The VCO trend of rim `n` at its lock: one that crosses its threshold is shown, reported, and becomes a wear request (R232, R421;
DEDUCED, log entry 37). -/
def rimWear (n : Nat) (s : State) : State :=
  let p := s.get (RIM_STATUS_PHYS n)
  let fresh := s.freshCode p (s.get (RIM_STATUS_BAND n))
  let s := (s.put (RIM_TUNE_FRESH n) (fresh.getD 0)).mput ⟨recRim p + 16, 12, 12⟩ (fresh.getD 0)
  let d := ((s.get (RIM_TUNE_CODE n) : Int) - fresh.getD 0).natAbs
  let worn := s.wear.vco != 0 && fresh.isSome && decide (s.wear.vco < d)
  let was := s.mget (recWear (recRim p)) == 1
  let t := s.mput (recWear (recRim p)) (if worn then 1 else 0)
  if worn && !was then
    let t := (raiseW (srcRim n) .rimWear none d t).raise BIST_EVENT_WEAR_REQ
    let t := t.put ⟨BIST_WEAR_PEND_R, n, 1⟩ 1
    { t with rimWearWait := n :: t.rimWearWait.filter fun j => j != n }
  else t

/-- Where entry `b` of physical rim `p`'s band table lies, and its fields (R217, R228). -/
def bandAt (p b : Nat) : Nat := recRim p + 0x40 + 16 * b
def State.bandLo (s : State) (p b : Nat) : Nat := s.mget ⟨bandAt p b + 4, 0, 4⟩ * 2 ^ 32 + s.mget ⟨bandAt p b, 0, 32⟩
def State.bandHi (s : State) (p b : Nat) : Nat := s.mget ⟨bandAt p b + 12, 0, 4⟩ * 2 ^ 32 + s.mget ⟨bandAt p b + 8, 0, 32⟩
def State.bandState (s : State) (p b : Nat) : Nat := s.mget ⟨bandAt p b + 4, 30, 2⟩

/-- One band table entry written (R217). -/
def putBand (p b lo hi st : Nat) (s : State) : State :=
  let a := bandAt p b
  let t := ((s.mput ⟨a, 0, 32⟩ lo).mput ⟨a + 4, 0, 4⟩ (lo / 2 ^ 32)).mput ⟨a + 4, 30, 2⟩ st
  (t.mput ⟨a + 8, 0, 32⟩ hi).mput ⟨a + 12, 0, 4⟩ (hi / 2 ^ 32)

/-- The band of physical rim `p` for word `x`: among the FULL entries that hold it, the one whose midpoint lies nearest, then a POINT entry
equal to it; none calls for a search (R217). The lowest of several is taken. -/
def State.bandFor (s : State) (p x : Nat) : Option Nat :=
  let full := (List.range 64).filter fun b => s.bandState p b == 2 && decide (s.bandLo p b ≤ x) && decide (x ≤ s.bandHi p b)
  let far := fun b => ((s.bandLo p b + s.bandHi p b : Int) - 2 * x).natAbs
  match full.find? fun b => full.all fun c => decide (far b ≤ far c) with
  | some b => some b
  | none => (List.range 64).find? fun b => s.bandState p b == 1 && s.bandLo p b == x

/-- Physical rim `p` locks at the word of logical rim `n`: LOCK, and its band, which its band table gives, or a search whose result `band` is stored as
a POINT entry; the second part tells whether the table held it (R68, R70, R217, RIM_EVENT). -/
def lockBand (n p band : Nat) (s : State) : (Nat × Bool) × State :=
  let t := s.raise (RIM_EVENT_LOCK n)
  let word := s.rimWord n
  match s.bandFor p word with
  | some b => ((b, true), t)
  | none => ((band, false), putBand p band word word 1 (t.raise (RIM_EVENT_BAND_SEARCH n)))

/-- What the latest lock of the physical rim behind logical rim `n` shows: its tuning code and band, in its record too, and its trend (R228, R232,
RIM_STATUS, RIM_TUNE). -/
def showLock (n code band : Nat) (stored : Bool) (s : State) : State :=
  let t := ((s.put (RIM_TUNE_CODE n) code).put (RIM_STATUS_BAND n) band).putFlag (RIM_STATUS_BAND_STORED n) stored
  rimWear n (t.mput ⟨recRim (s.get (RIM_STATUS_PHYS n)) + 16, 0, 12⟩ code)

/-- A lock of logical rim `n` on physical rim `p`, which is behind it. -/
def noteLock (n p code band : Nat) (s : State) : State :=
  let x := lockBand n p band s
  showLock n code x.1.1 x.1.2 x.2

/-- The strands of rim `n` are no longer not ready for its sake, and C_RIM clears on their spokes (R127, R174). -/
def rimReady (n : Nat) (s : State) : State :=
  let t := eachDo (s.rimStrands n) (setReason STR_STATUS_NR_RIM false) s
  unparkSpokes SPK_STATUS_C_RIM (t.rimSpokes n) t

/-- The RIM_UNLOCK causes of rim `n` clear in every basket (R72). -/
def clearRimCauses (n : Nat) (s : State) : State :=
  eachDo (List.range 64) (clearCause (srcRim n) .rimUnlock) s

/-- Rim `n`, UNLOCKED, has locked again: the causes clear, and the spokes may leave PARKED (R72 step 4a). RELOCK is set for a lock
within RELOCK_WAIT. -/
def rimRelocked (n : Nat) (s : State) : State :=
  let t := if (s.rim n).relockRun then s.raise (RIM_EVENT_RELOCK n) else s
  let t := (t.put (RIM_STATUS_STATE n) rLOCKED).modRim n fun r => { r with relockRun := false, waitRelock := false, waitLoad := false }
  clearRimCauses n (rimReady n t)

/-- C_RETUNE clears on the spokes of rim `n` (R174). -/
def endRetunePark (n : Nat) (s : State) : State := unparkSpokes SPK_STATUS_C_RETUNE (s.rimSpokes n) s

/-- The hop whose retune of rim `n` has ended completes with `code`; one whose end a partial reweave of the rim has waited for completes ABORTED, as its
commit point passes with it (R313). `s` is the state in which the retune still runs. -/
def endRetuneHop (n code : Nat) (s t : State) : State :=
  match (s.rim n).retuneHop.bind t.hop? with
  | some h => if s.loadState = pCOMMIT_WAIT ∧ s.load.frag.isSome ∧ s.loadIncludesRim n then abortHop true h t else completeHop h code 0 0 t
  | none => t

/-- A retune of rim `n` to the word `hi`, `lo` begins (R69, R70): the target word is in force from now on, the rim is in RETUNE, and its strands are
not ready; with RETUNE_PARK set their spokes park. -/
def retuneTo (n : Nat) (hop : Option Nat) (lo : Word) (hi : Nat) (s : State) : State :=
  let t := s.put (RIM_STATUS_STATE n) rRETUNE
  let t := (t.setReg (RIM_FREQ_LO n) lo).put (RIM_FREQ_HI_N n) hi
  let t := t.modRim n fun r => { r with retuneHop := hop }
  let t := eachDo (t.rimStrands n) (setReason STR_STATUS_NR_RETUNE true) t
  let t := if t.flag (RIM_CTRL_RETUNE_PARK n) then parkSpokes SPK_STATUS_C_RETUNE (t.rimSpokes n) t else t
  abandonCalRim n (settleRim n t)

/-- The retune of rim `n` has declared lock: its hop completes COMMITTED, and the strands are ready again (R69, R165). -/
def retuneDone (n : Nat) (s : State) : State :=
  let t := (s.put (RIM_STATUS_STATE n) rLOCKED).raise (RIM_EVENT_RETUNE_DONE n)
  let t := endRetuneHop n cCOMMITTED s t
  let t := t.modRim n fun r => { r with retuneHop := none }
  let t := eachDo (t.rimStrands n) (setReason STR_STATUS_NR_RETUNE false) t
  endRetunePark n t

/-- Steps 1 to 3 of R72: the rim is UNLOCKED, its strands are not ready, their spokes park through the force path, and each basket that
owns a wale on it has a class B fault. `late` says that RETUNE_MAX passed (R69): then RIM_EVENT.UNLOCK, which tells of an unlock
outside RETUNE, is not set. -/
def rimUnlocked (n : Nat) (late : Bool) (s : State) : State :=
  let t := s.put (RIM_STATUS_STATE n) rUNLOCKED
  let t := if late then t else t.raise (RIM_EVENT_UNLOCK n)
  let t := t.modRim n fun r => { r with relockRun := true, waitRelock := false }
  let t := eachDo (t.rimStrands n) (setReason STR_STATUS_NR_RETUNE false) t
  let t := eachDo (t.rimStrands n) (setReason STR_STATUS_NR_RIM true) t
  let t := parkSpokes SPK_STATUS_C_RIM (t.rimSpokes n) t
  let d := t.get (RIM_STATUS_PHYS n) + (if late then 256 else 0)
  let t := eachDo (t.rimBaskets n) (fun b => raiseFault (srcRim n) .rimUnlock (some b) d) t
  abandonSplicesRim n (abandonCalRim n t)

/-- RIM_MIG_STATUS shows a migration of rim `n`. -/
def showMig (n : Nat) (g : Migration) (s : State) : State :=
  (((s.put RIM_MIG_STATUS_STATE (if g.locked then mMOVING else mLOCKING)).put RIM_MIG_STATUS_LOGICAL n).put RIM_MIG_STATUS_TARGET g.spare).put
    RIM_MIG_STATUS_MOVED g.moved.length

/-- The migration of rim `n` has ended in state `st` of RIM_MIG_STATUS, with `moved` wales moved; the register shows that, unless it shows another
migration, which goes on; where one goes on that it does not show, it shows that one from now on (R79; DESIGN CHOICE, log entry 86). -/
def endMig (n st moved : Nat) (s : State) : State :=
  let t := s.modRim n fun r => { r with mig := none }
  let other := (List.range 16).findSome? fun k => (t.rim k).mig.map fun g => (k, g)
  if s.get RIM_MIG_STATUS_LOGICAL = n then
    match other with
    | some (k, g) => showMig k g t
    | none => (t.put RIM_MIG_STATUS_STATE st).put RIM_MIG_STATUS_MOVED moved
  else t

/-- A spare of rim `n` starts locking at its frequency word (R72 step 4b, R74 step 1). RIM_MIG_STATUS shows the migration that started last
(DESIGN CHOICE, log entry 86). -/
def beginMigration (n p : Nat) (hitless : Bool) (s : State) : State :=
  let g : Migration := { spare := p, hitless := hitless, locked := false, toMove := s.rimWales n, moved := [] }
  let t := s.put (RIM_STATUS_STATE n) rMIGRATING
  let t := t.put ⟨RIM_POOL, p, 1⟩ 0
  let t := t.modRim n fun r => { r with mig := some g, waitRelock := false, relockRun := false, deferred := none }
  let t := showMig n g t
  settleRim n (abandonSplicesRim n (abandonCalSpare p t))

/-- An unlock-driven migration of rim `n` starts if a spare is free; otherwise the hub waits for relock, with no limit; it waits
for a load that includes the rim (R72 step 4b, R305). -/
def unlockMigrate (n : Nat) (s : State) : State :=
  if s.loadIncludesRim n then s.modRim n fun r => { r with waitLoad := true }
  else match s.lowestFreeRim with
  | some p => beginMigration n p false s
  | none => s.modRim n fun r => { r with waitRelock := true }

/-- Physical rim `p` is retired: it is never used again, and the NVM repair map records it (R73). -/
def failRim (p : Nat) (s : State) : State :=
  queueRepairMap ((s.put ⟨RIM_FAILED, p, 1⟩ 1).put ⟨RIM_POOL, p, 1⟩ 0)

/-- The strands of wales `ws` wait for their residual checks: those that run stay not ready until a visit passes (R72 step 6, R75). -/
def awaitVisits (ws : List Nat) (s : State) : State :=
  eachDo (ws.flatMap s.waleStrands) (fun k t =>
    if t.flag (STR_STATUS_RUN k) then setReason STR_STATUS_NR_RIM true k (t.modStrand k fun x => { x with awaitVisit := true })
    else setReason STR_STATUS_NR_RIM false k t) s

/-- When no strand of rim `n` waits for its residual check any more, the causes clear and C_RIM with them (R72 step 6). -/
def rimChecksDone (n : Nat) (s : State) : State :=
  if (s.rimStrands n).any fun k => (s.strand k).awaitVisit then s
  else clearRimCauses n (unparkSpokes SPK_STATUS_C_RIM (s.rimSpokes n) s)

/-- Step 5 of R72: the spare has locked, every wale of the failed rim is rebound to it at once, and it takes the logical number; the old
physical rim is retired (R73). -/
def spareTakesOver (n code band : Nat) (g : Migration) (s : State) : State :=
  let old := s.get (RIM_STATUS_PHYS n)
  let t := (s.put (RIM_STATUS_PHYS n) g.spare).put (RIM_STATUS_STATE n) rLOCKED
  let t := noteLock n g.spare code band t
  let t := (failRim old t).raise (RIM_EVENT_MIGRATED n)
  let t := endMig n mIDLE (s.rimWales n).length (t.modRim n fun r => { r with waitRelock := false, relockRun := false })
  rimChecksDone n (awaitVisits (s.rimWales n) t)

/-- A spare unlocks while it locks for an unlock-driven migration: it is retired, and another free spare starts, or the hub waits for the
original rim to relock (R75). -/
def spareLost (n : Nat) (g : Migration) (s : State) : State :=
  let t := failRim g.spare s
  unlockMigrate n (endMig n mIDLE 0 (t.put (RIM_STATUS_STATE n) rUNLOCKED))

/-- The spare unlocks during a migration without a hit: the migration is ABANDONED, the spare retired, the spokes of the wales already
moved park with C_RIM, their baskets have one class B fault each, and those wales are back on the old rim at once, ready when their
residual checks pass (R75). -/
def migrationAbandon (n : Nat) (g : Migration) (s : State) : State :=
  let ws := g.moved.map (·.1)
  let t := failRim g.spare s
  let t := endMig n mABANDONED g.moved.length (t.put (RIM_STATUS_STATE n) rLOCKED)
  let t := parkSpokes SPK_STATUS_C_RIM ((ws.flatMap t.waleStrands).flatMap t.strandSpokes) t
  let bs := (List.range 64).filter fun b => ws.any fun w => t.get (WAL_BIND_BASKET w) == b
  let t := eachDo bs (fun b => raiseFault (srcRim n) .rimUnlock (some b) g.spare) t
  settleRim n (rimChecksDone n (awaitVisits ws t))

/-- The spare takes the logical number after the last wale, and the old physical rim is a free spare again (R74 step 4). -/
def migrationComplete (n : Nat) (g : Migration) (s : State) : State :=
  let old := s.get (RIM_STATUS_PHYS n)
  let t := (s.put (RIM_STATUS_PHYS n) g.spare).put (RIM_STATUS_STATE n) rLOCKED
  let t := showLock n g.code g.band g.stored t
  let t := (t.put ⟨RIM_POOL, old, 1⟩ 1).raise (RIM_EVENT_MIGRATED n)
  settleRim n (queueRepairMap (dischargeRimWear n (endMig n mIDLE g.moved.length t)))

/-- The migration ends when no wale is left to move. -/
def finishIfMoved (n : Nat) (s : State) : State :=
  match (s.rim n).mig with
  | some g => if g.hitless && g.locked && g.toMove.isEmpty then migrationComplete n g s else s
  | none => s

/-- The old rim unlocks during a migration without a hit: the spokes of the wales not yet moved park, class B is raised as in R72, and
those wales move at once (R75). The old physical rim is retired as one replaced after an unlock (R73). -/
def oldRimUnlocked (n : Nat) (g : Migration) (s : State) : State :=
  let ws := g.toMove
  let old := s.get (RIM_STATUS_PHYS n)
  let t := s.raise (RIM_EVENT_UNLOCK n)
  let t := parkSpokes SPK_STATUS_C_RIM ((ws.flatMap t.waleStrands).flatMap t.strandSpokes) t
  let bs := (List.range 64).filter fun b => ws.any fun w => t.get (WAL_BIND_BASKET w) == b
  let t := eachDo bs (fun b => raiseFault (srcRim n) .rimUnlock (some b) old) t
  if g.locked then
    let t := (t.put (RIM_STATUS_PHYS n) g.spare).put (RIM_STATUS_STATE n) rLOCKED
    let t := showLock n g.code g.band g.stored t
    let t := endMig n mIDLE (g.moved.length + ws.length) ((failRim old t).raise (RIM_EVENT_MIGRATED n))
    settleRim n (rimChecksDone n (awaitVisits ws t))
  else
    -- the spare has not locked: the migration goes on as one driven by the unlock
    let t := eachDo (t.rimStrands n) (setReason STR_STATUS_NR_RIM true) t
    t.modRim n fun r => { r with mig := some { g with hitless := false } }

/-- Any migration is in progress (RIM_MIG_STATUS). -/
def State.anyMigration (s : State) : Bool := (List.range 16).any fun n => (s.rim n).mig.isSome

/-- A RIM_MIGRATE GO for rim `n` with TARGET `p` (R71, R74, R75): rejected with MIG_REJ, deferred while a retune, a splice in one of its
wales or a load that includes it runs (R71, R305, R424), or started (DEDUCED, log entry 74). -/
def migrateGo (n p : Nat) (s : State) : State :=
  let st := s.get (RIM_STATUS_STATE n)
  let target := if p = 0x1F then s.lowestFreeRim else if s.rimFree p then some p else none
  match target with
  | none => s.raise (RIM_EVENT_MIG_REJ n)
  | some q =>
    if s.anyMigration then s.raise (RIM_EVENT_MIG_REJ n)
    else if st = rRETUNE then s.modRim n fun r => { r with deferred := some p }
    else if st ≠ rLOCKED then s.raise (RIM_EVENT_MIG_REJ n)
    else if s.rimSplicing n || s.loadIncludesRim n then s.modRim n fun r => { r with deferred := some p }
    else beginMigration n q true (abandonCalRim n s)

/-- A migration that waited starts once nothing holds it back (R71, R305, R424). -/
def startDeferred (n : Nat) (s : State) : State :=
  match (s.rim n).deferred with
  | some p =>
    if s.get (RIM_STATUS_STATE n) = rLOCKED && !s.rimSplicing n && !s.loadIncludesRim n then
      migrateGo n p (s.modRim n fun r => { r with deferred := none })
    else s
  | none => s

end Sys2Proof.Machine
end

