-- ==== Sys2Proof/Machine/CalUnits.lean ====
section
/-! DEFINITION. How a calibration unit takes its targets, and how a run is accepted or rejected (R207, R208, R222 to R226, R323). -/

namespace Sys2Proof.Machine

/-! ## Temperatures and ages -/

/-- The junction temperature of the sensor that a unit's target goes by, in 0.1 °C (R224, PWR_TEMP). -/
def sensorOf (u x : Nat) : Nat :=
  if u < 64 then u / 16 else if u < 68 then u - 64 else if u = 68 then 13 else if x < 4 then 12 else 4 + (x - 4) / 13

/-- `a` and `b` differ by more than 5 % of `b` (R221, R224). -/
def movedFive (a b : Nat) : Bool := decide (b < 20 * ((a : Int) - b).natAbs)

/-- The rim frequency word that a target of a strand or reed unit runs at. -/
def State.calWord (s : State) (u x : Nat) : Nat :=
  if u < 64 then s.waleWord u else if u < 68 then s.waleWord (waleOf (reedRef x (s.reg (REED_CFG x)))) else 0

/-! ## Choosing a target (R208, R223, R323) -/

/-- Target `x` of unit `u` can be taken now: a strand's rim is LOCKED, a sweep has the hearth LOCKED, and a rim's margin is measured once a
retune or a migration has ended (R218, R223). -/
def State.takeable (s : State) (u x : Nat) : Bool :=
  if u < 64 then match s.waleRim u with | some r => s.get (RIM_STATUS_STATE r) == 2 | none => x == 16
  else if u = unitRim then
    match s.logicalRim x with
    | some n => !(s.get (RIM_STATUS_STATE n) == 3 || s.get (RIM_STATUS_STATE n) == 5)
    | none => s.get HRT_STATUS_STATE == 1
  else true

/-- The next target of a unit: the lowest pending one that can be taken; for a reed quadrant the lowest above the latest one first (R208,
R323). -/
def State.nextTarget (s : State) (u : Nat) : Option (Nat × Bool) :=
  let c := s.unit u
  let ok := c.pending.filter fun p => s.takeable u p.1
  match if 64 ≤ u ∧ u < 68 then ok.find? fun p => decide (c.last.getD 0 < p.1 ∧ c.last.isSome) else none with
  | some p => some p
  | none => ok.head?

/-- The cell sweeps of a strand run begin: the strand becomes STALE (R213, R214). A free spare never is (DEDUCED, log entry 39). -/
def beginSweeps (u : Nat) (r : CalRun) (s : State) : State :=
  let k := strandOfTarget u r.target
  let run := match k with | some k => s.flag (STR_STATUS_RUN k) | none => false
  let t := setUnit u { (s.unit u) with run := some { r with stage := .sweep 0, rotates := run } } s
  match k with
  | some k => if (t.strand k).bound then setStale k true t else t
  | none => t

/-- The first stage of a target's run. -/
def firstStage (s : State) (u x : Nat) (force : Bool) : CalStage :=
  if u < 64 then (if s.tdcFresh u && !force then .sweep 0 else .tdc)
  else if u < 68 then .density
  else if u = unitRim then (if (s.logicalRim x).isSome then .margin else .bands)
  else .eyeBefore

/-- A unit that is idle takes its next target, if there is one (R208); a lane's run starts from the taps in force (R220). A rim that is UNLOCKED ends its measurement at once, ABANDONED
(R218). The NVM writer chooses by its own rule (`nvmNext`). -/
def unitSelect (u : Nat) (s : State) : State :=
  if u = unitNvm then s else
  let c := s.unit u
  match c.run, s.nextTarget u with
  | none, some (x, force) =>
    let st := firstStage s u x force
    let r : CalRun := { target := x, force := force, stage := st, phys := if u < 64 then s.physOf u x else 0, rotates := false, tap := { before := (s.lane x).taps, taps := (s.lane x).taps } }
    let t := setUnit u { c with pending := c.pending.filter (fun p => p.1 != x), run := some r } s
    if u < 64 then (if st = .sweep 0 then beginSweeps u r t else t)
    else if u < 68 then t.raise (REED_STATUS_CAL_RUN x)
    else if u = unitRim then
      match s.logicalRim x with
      | some n => if s.get (RIM_STATUS_STATE n) = 4 then calAbandon 0x22 u t else t
      | none => t
    else t
  | _, _ => s

/-- A unit's run ends, and the unit chooses again (R208). -/
def unitDone (u : Nat) (s : State) : State := unitSelect u (unitIdle u s)

/-- Target `x` becomes pending on unit `u`, with FORCE_TDC; true where it was pending or running already (R207). -/
def makePending (u x : Nat) (force : Bool) (s : State) : Bool × State :=
  let c := s.unit u
  if (match c.run with | some r => r.target == x | none => false) then (true, s)
  else if c.pending.any fun p => p.1 == x then
    (true, setUnit u { c with pending := c.pending.map fun p => if p.1 = x then (x, p.2 || force) else p } s)
  else (false, unitSelect u (setUnit u { c with pending := tabIns x force c.pending } s))

/-- STOP for target `x` of unit `u`: its pending flag clears and its run ends ABANDONED with cause STOP; false where there was neither (R207,
R208). -/
def stopTarget (u x : Nat) (s : State) : Bool × State :=
  let c := s.unit u
  if (match c.run with | some r => r.target == x | none => false) then (true, unitSelect u (calAbandon 0x20 u (dropPending u x s)))
  else if c.pending.any fun p => p.1 == x then (true, dropPending u x s)
  else (false, s)

/-! ## Accepting and rejecting (R222, R224, R226) -/

/-- A rejected run: the record shows it with its CHECK, and one class W fault is raised (R222, R363). -/
def calReject (u : Nat) (r : CalRun) (check : Nat) (s : State) : State :=
  let t := writeResult (s.recOf u r.target) 2 check s
  raiseW (srcCal u) .calReject (s.calBasket u r.target) (r.target + 65536 * check) t

/-- What every accepted run writes into a record's header (R226). -/
def acceptHeader (a sensor : Nat) (s : State) : State :=
  let t := (s.mput (recSeq a) (s.mget (recSeq a) + 1)).mput (recState a) 1
  let t := writeResult a 1 0 t
  let t := t.mput (recTj a) (unsigned 16 (s.tj sensor))
  let t := (((t.mput (recStored a) 0).mput (recExpAge a) 0).mput (recExpTj a) 0).mput (recExpFreq a) 0
  t.mput (recOptime a) (s.get BIST_OPTIME_MINUTES)

end Sys2Proof.Machine
end

