-- ==== Sys2Proof/Machine/HearthOps.lean ====
section
/-! DEFINITION. The hearth's sources and states, which lanes use too (R45 to R65). Sources are numbered as HRT_STATUS.SEL numbers them:
0 WARP_A, 1 WARP_B, 2 XREF; 3 is none. -/

namespace Sys2Proof.Machine

/-- The sources in the order of a PRIO code (HRT_CTRL). -/
def prioOrder : Nat → List Nat
  | 0 => [0, 1, 2]
  | 1 => [1, 0, 2]
  | 2 => [0, 2, 1]
  | 3 => [1, 2, 0]
  | 4 => [2, 0, 1]
  | _ => [2, 1, 0]

def qABSENT : Nat := 0
def qSETTLING : Nat := 1
def qCHECKING : Nat := 2
def qQUALIFIED : Nat := 3
def hACQUIRE : Nat := 0
def hLOCKED : Nat := 1
def hHOLDOVER : Nat := 2
def hWAIT : Nat := 3
def hLOST : Nat := 4

def State.qstate (s : State) (x : Nat) : Nat := s.get (HRT_SRC_STATUS_QSTATE x)
def State.hearth (s : State) : Nat := s.get HRT_STATUS_STATE
def State.sel (s : State) : Nat := s.get HRT_STATUS_SEL

/-- The QUALIFIED source that comes first in PRIO (R55). -/
def State.bestSource (s : State) : Option Nat :=
  (prioOrder (s.get HRT_CTRL_PRIO)).find? fun x => s.qstate x == qQUALIFIED

/-- The place of a source in PRIO, 0 the highest. -/
def State.rank (s : State) (x : Nat) : Nat := (prioOrder (s.get HRT_CTRL_PRIO)).idxOf x

/-- The monitor timebase is the hearth output (R48). -/
def State.hearthTimebase (s : State) : Bool :=
  s.hearth == hLOCKED || s.hearth == hHOLDOVER || (s.hearth == hWAIT && s.flag HRT_STATUS_HIST_VALID)

/-- The TRIP and QUAL bits of a source in HRT_EVENT. -/
def tripBit (x : Nat) : Fld := ⟨HRT_EVENT, 8 + x, 1⟩
def qualBit (x : Nat) : Fld := ⟨HRT_EVENT, 11 + x, 1⟩

/-- The latest entry of a table by source. -/
def ofSource (l : List (Nat × Nat)) (x : Nat) : Option Nat := (l.find? fun e => e.1 == x).map (·.2)

/-- The entry of source `x` set. -/
def noteSource (l : List (Nat × Nat)) (x v : Nat) : List (Nat × Nat) := (x, v) :: l.filter fun e => e.1 != x

/-- The tracked phase of a source against the hearth output, in fs: what was measured at this moment, or else a free value of the moment (R57,
HRT_PHASE_A, HRT_PHASE_B; DESIGN CHOICE, log entry 22). -/
def State.trackedPhase (s : State) (x : Nat) : Int :=
  if ofSource s.hrt.seen x = some s.fine then
    (if x = 0 then signed 32 (s.get HRT_PHASE_A_PHASE) else if x = 1 then signed 32 (s.get HRT_PHASE_B_PHASE) else s.hrt.phaseX)
  else Config.sourcePhase x s.fine

/-- HRT_SRC_STATUS as it reads: FINE_OK is 0 for the selected source, and PHIT tells of the last 1 ms only. -/
def State.srcStatus (s : State) : Word :=
  [0, 1, 2].foldl (fun w x =>
    let w := if s.sel = x then withBits w (8 * x + 4) 1 0 else w
    if (ofSource s.hrt.hits x).any fun at_ => decide (s.elapsed < at_ + msec 1) then w else withBits w (8 * x + 5) 1 0) (s.reg HRT_SRC_STATUS)

/-- The tuning word at this moment: the one held, or the one that the loop has reached (R60). -/
def State.tuningNow (s : State) : Int := if s.hrt.frozen then s.hrt.tune else Config.tuning s.fine

/-- The history value: the mean of the tuning word over 1 s, less the final 10 ms before this moment (R60; DEDUCED, log entry 85). -/
def State.historyValue (s : State) : Int := Config.tuningMean (s.elapsed - msec 1000) (s.elapsed - msec 10)

/-- The tuning is held at `v` from now on; the frequency moves towards no source (R57, R60 to R63). -/
def holdTuning (v : Int) (s : State) : State :=
  { s with hrt := { s.hrt with frozen := true, tune := v, moving := false } }.lower HRT_STATUS_SLEWING

/-- Phase build-out to source `x`: its tracked phase is taken as a fixed offset, and its frequency moves towards that of the source. SLEWING reads 1
only while a SLEW limit holds the rate, which depends on frequencies the spec leaves open and is a free value (R57; DESIGN CHOICE, log entry 22). -/
def buildOut (x : Nat) (s : State) : State :=
  let (i, t) := s.fresh
  let t := { t with hrt := { t.hrt with buildOut := t.trackedPhase x, frozen := false, moving := true } }
  (t.put HRT_STATUS_SEL x).putFlag HRT_STATUS_SLEWING (t.get HRT_CTRL_SLEW != 0 && Config.freeBit i)

/-- A switch between QUALIFIED sources, reported as class W; it forces no output (R57, R58). -/
def switchTo (x : Nat) (s : State) : State :=
  raiseFault srcHearth .srcSwitch none x ((buildOut x s).raise HRT_EVENT_SWITCH)

/-- The tuning history stops being valid (R60). -/
def loseHistory (s : State) : State :=
  if s.flag HRT_STATUS_HIST_VALID then (s.lower HRT_STATUS_HIST_VALID).raise HRT_EVENT_HIST_LOST else s

/-- The hearth leaves HOLDOVER for LOCKED, by phase build-out to source `x` (R57, R65). -/
def leaveHoldover (x : Nat) (s : State) : State :=
  let u := (((loseHistory (buildOut x s)).put HRT_STATUS_STATE hLOCKED).put HRT_STATUS_LEFT 0).raise HRT_EVENT_HOLD_EXIT
  raiseFault srcHearth .srcSwitch none x u

/-- Source `x`, QUALIFIED, is taken as the reference: by a switch while LOCKED, by the exit from HOLDOVER, or as what the hearth acquires from; a hearth
that is LOST takes none (R55, R57, R63). -/
def takeSource (x : Nat) (s : State) : State :=
  if s.hearth = hLOCKED then (if x = s.sel then s else switchTo x s)
  else if s.hearth = hHOLDOVER then leaveHoldover x s
  else if s.hearth = hACQUIRE ∨ s.hearth = hWAIT then s.put HRT_STATUS_SEL x
  else s

/-- The hearth enters HOLDOVER: it runs at the history value, and no output is forced (R61); a reed's or a rim's calibration that needs a LOCKED hearth
ends (R223). -/
def enterHoldover (s : State) : State :=
  let t := ((s.put HRT_STATUS_STATE hHOLDOVER).put HRT_STATUS_SEL 3).put HRT_STATUS_LEFT (s.get HRT_HOLD_CFG_HOLD_WIN)
  let t := (holdTuning s.historyValue t).raise HRT_EVENT_HOLD_ENTER
  abandonCalHearth (raiseFault srcHearth .holdover none 0 { t with hrt := { t.hrt with leftFrom := t.elapsed } })

/-- The hearth enters WAIT: its tuning is frozen, every spoke parks through the force path, and each basket with a bound strand
has a class B fault (R62). `why` is 0 for a lost reference and 1 for an unlock (R363). -/
def enterWait (why : Nat) (s : State) : State :=
  let t := (s.put HRT_STATUS_STATE hWAIT).put HRT_STATUS_LEFT (s.get HRT_HOLD_CFG_WAIT_MAX)
  let t := (holdTuning s.tuningNow t).raise HRT_EVENT_WAIT_ENTER
  let t := { t with hrt := { t.hrt with leftFrom := t.elapsed } }
  let t := parkSpokes SPK_STATUS_C_HEARTH allSpokes t
  let t := eachDo t.boundBaskets (fun b => raiseFault srcHearth .hearthWait (some b) why) t
  abandonCalHearth t

/-- The hearth enters LOST: every spoke parks, and one class G fault is raised; the tuning stays frozen (R63). -/
def enterLost (s : State) : State :=
  let t := ((s.put HRT_STATUS_STATE hLOST).put HRT_STATUS_LEFT 0).raise HRT_EVENT_LOST
  let t := holdTuning s.tuningNow (t.put HRT_STATUS_SEL 3)
  raiseFault srcHearth .hearthLost none 0 (parkSpokes SPK_STATUS_C_HEARTH allSpokes t)

/-- The selected source has left QUALIFIED: a switch to the best one left, else HOLDOVER where it is available, else WAIT (R55, R61, R62, R65). -/
def selectedLost (s : State) : State :=
  match s.bestSource with
  | some y => switchTo y s
  | none =>
    if s.get HRT_HOLD_CFG_HOLD_WIN ≠ 0 ∧ s.flag HRT_STATUS_HIST_VALID then enterHoldover s
    else enterWait 0 (s.put HRT_STATUS_SEL 3)

/-- What follows for the hearth once sources have left QUALIFIED together: where the selected one is among them, LOCKED takes its loss; while
acquiring, the best QUALIFIED source is taken, if there is one (R52, R55, R59, R65). -/
def afterLoss (s : State) : State :=
  if s.sel < 3 ∧ s.qstate s.sel ≠ qQUALIFIED then
    if s.hearth = hLOCKED then selectedLost s
    else if s.hearth = hACQUIRE ∨ s.hearth = hWAIT then s.put HRT_STATUS_SEL (s.bestSource.getD 3)
    else s
  else s

/-- Source `x` takes qualification state `q` below QUALIFIED; a forced source that leaves QUALIFIED sets MODE to AUTO (R45, R56). -/
def dropSource (x q : Nat) (s : State) : State :=
  let t := s.put (HRT_SRC_STATUS_QSTATE x) q
  if s.qstate x = qQUALIFIED ∧ s.get HRT_CTRL_MODE = 1 ∧ s.get HRT_CTRL_FORCE_SRC = x then t.put HRT_CTRL_MODE 0 else t

/-- Source `x` takes qualification state `q` below QUALIFIED, with what follows for the hearth (R45). -/
def unqualify (x q : Nat) (s : State) : State := afterLoss (dropSource x q s)

/-- Monitor `mon` of R47's table, counted from 0, trips on source `x`: TRIP, a class W report, and state `q` (R45, R47, R65). -/
def tripSource (x mon q : Nat) (s : State) : State :=
  dropSource x q (raiseFault srcHearth .srcTrip none (x + 256 * mon) (s.raise (tripBit x)))

/-- A monitor trips, with what follows for the hearth. -/
def monitorTrip (x mon q : Nat) (s : State) : State := afterLoss (tripSource x mon q s)

/-- What the hearth acquires from, where firmware or qualification has changed the choice: the forced source in FORCED mode, else the QUALIFIED source
that comes first in PRIO (R46, R52, R55, R56). -/
def reselect (s : State) : State :=
  if s.hearth = hACQUIRE then
    (if s.get HRT_CTRL_MODE = 1 ∧ s.qstate (s.get HRT_CTRL_FORCE_SRC) = qQUALIFIED then s.put HRT_STATUS_SEL (s.get HRT_CTRL_FORCE_SRC)
     else s.put HRT_STATUS_SEL (s.bestSource.getD 3))
  else s

/-- Source `x` is QUALIFIED, and that is reported (R45). -/
def qualify (x : Nat) (s : State) : State := (s.put (HRT_SRC_STATUS_QSTATE x) qQUALIFIED).raise (qualBit x)

/-- The sources `xs` become QUALIFIED at one moment: in HOLDOVER, and in WAIT without a reference, the one of them that comes first in PRIO is taken,
whatever other sources PRIO names (R45, R52, R59, R61, R62, R65). -/
def sourcesQualified (xs : List Nat) (s : State) : State :=
  let t := eachDo xs qualify s
  if t.hearth = hHOLDOVER ∨ (t.hearth = hWAIT ∧ t.sel = 3) then
    match (prioOrder (t.get HRT_CTRL_PRIO)).find? fun x => xs.contains x with
    | some x => takeSource x t
    | none => t
  else reselect t

/-- Warp lane `x` has lost CDR lock or block lock: the warp activity monitor trips, and the source becomes ABSENT (R45, R47). What follows for the
hearth is `afterLoss`, once for all the lanes that are lost together (R59). -/
def warpOff (x : Nat) (s : State) : State :=
  if s.qstate x = qABSENT then s else tripSource x 1 qABSENT (s.lower (HRT_SRC_STATUS_ACT x))

/-- Warp lane `x` alone has lost CDR lock or block lock. -/
def warpLost (x : Nat) (s : State) : State := afterLoss (warpOff x s)

end Sys2Proof.Machine
end

