-- ==== Sys2Proof/Machine/TallyServo.lean ====
section
/-! DEFINITION. The tally's domains and states, which lanes use too (R87 to R101). Domain 0 is A and 1 is B. -/

namespace Sys2Proof.Machine

def tFREE : Nat := 0
def tACQUIRE : Nat := 1
def tTRACKING : Nat := 2
def tHOLDOVER : Nat := 3
def dINVALID : Nat := 0
def dCHECKING : Nat := 1
def dVALID : Nat := 2

def domFld (x : Nat) : Fld := ⟨TAL_STATUS, 8 + 2 * x, 2⟩
def State.domState (s : State) (x : Nat) : Nat := s.get (domFld x)
def State.dom (s : State) (x : Nat) : Domain := if x = 0 then s.tal.domA else s.tal.domB
def State.setDom (s : State) (x : Nat) (d : Domain) : State :=
  if x = 0 then { s with tal := { s.tal with domA := d } } else { s with tal := { s.tal with domB := d } }
def cntReg (x : Nat) : Nat := TAL_CNT_A + 4 * x
def accepted (x : Nat) : Fld := ⟨cntReg x, 0, 16⟩
def refused (x : Nat) : Fld := ⟨cntReg x, 16, 8⟩
def gaps (x : Nat) : Fld := ⟨cntReg x, 24, 8⟩
def asymOf (s : State) (x : Nat) : Int := signed 32 (s.get ⟨TAL_ASYM_A + 4 * x, 0, 32⟩)

/-- The delay of warp link `x`'s ingress in units of 2^-16 ns, from its average and its declared asymmetry (R87, R88, R90). Before any exchange has been
averaged it is the asymmetry's half alone (DESIGN CHOICE, log entry 88). -/
def dIn (x : Nat) (s : State) : Int :=
  let l := s.avgOf x
  let n := max 1 l.length
  roundAway (l.sum * 1000000000 * 1000000 + asymOf s x * 65536 * n * 2 ^ 32) (2 * n * 2 ^ 32 * 1000000)

/-- The published delay of an average, in whole fs, rounded down: half the mean of (t4 - t1) - TURN, plus half the asymmetry (R90, R91; DESIGN CHOICE,
log entry 89). -/
def delayFs (l : List Int) (asym : Int) : Int :=
  let n := max 1 l.length
  (l.sum * 10 ^ 15 + asym * n * 2 ^ 48) / (2 * n * 2 ^ 48)

/-- The domain named first in DOM_PRIO, and the other. -/
def domOrder (s : State) : List Nat := if s.flag TAL_CTRL_DOM_PRIO then [1, 0] else [0, 1]

/-- The first VALID domain in DOM_PRIO (R96). -/
def firstValid (s : State) : Option Nat := (domOrder s).find? fun x => s.domState x == dVALID

/-- A step: the tally takes domain `x`'s time in one hearth cycle, which moves it against the other domain too; no offset is left to slew; and every armed
TIMED hop whose fire value is then past completes as MISSED (R97, R100). -/
def tallyStep (x : Nat) (s : State) : State :=
  let now := (((s.tally : Int) - (s.dom x).off) % (2 ^ 96 : Int)).toNat
  let t := { s with tal := { s.tal with count := now * 2 ^ 40 } }
  let t := (t.raise TAL_EVENT_STEP).lower TAL_STATUS_SLEWING
  let y := 1 - x
  let t := (t.setDom y { (t.dom y) with off := (t.dom y).off - (s.dom x).off }).setDom x { (s.dom x) with off := 0 }
  let late := t.hops.filter fun h => h.timed && (h.st == .armed || h.st == .held || h.st == .speculative) && h.fire ≤ now
  eachDo late (fun h u => completeHop h cMISSED 0 0 u) t

/-- The tally enters ACQUIRE steered to domain `x`; from HOLDOVER the exit is reported, and MISMATCH ends (R98, R99). -/
def enterAcquire (x : Nat) (s : State) : State :=
  let t := if s.get TAL_STATUS_STATE = tHOLDOVER then s.raise TAL_EVENT_HOLD_EXIT else s
  let t := if s.get TAL_STATUS_STATE = tFREE then t.raise TAL_EVENT_ACQUIRED else t
  ((t.put TAL_STATUS_STATE tACQUIRE).put TAL_STATUS_SEL x).lower TAL_STATUS_MISMATCH

/-- The rate adjustment's mean over the last 10 s of elapsed time (R98). -/
def meanRate (now : Nat) (l : List (Nat × Int)) : Int :=
  let from_ := now - msec 10000
  let f := l.foldl (fun (acc : Int × Nat) e =>
    let a := max e.1 from_
    if a < acc.2 then (acc.1 + e.2 * ((acc.2 - a : Nat) : Int), a) else acc) (0, now)
  if now = from_ then 0 else f.1 / ((now - from_ : Nat) : Int)

/-- TALLY_HOLDOVER_ENTER: no domain is VALID; the rate adjustment is held at its mean over the last 10 s (R98, R101). -/
def enterTallyHoldover (s : State) : State :=
  let t := setRate (meanRate s.elapsed s.tal.rates) 0 s
  let t := ((t.put TAL_STATUS_STATE tHOLDOVER).put TAL_STATUS_SEL 3).lower TAL_STATUS_SLEWING
  let t := { (t.raise TAL_EVENT_HOLD_ENTER) with tal := { t.tal with holdSince := t.elapsed } }
  raiseFault (srcTally 0) .talHoldover none 0 t

/-- An offset is to be removed by a slew, within ACQ_SLEW where `acq` holds and SWSLEW otherwise (R97, R98, R99). -/
def beginSlew (acq : Bool) (s : State) : State := { s with tal := { s.tal with acqSlew := acq } }.raise TAL_STATUS_SLEWING

/-- The selection moves to domain `y`, which is reported (R96, R97). TAL_EVENT.SWITCH tells of a switch from one domain to the other alone (DESIGN CHOICE,
log entry 90). -/
def selectDomain (y : Nat) (s : State) : State :=
  raiseFault (srcTally 0) .talSwitch none y ((s.put TAL_STATUS_SEL y).raise TAL_EVENT_SWITCH)

/-- DOMAIN_SWITCH: the hub selects domain `y`. Where it steers, it keeps the tally's phase and rate and then removes the domain's offset at SWSLEW; in
HOLDOVER, held there by R99, it waits on (R96, R97; DEDUCED, log entry 91). -/
def domainSwitch (y : Nat) (s : State) : State :=
  if s.get TAL_STATUS_STATE = tHOLDOVER then selectDomain y s else beginSlew false (selectDomain y s)

/-- DOMAIN_VALID: domain `x` is VALID; FREE ends with a step, HOLDOVER as R99 lays down, whether or not the other domain has set MISMATCH (R94, R98,
R99). -/
def domainValid (x : Nat) (s : State) : State :=
  let t := (s.put (domFld x) dVALID).raise ⟨TAL_EVENT, 9 + x, 1⟩
  if t.get TAL_STATUS_STATE = tFREE then enterAcquire x (tallyStep x t)
  else if t.get TAL_STATUS_STATE = tHOLDOVER then
    if (t.dom x).off.natAbs ≤ usec (t.get TAL_DOM_CFG_STEP_THR) then beginSlew true (enterAcquire x t)
    else if t.flag TAL_CTRL_AUTO_STEP then enterAcquire x (tallyStep x t)
    else if t.flag TAL_STATUS_MISMATCH then t
    else raiseFault (srcTally 0) .talMismatch none 0 (((t.put TAL_STATUS_SEL x).raise TAL_STATUS_MISMATCH).raise TAL_EVENT_MISMATCH)
  else t

/-- A domain CHECKING becomes VALID once 64 exchanges are averaged and its latest two messages lay at most DOM_TMO apart; never before
the hearth's first lock (R82, R94). Where both become VALID at once, each is taken in DOM_PRIO's order (R96). -/
def tryValid (x : Nat) (s : State) : State :=
  if s.domState x = dCHECKING ∧ 64 ≤ (s.avgOf x).length ∧ (s.dom x).close ∧ s.hrt.everLocked then domainValid x s else s

/-- Domain `x` is INVALID; a selected one gives way to the other, or the tally enters HOLDOVER (R94, R96, R98). -/
def domainInvalid (x : Nat) (s : State) : State :=
  if s.domState x = dINVALID then s
  else
    let t := (s.put (domFld x) dINVALID).raise ⟨TAL_EVENT, 7 + x, 1⟩
    let t := t.setDom x { (t.dom x) with last := none, close := false, jumps := 0 }
    if t.get TAL_STATUS_SEL = x then
      if t.get TAL_STATUS_STATE = tACQUIRE ∨ t.get TAL_STATUS_STATE = tTRACKING then
        if t.domState (1 - x) = dVALID then domainSwitch (1 - x) t else enterTallyHoldover t
      else if t.domState (1 - x) = dVALID then domainSwitch (1 - x) t
      else (t.put TAL_STATUS_SEL 3).lower TAL_STATUS_MISMATCH
    else t

end Sys2Proof.Machine
end

