-- ==== Sys2Proof/Machine/LaneOps.lean ====
section
/-! DEFINITION. Replay episodes, credits, arrivals and departures of lane sources (R241, R257, R268 to R281). -/

namespace Sys2Proof.Machine

/-! ## The plan's use of lanes (R31, R271, R276, R298) -/

/-- The physical lane of lane `k` of weft group `g` (R31). -/
def weftLane (g k : Nat) : Nat := 4 + 13 * g + k

/-- The number of lanes of a handle's range. -/
def State.boundWidth (s : State) (h : Nat) : Nat := 2 ^ s.get (LANE_PTN_BIND_WIDTH h)

/-- The first physical lane of a handle's range, and its group's spare. -/
def State.rangeFirst (s : State) (h : Nat) : Nat := weftLane (s.get (LANE_PTN_BIND_GROUP h)) (s.get (LANE_PTN_BIND_FIRST h))
def State.groupSpare (s : State) (h : Nat) : Nat := weftLane (s.get (LANE_PTN_BIND_GROUP h)) 12

/-- Physical lane `p` lies in the range of handle `h`. -/
def State.inRange (s : State) (h p : Nat) : Bool :=
  s.flag (LANE_PTN_BIND_BOUND h) && decide (s.rangeFirst h ≤ p) && decide (p < s.rangeFirst h + s.boundWidth h)

/-- The bound handle whose range holds lane `p`. -/
def State.handleOf (s : State) (p : Nat) : Option Nat := (List.range 96).find? fun h => s.inRange h p

/-- The handle to which lane `p`, a group's spare, is wired. -/
def State.wiredTo (s : State) (p : Nat) : Option Nat :=
  (List.range 96).find? fun h => s.flag (LANE_PTN_BIND_BOUND h) && s.flag (LANE_PTN_BIND_SPARE h) && s.groupSpare h == p

/-- The plan in force uses lane `p`: warp and chain lanes always, a weft lane in a handle's range, a spare that is wired (R271); a lane that failed
its loopback test is held OFF (R414). -/
def State.laneUsed (s : State) (p : Nat) : Bool :=
  (decide (p < 4) || (s.handleOf p).isSome || (s.wiredTo p).isSome) && !s.flag (mapBit BIST_LANE_FAIL p)

/-! ## Credits (R241, R257) -/

/-- The places of source `f` in the lane rings: ring and index. -/
def State.placesOf (s : State) (f : Nat) : List (Nat × Nat) :=
  (s.rings.filter fun r => s.get (RING_DESC1_KIND r) == 2).flatMap fun r =>
    ((List.range 6).filter fun j => s.get (RING_SRC_SRC r j) == f).map fun j => (r, j)

/-- Source `f`'s credits are withdrawn (R257). -/
def withdrawCredits (f : Nat) (s : State) : State := eachDo (s.placesOf f) (fun e t => t.setReg (RING_SRC_OUT e.1 e.2) 0) s

/-- `k` credits of ring `r` are sent to its source `j` on link `l` (R241, R264). -/
def sendCredits (l r k : Nat) (s : State) : State :=
  if k = 0 then s
  else sendFrame l (.credit k (s.get (RING_DESC1_CLASS r)) (s.get (RING_DESC1_BASKET r)) (s.get TAL_STATUS_CHAIN_POS)) s

/-- Source `f`'s lane has entered ACTIVE: it is granted its SHARE of each ring, less its own entries still there (R241). -/
def grantAt (f : Nat) (e : Nat × Nat) (s : State) : State :=
  let own := s.hops.countP fun h => h.ring == e.1 && h.feed == some f && h.st == .queued
  let k := s.get (RING_SRC_SHARE e.1 e.2) - own
  sendCredits (s.sourceLane f) e.1 k ((s.setReg (RING_SRC_OUT e.1 e.2) 0).put (RING_SRC_OUT_HELD e.1 e.2) k)

/-- Source `f` is granted its credits of every ring that it feeds. -/
def grantCredits (f : Nat) (s : State) : State := eachDo (s.placesOf f) (grantAt f) s

/-- The owed credits of ring `r`'s source `j` leave (R241). -/
def sendOwed (r j : Nat) (s : State) : State :=
  let f := s.get (RING_SRC_SRC r j)
  let k := s.get (RING_SRC_OUT_OWED r j)
  if k != 0 && s.sourceActive f then
    sendCredits (s.sourceLane f) r k ((s.put (RING_SRC_OUT_OWED r j) 0).put (RING_SRC_OUT_HELD r j) (s.get (RING_SRC_OUT_HELD r j) + k))
  else s

/-! ## Going down (R269, R271, R280) -/

/-- Every frame still unacknowledged or unsent on link `l` is discarded; a completion counts in its basket's CPL_DISC (R269, R279). -/
def dropFrames (l : Nat) (s : State) : State :=
  let x := s.link l
  eachDo (x.unacked.map (·.2) ++ x.waiting) (fun f t =>
    match f with
    | .cpl c ws => if c = t.get TAL_STATUS_CHAIN_POS ∧ (4 ≤ l ∨ l < 2) then t.incSat (RING_BSK_CNT0_CPL_DISC (bitsAt (ws.getD 0 0) 24 6)) else t
    | _ => t) s

/-- The phase to which lane `p` returns: DETECT, or OFF where the plan does not use it. -/
def State.restPhase (s : State) (p : Nat) : Nat := if s.laneUsed p then lDETECT else lOFF

/-- The range of tap `i` of a lane's equaliser: CTLE, DFE1, then DFE2 to DFE8 (R220). -/
def tapRange (i : Nat) : Int × Int := if i = 0 then (0, 15) else if i = 1 then (-63, 63) else (-31, 31)

/-- The rates of code `m` and below, as RATES offers them (R274). -/
def ratesFrom (m : Nat) : Nat := 2 ^ (4 - m) - 1

/-- The position in its offer that lane `p` carries: its place in its handle's range; a spare's is that of the lane it stands in for, which SUBSTITUTE names
or which has not left DETECT; 0 for a warp or chain lane (R265, R274, R278; DESIGN CHOICE, log entry 109). -/
def State.lanePos (s : State) (p : Nat) : Nat :=
  match s.handleOf p with
  | some h => p - s.rangeFirst h
  | none => match s.wiredTo p with
    | some h =>
      let ps := (List.range (s.boundWidth h)).map fun i => s.rangeFirst h + i
      match (ps.find? fun q => (s.lane q).replaced).or (ps.find? fun q => s.phase q == lDETECT) with
      | some q => q - s.rangeFirst h
      | none => 0
    | none => 0

/-- Lane `p` sends training sets; a chain port sends nothing while its warp lane is not ACTIVE (R265, R271, R272; DESIGN CHOICE, log entry 110). -/
def sendTs (p : Nat) (ready : Bool) (s : State) : State :=
  if (p = 2 ∨ p = 3) ∧ !s.laneActive (p - 2) then s
  else s.emit (.ts p (ratesFrom (max (s.get (LANE_CFG_MAX_RATE p)) (s.lane p).limit)) (s.lanePos p) ready ((s.reg DEV_SERIAL).toNat % 65536))

/-- Lane `p` is at rest: in DETECT, where it sends training sets, or OFF (R271, R272). -/
def laneRests (p : Nat) (s : State) : State :=
  let t := s.put (LANE_STATUS_PHASE p) (s.restPhase p)
  if t.phase p = lDETECT then sendTs p false t else t

/-- Lane `p` leaves its bond for DETECT, its training sets limited to rate code `c`; a lane under refusal stays held, and one named by SUBSTITUTE stays
named. -/
def laneBack (c p : Nat) (s : State) : State :=
  let t := s.setLane p { hold := (s.lane p).hold, replaced := (s.lane p).replaced, taps := (s.lane p).taps, limit := c }
  let t := (((laneRests p t).lower (LANE_STATUS_FEC p)).lower (LANE_STATUS_REPLAY p)).lower (LANE_STATUS_SUBST p)
  let t := (t.put (LANE_STATUS_BOND_POS p) 0).put (LANE_STATUS_HANDLE p) 0x7F
  let t := calAbandon 0x24 (unitLane p) t
  if p < 2 then warpOff p t else t

/-- Lane `p` leaves its bond for DETECT. -/
def laneDown (p : Nat) (s : State) : State := laneBack 0 p s

/-- A mailbox message in progress to partner `h` ends with LOST (R280, R285). -/
def loseMessages (h : Nat) (s : State) : State :=
  let t := eachDo (s.boxes.filter fun e => e.2.dest == some h && !e.2.late) (fun e t =>
    let t := { t with boxes := tabSet (fun _ => {}) t.boxes e.1 { e.2 with dest := none } }
    ((t.lower (LANE_PCTL_STATUS_BUSY e.1)).raise (LANE_PCTL_STATUS_LOST e.1)).raise (LANE_EVENT_PCTL_DONE e.1)) s
  { t with pctl := t.pctl.filter fun e => e.1 != h }

/-- The SPECULATIVE hops of a source that departs complete LINK_ERR; its unreleased speculative entries that have not got so far do so when
they do (R159, R257, R280). -/
def orphanHops (l : Nat) (s : State) : State :=
  let mine := fun (h : Hop) => h.spec && !h.released && h.src == .lane l
  let t := eachDo (s.hops.filter fun h => mine h && h.st == .speculative) (fun h t => completeHop h cLINK_ERR 0 0 t) s
  { t with hops := t.hops.map fun h => if mine h then { h with orphan := true } else h }

/-- A link that fed rings is down: its credits and its delay average go, and its partner is there no more (R93, R257, R280). -/
def feedLeaves (l h : Nat) (s : State) : State :=
  let t := withdrawCredits (if l < 2 then 0xF0 + l else h) s
  let t := restartAvg l { t with tal := { t.tal with reqs := t.tal.reqs.filter fun q => q.1 != l } }
  if l < 2 then t else (t.lower (LANE_PTN_STATUS_PRESENT h)).putFlag (mapBit LANE_PRESENT h) false

/-- What a departure ends, once its lanes have left ACTIVE: its SPECULATIVE hops, and its mailbox message (R269, R280). -/
def sourceDeparts (l h : Nat) (s : State) : State :=
  let t := orphanHops l s
  if l < 2 then t else loseMessages h (t.raise (mapBit LANE_DEPART_EVT h))

/-- Link `l` leaves: its lanes return to DETECT. A link that was up loses its credits, its delay average and its frames; a departure also
ends what R280 names, while a retraining does not (R93, R94, R257, R269, R271, R280). -/
def leaveLink (depart : Bool) (l : Nat) (s : State) : State :=
  let h := s.get (LANE_STATUS_HANDLE l)
  let fed := (s.link l).up && l != 2 && l != 3
  let t := if (s.link l).up then dropFrames l s else s
  let t := if fed then feedLeaves l h t else t
  let t := if h < 96 then t.put (LANE_PTN_STATUS_WIDTH h) 0 else t
  let t := eachDo (s.linkLanes l) laneDown (t.setLink l {})
  let t := if fed && depart then sourceDeparts l h t else t
  if fed && decide (l < 2) then domainInvalid l t else t

/-- A warp lane `x` is not ACTIVE any more: its chain port carries no signal, and so its link is down (R271, R281, R282; DEDUCED, log entry 111). -/
def silenceChain (x : Nat) (s : State) : State :=
  if x < 2 ∧ s.phase (2 + x) ≠ lDETECT ∧ s.phase (2 + x) ≠ lOFF then leaveLink false (2 + x) s else s

/-- Link `l` leaves, and with a warp lane the chain port of its letter (R271). -/
def linkLeaves (depart : Bool) (l : Nat) (s : State) : State := silenceChain l (leaveLink depart l s)

/-- Link `l` goes down, with what the loss of a warp lane means to the hearth (R55). -/
def linkDown (depart : Bool) (l : Nat) (s : State) : State := afterLoss (linkLeaves depart l s)

/-! ## Replay episodes (R268 to R270) -/

/-- An ACK leaves link `l`, with NAK set for a replay request (R265, R268). -/
def sendAck (l : Nat) (nak : Bool) (s : State) : State :=
  let x := s.link l
  (s.setLink l { x with owed := 0, nakked := x.nakked || nak }).emit (.ack l ((x.rxNext + 4095) % 4096) nak)

/-- A replay episode of link `l` opens, or an open one has a new detection (R269). -/
def openEpisode (l : Nat) (s : State) : State :=
  let x := s.link l
  match x.episode with
  | some e => s.setLink l { x with episode := some { e with far := true } }
  | none =>
    let e : Episode := ⟨s.elapsed, 0, (x.unacked.getLast?).map (·.1), true⟩
    eachDo (s.linkLanes l) (fun p t => t.raise (LANE_STATUS_REPLAY p)) ((s.setLink l { x with episode := some e }).incSat (LANE_CNT0_EPISODES l))

/-- The basket of link `l`'s faults: its partner's, or none for a warp or chain lane (R270). -/
def State.linkBasket (s : State) (l : Nat) : Option Nat := if l < 4 then none else s.laneBasket l

/-- Both ends start an orderly departure on lane `p`: it enters RETIRE with reason `why`, which the far end gave where `far` holds (R271, R279;
DEDUCED, log entry 64). -/
def enterRetire (p why : Nat) (far : Bool) (s : State) : State :=
  let t := (s.put (LANE_STATUS_PHASE p) lRETIRE).setLane p { (s.lane p) with retHub := true, retFar := (s.lane p).retFar || far }
  let t := (t.put (LANE_RET_REASON p) why).putFlag (LANE_RET_BY_FAR p) far
  calAbandon 0x24 (unitLane p) (t.emit (.ret p (if far then 1 else why)))

/-- Link `l` and all its lanes enter RETIRE; a warp lane has left ACTIVE, which ends its domain's validity and silences its chain port (R94, R271). -/
def retireLink (l why : Nat) (far : Bool) (s : State) : State :=
  let t := eachDo (s.linkLanes l) (fun p t => enterRetire p why far t) s
  if l < 2 then silenceChain l (domainInvalid l t) else t

/-- The episode closes once every frame that was unacknowledged at its opening is acknowledged; it is reported once, with its attempts; what
waited goes on, and a RET that arrived meanwhile takes effect (R269, R270, R281). -/
def closeEpisode (l : Nat) (s : State) : State :=
  let x := s.link l
  match x.episode with
  | some e =>
    if e.upto.isNone && !e.far then
      let t := eachDo (s.linkLanes l) (fun p u => u.lower (LANE_STATUS_REPLAY p)) (s.setLink l { x with episode := none, retLater := none })
      let t := raiseFault (srcLane l) .replay (s.linkBasket l) e.attempts t
      match x.retLater with
      | some why => retireLink l why true t
      | none => t
    else s
  | none => s

/-- The far end has acknowledged up to FSEQ `seq` (R268). -/
def acknowledge (l seq : Nat) (s : State) : State :=
  let x := s.link l
  match x.unacked.findIdx? fun f => f.1 == seq with
  | none => s
  | some i =>
    let rest := x.unacked.drop (i + 1)
    let ep := x.episode.map fun e => { e with upto := e.upto.bind fun u => if rest.any fun f => f.1 == u then some u else none }
    s.setLink l { x with unacked := rest, episode := ep }

/-- The attempts that link `l`'s episode has made. -/
def State.attempts (s : State) (l : Nat) : Nat := match (s.link l).episode with | some e => e.attempts | none => 0

/-- An attempt: every unacknowledged frame of link `l` is sent again in its order, in an episode; one that has made 8 is exhausted and makes no more
(R268, R269; DEDUCED, log entry 63). -/
def attempt (l : Nat) (s : State) : State :=
  let t := openEpisode l s
  let x := t.link l
  if 8 ≤ t.attempts l then t
  else
    let t := t.setLink l { x with episode := x.episode.map fun e => { e with attempts := e.attempts + 1 } }
    eachDo x.unacked (fun f u => u.emit (.frame l f.1 f.2)) t

/-- Link `l`'s episode is exhausted: it has made 8 attempts, or has been open for 2 µs (R269). -/
def State.exhausted (s : State) (l : Nat) : Bool :=
  match (s.link l).episode with
  | some e => decide (8 ≤ e.attempts) || decide (e.opened + usec 2 ≤ s.elapsed)
  | none => false

/-- RETRAIN of lane `p`: the lane, or its bond, returns to DETECT; that is no departure (R257, R271, R280; DEDUCED, log entry 28). -/
def retrainLane (p : Nat) (s : State) : State :=
  if s.phase p = lOFF then s else linkLeaves false (s.linkOf p) s

/-- The lanes `ps` retrain together: the hearth meets the loss of all of them at one moment (R59). -/
def retrainLanes (ps : List Nat) (s : State) : State := afterLoss (eachDo ps retrainLane s)

/-- The warp and chain lanes that an escalation has to retrain do so (R270, R372). -/
def retrainEscalated (s : State) : State :=
  if s.col.retrain = [] then s else retrainLanes s.col.retrain { s with col := { s.col with retrain := [] } }

end Sys2Proof.Machine
end

