-- ==== Sys2Proof/Machine/NvmOps.lean ====
section
/-! DEFINITION. The NVM writer and the slots it writes (R229 to R231, R307, R391, R416, R417, R419). -/

namespace Sys2Proof.Machine

/-- Slot `i` of group `g`. -/
def State.slot (s : State) (g i : Nat) : NvmSlot := tabGet (fun _ => {}) s.nvm (16 * g + i)
def State.setSlot (s : State) (g i : Nat) (x : NvmSlot) : State := { s with nvm := tabSet (fun _ => {}) s.nvm (16 * g + i) x }

/-- How many slots a group has: the marker area has 16, the others an A/B pair (R391). -/
def slotCount (g : Nat) : Nat := if g = 6 then 16 else 2

/-- The workspace range of a calibration group's records (R225): first address and length. -/
def groupRange (g : Nat) : Nat × Nat :=
  if g = 1 then (0x04200000, 104448) else if g = 2 then (0x0423A000, 32768) else if g = 3 then (0x04242000, 21760) else (0x04248000, 6912)

/-- LENGTH of a group's body is one that the group has: a boot plan's is its own, up to 64 KiB (R229, R307, R391, R416). -/
def lengthOk (g n : Nat) : Bool :=
  if 1 ≤ g ∧ g ≤ 4 then n == (groupRange g).2 else if g = 5 then decide (n ≤ 65536) else if g = 6 then n == 512 else n == 6944

/-- Little-endian bytes of a number at an offset. -/
def bytesAt (o n x : Nat) : List Host.Cell := (List.range n).map fun i => (o + i, BitVec.ofNat 8 (x / 256 ^ i))

/-- The address at which a group's body begins among its cells: in the workspace, or 0. -/
def bodyBase (g : Nat) : Nat := if 1 ≤ g ∧ g ≤ 4 then (groupRange g).1 else 0

/-- Byte `i` of a slot's body: 0xFF where it is erased, else as programmed, 0 where nothing is said. -/
def NvmSlot.bodyByte (x : NvmSlot) (g i : Nat) : Nat :=
  if !x.body then 255
  else if x.cells.isEmpty then bitsAt (x.words.getD (i / 4) 0) (8 * (i % 4)) 8
  else (tabGet (fun _ => (0 : BitVec 8)) x.cells (bodyBase g + i)).toNat

/-- CHECK as it is computed over a slot: from its start up to the end of the body (R229). -/
def NvmSlot.crc (x : NvmSlot) (g : Nat) : Nat :=
  crcBytes (([x.tag, x.seq, x.len, x.rsv].flatMap fun w => (List.range 4).map fun i => bitsAt w (8 * i) 8) ++
    (List.range x.len.toNat).map fun i => x.bodyByte g i)

/-- COMMIT once it is programmed (R229). -/
def commitWord : Word := BitVec.ofNat 32 0x5A5AC3C3

/-- A slot of group `g` is valid (R230). -/
def NvmSlot.valid (x : NvmSlot) (g : Nat) : Bool :=
  x.commit == commitWord && bitsAt x.tag 0 8 == g && lengthOk g x.len.toNat && x.check.toNat == x.crc g

/-- SEQ `a` is newer than SEQ `b` (R230). -/
def seqNewer (a b : Nat) : Bool := decide (1 ≤ (a + 2 ^ 32 - b) % 2 ^ 32) && decide ((a + 2 ^ 32 - b) % 2 ^ 32 < 2 ^ 31)

/-- The newest valid slot of a group, if there is one (R230, R391). -/
def State.newestSlot (s : State) (g : Nat) : Option Nat :=
  let ok := (List.range (slotCount g)).filter fun i => (s.slot g i).valid g
  ok.find? fun i => ok.all fun j => i == j || !seqNewer (s.slot g j).seq.toNat (s.slot g i).seq.toNat

/-- The slot that the next write of a group takes: the one after the newest valid one (R231, R391). -/
def State.nextSlot (s : State) (g : Nat) : Nat :=
  match s.newestSlot g with
  | some i => (i + 1) % slotCount g
  | none => 0

/-- The SEQ of the next write of a group. -/
def State.nextSeq (s : State) (g : Nat) : Nat :=
  match s.newestSlot g with
  | some i => ((s.slot g i).seq.toNat + 1) % 2 ^ 32
  | none => 1

/-- The records of a calibration group (R225). -/
def groupRecords (g : Nat) : List Nat :=
  if g = 1 then (List.range 1088).map recStrand else if g = 2 then (List.range 256).map recReed
  else if g = 3 then (List.range 20).map recRim else (List.range 108).map recLane

/-- The bytes of the stores from `a` up to `a + len`. -/
def State.cellsIn (s : State) (a len : Nat) : List Host.Cell := s.mem.filter fun c => decide (a ≤ c.1) && decide (c.1 < a + len)

/-- Wale `w`'s word of the repair map: FAILED, the spare's state, where SPLICING is kept as FREE, and POS (R416). -/
def State.mapWale (s : State) (w : Nat) : Nat :=
  let st := s.get (WAL_SPARE_STATE w)
  s.get ⟨WAL_FAILED w, 0, 17⟩ + 131072 * (if st = 1 then 0 else st) + 524288 * s.get (WAL_SPARE_POS w)

/-- The repair map's body as it stands (R416). -/
def State.mapBody (s : State) : List Host.Cell :=
  (s.repair.filter fun c => decide (c.1 < 0x1000)) ++
    (((List.range 64).flatMap fun w => bytesAt (0x1000 + 4 * w) 4 (s.mapWale w)) ++
      ((List.range 16).map fun n => (0x1100 + n, BitVec.ofNat 8 (s.get (RIM_STATUS_PHYS n)))) ++
      bytesAt 0x1110 4 (s.get ⟨RIM_FAILED, 0, 20⟩)) ++
    s.repair.filter fun c => decide (0x1120 ≤ c.1)

/-- The three MISR checks as word 18 of a marker holds them: MATCH in bits 2:0, RAN in bits 5:3 (R415). -/
def State.misrBits (s : State) : Nat := ((List.range 3).map fun k => s.get (BIST_MISR_MATCH k) * 2 ^ k + s.get (BIST_MISR_RAN k) * 2 ^ (k + 3)).sum

/-- Bits of the BIST registers as the marker's body holds them (R415). `st` is its STATE. -/
def State.markerBody (s : State) (st : Nat) : List Word :=
  let w := fun (n : Nat) => BitVec.ofNat 32 n
  [w st, s.reg BIST_OPTIME] ++ (List.range 16).map (fun g => s.reg (BIST_LOGIC g)) ++ [w s.misrBits, s.reg BIST_TIME] ++
    (List.range 8).map (fun i => s.reg (BIST_MEM_FAIL i)) ++ (List.range 4).map fun i => s.reg (BIST_LANE_FAIL i)

/-- The header and the body of a write of group `g` that begins now: FORMAT is 0x01 (R229, R307, R391, R416). -/
def State.bodyOf (s : State) (g : Nat) : NvmSlot :=
  let w := fun (n : Nat) => BitVec.ofNat 32 n
  let x : NvmSlot := { tag := w (g + 256), seq := w (s.nextSeq g), rsv := 0, body := true }
  if 1 ≤ g ∧ g ≤ 4 then { x with len := w (groupRange g).2, cells := s.cellsIn (groupRange g).1 (groupRange g).2 }
  else if g = 5 then { x with len := w (4 * s.load.words.length), words := s.load.words }
  else if g = 6 then { x with len := w 512, words := s.markerBody (if s.get PWR_STATUS_STAGE = 4 then 2 else 1) }
  else { x with len := w 6944, cells := s.mapBody }

/-- Step 2 of a write: the header and the body are programmed into an erased slot (R231). -/
def NvmSlot.program (x d : NvmSlot) : NvmSlot := { x with tag := d.tag, seq := d.seq, len := d.len, rsv := d.rsv, body := true, cells := d.cells, words := d.words }

/-- Step 3: CHECK is programmed. -/
def NvmSlot.programCheck (x : NvmSlot) (g : Nat) : NvmSlot := { x with check := BitVec.ofNat 32 (x.crc g) }

/-- Step 4: COMMIT is programmed. -/
def NvmSlot.programCommit (x : NvmSlot) : NvmSlot := { x with commit := commitWord }

/-- A write of group `g` begins with step 1: the slot that is not the newest valid one is erased (R231, R419). -/
def nvmBegin (g : Nat) (s : State) : State :=
  let i := s.nextSlot g
  { s.setSlot g i {} with nvmRun := some ⟨g, i, s.bodyOf g⟩ }

/-- The writer, idle, takes the next write: those queued in their order, then the groups that CAL_STORE has made pending, the lowest first
(DESIGN CHOICE, log entry 19). -/
def nvmNext (s : State) : State :=
  match s.nvmRun, s.nvmQueue with
  | some _, _ => s
  | none, g :: r => nvmBegin g { s with nvmQueue := r }
  | none, [] =>
    let c := s.unit unitNvm
    match c.pending with
    | (g, _) :: r =>
      let run : CalRun := { target := g, force := false, stage := .store, phys := 0, rotates := false }
      nvmBegin g (setUnit unitNvm { c with pending := r, run := some run } s)
    | [] => s

/-- STORED is set in the records of a calibration group that are still as they were written (R231). -/
def markStored (g : Nat) (body : List Host.Cell) (s : State) : State :=
  let same := fun (a len : Nat) => s.cellsIn a len == body.filter fun c => decide (a ≤ c.1) && decide (c.1 < a + len)
  let len := if g = 1 then 96 else if g = 2 then 128 else if g = 3 then 1088 else 64
  eachDo ((groupRecords g).filter fun a => same a len) (fun a t => t.mput (recStored a) 1) s

/-- The write in progress goes through steps 2 to 4: its slot is valid, and what the group's commit shows is shown (R231, R307, R417). -/
def nvmCommit (j : NvmJob) (s : State) : State :=
  let t := { s.setSlot j.group j.slot ((((s.slot j.group j.slot).program j.body).programCheck j.group).programCommit) with nvmRun := none }
  if 1 ≤ j.group ∧ j.group ≤ 4 then unitIdle unitNvm (markStored j.group j.body.cells t)
  else if j.group = 7 then
    -- a change since the write began waits to be written
    (t.putFlag BIST_MAP_STATUS_PENDING (t.nvmQueue.contains 7 || j.body.cells != t.mapBody)).raise BIST_EVENT_MAP_STORED |>.put BIST_MAP_STATUS_SEQ j.body.seq.toNat
  else t

end Sys2Proof.Machine
end

