-- ==== Sys2Proof/Machine/Settled.lean ====
section
/-! DEFINITION. What has waited for something to end and now goes on: splices, migrations, calibrations and hops (R149, R208, R305, R421, R424). -/

namespace Sys2Proof.Machine

/-- A splice that waited for a load starts once no load includes its strand, or is rejected where its conditions no longer hold (R422). -/
def takeSplice (k : Nat) (s : State) : State :=
  if s.loadIncludesStrand k then s
  else
    let t := { s with spliceWait := s.spliceWait.filter fun j => j != k }
    if t.spliceOk k then spliceBegin k t else t.raise (WAL_EVENT_SPLICE_REJ (waleOf k))

/-- A wear request of a strand is taken when a spare has become FREE (R421). -/
def takeWear (k : Nat) (s : State) : State :=
  if s.flag BIST_WEAR_POLICY_AUTO_STRAND && s.spliceOk k then wearSplice k s else s

/-- A wear request of a rim is taken when the rim is LOCKED and a spare is free (R421). -/
def takeRimWear (n : Nat) (s : State) : State :=
  if s.flag BIST_WEAR_POLICY_AUTO_RIM && s.get (RIM_STATUS_STATE n) == rLOCKED && s.lowestFreeRim.isSome && !s.anyMigration then
    migrateGo n 0x1F { s with rimWearWait := s.rimWearWait.filter fun j => j != n }
  else s

/-- An unlock-driven migration that waited for a load starts once no load includes the rim (R305). -/
def takeUnlock (n : Nat) (s : State) : State :=
  if (s.rim n).waitLoad && s.get (RIM_STATUS_STATE n) == rUNLOCKED && !s.loadIncludesRim n then
    unlockMigrate n (s.modRim n fun r => { r with waitLoad := false })
  else s

/-- A unit that is idle with pending targets chooses again (R208). -/
def takeTarget (u : Nat) (s : State) : State :=
  if (s.unit u).run.isNone && (s.unit u).pending != [] then unitSelect u s else s

/-- Everything that waited and may now go on, after the warp lanes that an escalation retrains (DEDUCED, log entry 73). -/
def settleAll (s : State) : State :=
  let s := retrainEscalated s
  let t := eachDo s.spliceWait takeSplice s
  let t := eachDo t.wearWait takeWear t
  let t := eachDo (List.range 16) (fun n u => takeUnlock n (startDeferred n u)) t
  let t := eachDo t.rimWearWait takeRimWear t
  let t := eachDo (t.units.map (·.1)) takeTarget t
  resettle (fun h => h.op == 1 || h.op == 4 || h.op == 5 || h.op == 6) (nvmNext t)

/-- A meaning that may have released something ends: what waited for it goes on, and the interrupts are sent. -/
def settled (s t : State) : Out := done s (settleAll t)

end Sys2Proof.Machine
end

