-- ==== Sys2Proof/Machine/Maint.lean ====
section
/-! DEFINITION. Maintenance operations as they act (R194, R195, R206, R207), and ECC errors as they are reported (R363, R402, R412). -/

namespace Sys2Proof.Machine

/-! ## ECC -/

/-- The SRAM macro that holds the byte at address `a` of the indirect space (R410, R450). -/
def macroOf (a : Nat) : Nat :=
  if 0x14000000 ≤ a then 128 + (a - 0x14000000) / 262144
  else if 0x10000000 ≤ a then (a - 0x10000000) / 262144
  else if 0x08000000 ≤ a then 192 + (a - 0x08000000) / 262144
  else if 0x05000000 ≤ a then 255
  else 240 + (a - 0x04000000) / 262144

/-- An uncorrectable ECC error at address `a`, met on behalf of a basket or of none: ECC_UNCORR, class B or W by its scope (R363). -/
def raiseEcc (a : Nat) (b : Option Nat) (s : State) : State := raiseFault (srcSram (macroOf a)) .eccUncorr b a s

/-- Address `a` reads with an uncorrectable ECC error: its word has one, or its macro is FAILED (R412; DEDUCED, log entry 62). -/
def State.badEcc (s : State) (a : Nat) : Bool := s.eccBad.contains (a - a % 4) || s.flag (mapBit BIST_MEM_FAIL (macroOf a))

/-! ## Maintenance operations -/

/-- The reed of a MEASURE, a MEASURE_STOP or a CAL_REED; the rim of a CAL_RIM; the lane of a CAL_LANE; the group mask of a CAL_STORE. -/
def cmdReed (w0 : Word) : Nat := bitsAt w0 20 8
def cmdRim (w0 : Word) : Nat := bitsAt w0 20 5
def cmdLane (w0 : Word) : Nat := bitsAt w0 20 7
def cmdGroups (w0 : Word) : List Nat := ((List.range 4).filter fun i => bitsAt w0 (20 + i) 1 == 1).map (· + 1)

/-- The unit and the targets that a calibration command names (R206, R208). -/
def calTargets (w0 w1 : Word) : Nat × List Nat :=
  let k := cmdTarget w0
  if cmdOp w0 = 0xA then (unitStrand k, [if bitsAt w1 2 1 = 1 then 16 else k % 16])
  else if cmdOp w0 = 0xB then (unitReed (cmdReed w0), [cmdReed w0])
  else if cmdOp w0 = 0xC then (unitRim, [cmdRim w0])
  else if cmdOp w0 = 0xD then (unitLane (cmdLane w0), [cmdLane w0])
  else (unitNvm, cmdGroups w0)

/-- A calibration command is accepted by its unit: DETAIL says whether its targets are pending now, were so or ran already, or what a STOP
found (R207). -/
def calAccept (w0 w1 : Word) (s : State) : Nat × State :=
  let (u, xs) := calTargets w0 w1
  if bitsAt w1 0 1 = 1 then
    let r := xs.foldl (fun (a : Bool × State) x => let e := stopTarget u x a.2; (a.1 || e.1, e.2)) (false, s)
    (if r.1 then 2 else 3, r.2)
  else
    let r := xs.foldl (fun (a : Bool × State) x => let e := makePending u x (bitsAt w1 1 1 == 1) a.2; (a.1 && e.1, e.2)) (xs != [], s)
    (if r.1 then 1 else 0, r.2)

/-- A maintenance operation that has its slot goes from ARMED to DUE at once and completes COMMITTED when its reed or unit accepts it; while
BLK_EN.REED is clear a reed's waits, ARMED (R195, R207). -/
def maintGranted (h : Hop) (s : State) : State :=
  if h.op = 8 ∨ h.op = 9 then
    if s.enabled 7 then
      let n := cmdReed h.w0
      let t := if h.op = 8 then reedRequest n s else if s.get (REED_STATUS_STATE n) = eIDLE then s else reedCut n s
      completeHop h cCOMMITTED 0 0 t
    else s.modHop h.id fun x => { x with st := .armed }
  else
    let r := calAccept h.w0 h.w1 s
    completeHop h cCOMMITTED r.1 0 r.2

/-- BLK_EN.REED is set: the reed operations that waited ARMED for it become DUE, the first to arrive first (R195). -/
def reedOpsGo (s : State) : State :=
  if s.enabled 7 then eachDo (s.hops.filter fun h => h.st == .armed && (h.op == 8 || h.op == 9)) maintGranted s else s

end Sys2Proof.Machine
end

