-- ==== Sys2Proof/Machine/Hops.lean ====
section
/-! DEFINITION. Hops from grant to completion: fetch, arming, boundaries, ramps, and the timers that end them (R139, R146 to R166, R248). -/

namespace Sys2Proof.Machine

/-- The bits of a strand record that R137 reserves are all 0. -/
def strandRecClean (r : List Word) : Bool :=
  bitsAt (r.getD 3 0) 13 3 == 0 && bitsAt (r.getD 3 0) 27 1 == 0 && bitsAt (r.getD 4 0) 24 8 == 0 && (r.getD 6 0) == 0 && bitsAt (r.getD 7 0) 1 31 == 0

/-- The bits of a retune record that R138 reserves are all 0. -/
def retuneRecClean (r : List Word) : Bool :=
  bitsAt (r.getD 1 0) 4 28 == 0 && (r.getD 2 0) == 0 && bitsAt (r.getD 3 0) 0 30 == 0 && (r.getD 4 0) == 0 && (r.getD 5 0) == 0 &&
    (r.getD 6 0) == 0 && bitsAt (r.getD 7 0) 1 31 == 0

/-- The rim frequency word lies within the bounds of R67. -/
def rimWordOk (n f : Nat) : Bool :=
  decide (6 * 2 ^ 32 + 0xDB6DB6DC ≤ n * 2 ^ 32 + f) && decide (n * 2 ^ 32 + f ≤ 8 * 2 ^ 32 + 0x49249249)

/-- The first check of R139 that the record of a hop with operation `op` fails; none where it passes. -/
def recordFault (op rel quota : Nat) (ecc : Bool) (r : List Word) : Option Nat :=
  let w3 := r.getD 3 0
  let kind := bitsAt w3 30 2
  let p := (r.getD 0 0).toNat + 2 ^ 32 * (r.getD 1 0).toNat
  let n := bitsAt w3 0 13
  if quota ≤ rel then some 1
  else if ecc then some 2
  else if bitsAt (r.getD 7 0) 0 1 = 0 then some 3
  else if kind ≠ (if op = 4 then 1 else 0) then some 4
  else if op = 4 then
    if !retuneRecClean r then some 5
    else if !rimWordOk (bitsAt (r.getD 1 0) 0 4) (r.getD 0 0).toNat then some 6 else none
  else if !strandRecClean r then some 5
  else if p < 16 * 2 ^ 48 ∨ n = 0 ∨ 4096 < n ∨ (1 ≤ bitsAt w3 24 3 ∧ bitsAt w3 24 3 ≤ 3) ∨ (2 ≤ bitsAt w3 28 2 ∧ bitsAt (r.getD 4 0) 0 16 = 0) then some 6
  else none

/-- R166 refuses the ramp at fetch: the setting names a slot, or the operation is START. -/
def rampRefused (op : Nat) (g : Setting) : Bool := g.rampK != 0 && (g.slot.isSome || op == 5)

/-- The absolute profile index of a hop (R136). -/
def State.absProf (s : State) (h : Hop) : Nat := s.get (BSK_PROF_BASE_BASE h.basket) + cmdProfile h.w1

/-- The address of a profile record in the indirect space (R450). -/
def profAddr (i : Nat) : Nat := 0x10000000 + 32 * i

/-- The eight words of a profile record. -/
def State.record (s : State) (i : Nat) : List Word := (List.range 8).map fun j => s.memWord (profAddr i + 4 * j)

/-- The granted hops of a basket and class within reservation, newest first: when each was granted (R248). -/
def State.grantsOf (s : State) (b c : Nat) : List Nat := tabGet (fun _ => []) s.grants (4 * b + c)

/-- The reservation in force of a class in a basket, in M profiles/s: none while it is withdrawn (R248, R251). -/
def State.reservation (s : State) (b c : Nat) : Nat :=
  if c = 0 then s.get (RING_BSK_RES0_RES_URG b)
  else if c = 1 then (if s.flag (mapBit RING_DEG_MAP b) then 0 else s.get (RING_BSK_RES0_RES_TMD b))
  else if s.flag RING_CAP_BM then 0
  else if c = 2 then s.get (RING_BSK_RES1_RES_BLK b) else s.get (RING_BSK_RES1_RES_MNT b)

/-- A grant now is within a reservation of `res` half M profiles/s: over every interval ending now, the grants within it, this one counted,
number no more than the reservation times its length and 16 (R248). -/
def withinRes (res now : Nat) (ts : List Nat) : Bool :=
  res != 0 && (ts.zipIdx.all fun e => decide ((e.2 + 2) * 2 ^ 49 ≤ res * 1000000 * (now - e.1) + 16 * 2 ^ 49))

/-- The hop's grant now would be within reservation (R248). -/
def State.grantWithin (s : State) (h : Hop) : Bool :=
  withinRes (2 * s.reservation h.basket h.cls) s.elapsed (s.grantsOf h.basket h.cls)

/-- The pace governor allows a grant of the hop's class now (R253): BULK and MAINT grants of a basket at least 16 ns apart from level 1,
BULK within half its reservation at level 2, none at level 3, and TIMED only within reservation there. -/
def State.paceAllows (s : State) (h : Hop) : Bool :=
  let l := s.get RING_CAP_PACE
  let spaced := match tabGet (fun _ => (none : Option Nat)) s.lastGrant (4 * h.basket + h.cls) with
    | some t => decide ((t * 1000000000 + 16 * 2 ^ 48) ≤ s.elapsed * 1000000000)
    | none => true
  if h.cls = 0 then true
  else if h.cls = 1 then (if l = 3 then s.grantWithin h else true)
  else if l = 0 then true
  else if l = 1 then spaced
  else if l = 2 then
    spaced && (h.cls == 3 || withinRes (s.reservation h.basket 2) s.elapsed (s.grantsOf h.basket 2))
  else false

/-- An arm slot is free for the hop: any of the basket's for URGENT, those beside URG_RES for the others (R244). -/
def State.slotFree (s : State) (h : Hop) : Bool :=
  let held := s.get (RING_BSK_ARM_HELD h.basket)
  let urg := s.get (RING_BSK_ARM_URG_HELD h.basket)
  let q := s.get (RING_BSK_CFG_ARM_QUOTA h.basket)
  if h.cls = 0 then decide (held < q)
  else decide (held < q) && decide (held - urg < q - s.get (RING_BSK_CFG_URG_RES h.basket))

/-- A partial reweave of basket `b` is applying: no grant is made for it (R312). -/
def State.applyHolds (s : State) (b : Nat) : Bool :=
  s.loadState == pAPPLYING && match s.load.frag with | some _ => s.get PLAN_STATUS_BASKET == b | none => false

/-- The command's completion entry is reserved, is not needed, or can be reserved now (R239). -/
def State.canAnswer (s : State) (h : Hop) : Bool := h.reserved || cmdReply h.w0 == 1 || s.canReserve h.basket

/-- The hop at the head of its ring may be granted (R234). -/
def State.grantable (s : State) (h : Hop) : Bool :=
  !s.applyHolds h.basket && s.slotFree h && s.paceAllows h && s.canAnswer h

/-- The bank of a hop's record (R246). -/
def State.bankOf (s : State) (h : Hop) : Nat := s.absProf h / 16384

/-- The hop's operation fetches a record: ARM, RETUNE and START do (R139, R164). -/
def Hop.fetches (h : Hop) : Bool := h.op == 1 || h.op == 4 || h.op == 5

/-- Fetch `g` goes before fetch `h` on their bank: by class, then within reservation before beyond, then first come, first served (R247). -/
def fetchFirst (g h : Hop) : Bool :=
  decide (g.cls < h.cls) || (g.cls == h.cls && ((g.within && !h.within) || (g.within == h.within && decide (g.grantSeq < h.grantSeq))))

/-- The fetches granted on bank `i`. -/
def State.fetchesOn (s : State) (i : Nat) : List Hop := s.hops.filter fun h => h.st == .fetching && s.bankOf h == i

/-- The fetch whose access bank `i` performs: the one in progress, or else the first of those that wait, since a bank begins its next access when one
ends (R246, R247). -/
def State.accessing (s : State) (i : Nat) : Option Hop :=
  match (s.fetchesOn i).find? (·.access) with
  | some h => some h
  | none => (s.fetchesOn i).find? fun h => (s.fetchesOn i).all fun g => g.id == h.id || fetchFirst h g

/-- The access that bank `i` performs is in progress: no later fetch goes before it. -/
def beginAccess (i : Nat) (s : State) : State :=
  match s.accessing i with
  | some h => s.modHop h.id fun x => { x with access := true }
  | none => s

/-- How far basket `b` is from its turn among the baskets of class `c` on bank `i`, after the one served last (R248). -/
def State.turnOf (s : State) (i c b : Nat) : Nat := (b + 63 - tabGet (fun _ => 63) s.turn (4 * i + c)) % 64

/-- Command `g` goes before command `h`, both at the heads of their rings with their records in one bank: within reservation before beyond, then by
class. Within reservation the first to come is first; beyond it the baskets of a class take turns (R247, R248; DEDUCED, log entry 108). -/
def State.goesFirst (s : State) (g h : Hop) : Bool :=
  if s.grantWithin g != s.grantWithin h then s.grantWithin g
  else if g.cls ≠ h.cls then decide (g.cls < h.cls)
  else if s.grantWithin g || g.basket == h.basket then decide (g.id < h.id)
  else decide (s.turnOf (s.bankOf h) h.cls g.basket < s.turnOf (s.bankOf h) h.cls h.basket)

/-- Another command that may be granted goes before `h` on its bank (R248). -/
def State.outranked (s : State) (h : Hop) : Bool :=
  h.fetches && s.hops.any fun g =>
    g.st == .queued && g.fetches && g.id != h.id && !g.squashed && !g.aborting && ((s.ringHead? g.ring).map (·.id) == some g.id) && s.grantable g &&
      s.bankOf g == s.bankOf h && s.goesFirst g h

/-- A slot granted to the command at the head of a ring: it leaves the ring, its completion entry is reserved if REPLY names the ring,
and its fetch waits for the bank (R239, R245, R247, R248). -/
def grantSlot (h : Hop) (s : State) : State :=
  let within := s.grantWithin h
  let need := !h.reserved && cmdReply h.w0 != 1
  let t := leaveRing h s
  let t := if need then t.setReserved h.basket (t.reservedOf h.basket + 1) else t
  let key := 4 * h.basket + h.cls
  let t := { t with lastGrant := tabSet (fun _ => none) t.lastGrant key (some t.elapsed) }
  let t := if within then { t with grants := tabSet (fun _ => []) t.grants key (t.elapsed :: t.grantsOf h.basket h.cls) }
    else if h.fetches then { t with turn := tabSet (fun _ => 63) t.turn (4 * s.bankOf h + h.cls) h.basket } else t
  let t := beginAccess (s.bankOf h) { t with grantCtr := t.grantCtr + 1 }
  let t := t.modHop h.id fun x => { x with st := .fetching, reserved := h.reserved || need, within := within, grantSeq := s.grantCtr }
  countSlots h.basket (beginAccess (s.bankOf h) t)

/-- A hop that needs no more of its record arms, or waits for its COMMIT; one for which a SQUASH came meanwhile, or whose source has departed, ends
(R147, R157, R159, R164). -/
def afterFetch (h : Hop) (s : State) : State :=
  if h.squashed && !h.released then completeHop h cSQUASHED 0 0 s
  else if h.spec && !h.released && h.orphan then completeHop h cLINK_ERR 0 0 s
  else if h.spec && !h.released then s.modHop h.id fun x => { x with st := .speculative, record := h.record, heldAt := s.elapsed }
  else armHop h s

/-- HOP_GRANT: the scheduler turns to the command at the head of ring `r`: one that an event has ended completes ABORTED, one marked squashed
SQUASHED, and an unreleased speculative one whose source has gone LINK_ERR, each once its entry can be reserved; another is granted a slot where
R234, R244, R248 and R253 let it (R157, R159, R239, R248). A STOP makes no bank access (R164), and a maintenance operation acts at its grant. -/
def execHopGrant (r : Nat) (s : State) : Out :=
  match s.ringHead? r with
  | none => .next s
  | some h =>
    if h.aborting then done s (abortHop false h s)
    else if h.squashed then if s.canAnswer h then done s (completeQueued h cSQUASHED 0 0 s) else .next s
    else if h.spec && !h.released && h.orphan then if s.canAnswer h then done s (completeQueued h cLINK_ERR 0 0 s) else .next s
    else if s.grantable h && !s.outranked h then
      let t := grantSlot h s
      match t.hop? h.id with
      | some g =>
        if g.op = 6 then done s (afterFetch g t)
        else if 8 ≤ g.op then settled s (maintGranted g t)
        else done s t
      | none => done s t
    else .next s

/-- PROFILE_FETCH_DONE: the bank has performed the access of hop `i`: its record has been fetched whole and is checked, unless a SQUASH came while it
was on its way. One for which another fetch of the bank goes first still waits (R139, R147, R157, R166, R247). -/
def execProfileFetchDone (id : Nat) (s : State) : Out :=
  match s.hop? id with
  | none => .next s
  | some h =>
    if (s.accessing (s.bankOf h)).map (·.id) ≠ some id then .next s
    else if h.st = .fetching ∧ h.squashed ∧ !h.released then done s (completeHop h cSQUASHED 0 0 s)
    else if h.st = .fetching then
      let a := s.absProf h
      let r := s.record a
      let bad := (List.range 8).find? fun j => s.badEcc (profAddr a + 4 * j)
      match recordFault h.op (cmdProfile h.w1) (s.get (BSK_PROF_QUOTA_QUOTA h.basket)) bad.isSome r with
      | some d =>
        let t := match d, bad with
          | 2, some j => raiseEcc (profAddr a + 4 * j) (some h.basket) s
          | _, _ => s
        done s (completeHop h cBAD_PROFILE d 0 t)
      | none =>
        if h.op ≠ 4 ∧ rampRefused h.op (settingOf r a) then done s (completeHop h cBAD_RAMP 0 0 s)
        else done s (afterFetch { h with record := r } s)
    else .next s

/-- `u` U of a rim at word `word` as a time in LSB of the tally: U count 16 * 2^48 to the rim period, whose rate is the word times 1.75 GHz (R20,
R67, R80). -/
def lsbOf (word u : Nat) : Nat := if word = 0 then 0 else u * 2 ^ 32 / (16 * 1750000000 * word)

/-- The tally value of the boundary before the one at `at_` of strand `k`: the two lie apart as its latest two edges do; none for the first one. -/
def State.priorBoundary (s : State) (k at_ : Nat) : Option Nat :=
  match (s.strand k).ys with
  | y :: z :: _ => some (at_ - lsbOf (s.waleWord (waleOf k)) (y - z).toNat)
  | _ => none

/-- A boundary at tally value `at_` lies at or after the fire value: decided exactly beyond 0.5 ps, which is 140.7 LSB, and within it a free choice
(R151; DESIGN CHOICE, log entry 35). -/
def State.reaches (s : State) (at_ : Nat) (h : Hop) : Bool :=
  decide (h.fire + 140 < at_) || (decide (h.fire ≤ at_ + 140) && Config.freeTake s.freeCtr h.id)

/-- The boundary of a TIMED hop has passed: one before the boundary at `at_` lay beyond its fire value (R151, R153). -/
def State.tooLate (s : State) (at_ : Nat) (h : Hop) : Bool :=
  h.timed && match s.priorBoundary h.target at_ with | some p => decide (h.fire + 140 < p) | none => false

/-- The hop may take a boundary placed at tally value `at_`: any for a hop that is not TIMED; for a TIMED one the first at or after its fire value
(R150, R151). -/
def State.takes (s : State) (at_ : Nat) (h : Hop) : Bool := !h.timed || (s.reaches at_ h && !s.tooLate at_ h)

/-- Hop `g` has precedence over hop `h` at one boundary: by class, and within a class the one that armed later (R150). -/
def precedes (g h : Hop) : Bool := decide (g.cls < h.cls) || (g.cls == h.cls && decide (h.armSeq < g.armSeq))

/-- R166 refuses the ramp of a DUE hop against the N in force. -/
def State.rampMismatch (s : State) (h : Hop) : Bool :=
  let g := settingOf h.record 0
  h.op == 1 && g.rampK != 0 && g.n != (s.strand h.target).n

/-- Where a hop's first setting carries a ramp, the first step's period word takes the place of P (R166). -/
def firstStep (x : Strand) (g : Setting) : Setting × Option Ramp :=
  if g.rampK = 0 then (g, none)
  else
    let r : Ramp := ⟨g.p, g.n, g.rampK, g.rampJ, 0⟩
    let p := rampWord x.t r
    ({ g with p := p }, rampLeft p r)

/-- An ARM takes its strand's boundary: the setting governs the strand from the edge placed next (R113, R115, R121, R166). -/
def applyArm (h : Hop) (s : State) : State :=
  let k := h.target
  let x := s.strand k
  let g := settingOf h.record (s.absProf h)
  let mism := match g.slot with
    | some j => let c := x.slot j; c.valid && c.prof == g.prof && !(c.p == g.p && c.n == g.n)
    | none => false
  let (f, r) := firstStep x g
  match settingEdge (s.around k) f { x with ramp := r } with
  | some y =>
    let t := reedsHop k (s.setStrand k y)
    let t := if mism then t.raise (STR_STATUS_SLOT_MISMATCH k) else t
    let t := t.put (STR_STATUS_SLOT_ACT k) (match g.slot with | some j => 4 + j | none => 0)
    completeHop h cCOMMITTED 0 y.edges t
  | none => s

/-- A STOP takes its strand's boundary: the rising edge placed there is the last (R164). -/
def applyStop (h : Hop) (s : State) : State :=
  let t := spliceStopped h.target (stopStrand 3 h.target s)
  settleStopped h.target (completeHop h cCOMMITTED 0 (s.strand h.target).edges t)
where
  /-- The other hops of a strand that has stopped, and of its children, complete as REJ_TARGET when they become DUE (R164, R182). -/
  settleStopped (k : Nat) (s : State) : State :=
    eachDo (s.hops.filter fun g => g.st == .due && (g.op == 1 || g.op == 6) && !s.flag (STR_STATUS_RUN g.target)) becomeDue
      (settleStrand k s)

/-- The registers that read 0 from a start until they are latched or counted again (R134). -/
def startRegs (k : Nat) : List Nat :=
  [STR_ACC0 k, STR_ACC1 k, STR_EDGES0 k, STR_EDGES1 k, STR_SHAPE0 k, STR_SHAPE1 k, STR_FSHAPE0 k, STR_RES k, STR_RES_CNT k] ++
    (List.range 4).flatMap fun j =>
      [STR_SLOT_CTRL k j, STR_SLOT_PER0 k j, STR_SLOT_PER1 k j, STR_SLOT_DIV k j, STR_SLOT_POS0 k j, STR_SLOT_POS1 k j]

/-- The strand has a usable physical strand, so a failure of its residual does not outlast its start (R127, R408). -/
def startReady (k : Nat) (s : State) : State := if s.strandDead k then s else setReason STR_STATUS_NR_RES false k s

/-- A START takes effect at the rim edge, or at the parent's edge `k0`, from which the strand starts: its spokes follow it, and EDGE is 0 (R125, R163,
R177, R182). Only PH_MODE STEP_SLEW leaves a slew running. The start edge of a strand timed by a rim is placed with it. -/
def applyStart (k0 : Nat) (h : Hop) (s : State) : State :=
  let k := h.target
  let g := settingOf h.record (s.absProf h)
  let g := { g with startsSlew := bitsAt (h.record.getD 3 0) 28 2 == 3 }
  let z0 := match (s.strand k).parent with | some q => (edgeAt (s.strand q).ys k0).getD 0 | none => 0
  let x := startEdge k0 z0 g (s.strand k)
  let x := if x.pend then x else (emitEdge (s.around k) true x).getD x
  let t := (s.setStrand k x).raise (STR_STATUS_RUN k)
  let t := (eachDo (startRegs k) (fun a u => u.setReg a 0) t).put (STR_STATUS_SLOT_ACT k) (match g.slot with | some j => 4 + j | none => 0)
  let t := startReady k (reedsHop k t)
  let t := eachDo (t.strandSpokes k) spokeStart (refreshCal k t)
  settleStrand k (eachDo (t.children k) settleStrand (completeHop h cCOMMITTED 0 0 t))

/-- A START that finds its strand running when it would take effect completes as REJ_TARGET with DETAIL 0x03 (R163). -/
def startRejected (h : Hop) (s : State) : State := completeHop h cREJ_TARGET 3 0 (s.incSat (BSK_REJ_CNT_REJ_TARGET h.basket))

/-- The parent edge that is the start point of a plaited strand's START: the first one after the hop became DUE, or for a TIMED one the edge at the
boundary; 0 for a strand timed by a rim; none while there is no such edge (R163, R182). -/
def State.startPoint (s : State) (h : Hop) : Option Nat :=
  match (s.strand h.target).parent with
  | none => some 0
  | some _ =>
    let n := s.parentEdges h.target
    if h.timed then (if n = 0 then none else some (n - 1)) else if h.dueEdge < n then some h.dueEdge else none

/-- The start point of a TIMED START has passed: an edge of its rim, or of its plait parent, before the one at `at_` lay beyond its fire value (R153,
R163, R182). -/
def State.startLate (s : State) (at_ : Nat) (h : Hop) : Bool :=
  h.timed && match (s.strand h.target).parent with
    | some q => (match s.priorBoundary q at_ with | some p => decide (h.fire < p) | none => false)
    | none => decide (h.fire < at_ - lsbOf (s.waleWord (waleOf h.target)) (2 ^ 52))

/-- HOP_TAKE_EFFECT on strand `k` that does not run: the rim edge at tally value `at_`, or the edge of its plait parent placed there after `n` further
ones, is the start point of its START with precedence; a TIMED one whose start point has passed completes MISSED (R153, R163, R182). Other
STARTs then find it running. -/
def takeStart (k n at_ : Nat) (s : State) : State :=
  let s := match (s.strand k).parent with | some q => runEdges q n s | none => s
  let all := s.hops.filter fun h => h.st == .due && h.target == k && h.op == 5 && (!h.timed || decide (h.fire ≤ at_)) && (s.blocked h).isNone
  let due := all.filter fun h => !s.startLate at_ h
  let t := eachDo (all.filter (s.startLate at_)) (fun h u => completeHop h cMISSED 0 0 u) s
  match due.find? fun h => due.all fun g => g.id == h.id || precedes h g with
  | none => t
  | some w =>
    match s.startPoint w with
    | some k0 => applyStart k0 w t
    | none => t

/-- HOP_TAKE_EFFECT on running strand `k`: after `n` further edges its commit boundary is placed at tally value `at_`. STARTs find the strand running.
Of the other DUE hops that may take the boundary, those whose ramp R166 refuses complete BAD_RAMP, the one with precedence takes effect, and the
others complete SUPERSEDED; a TIMED one whose boundary has passed completes MISSED (R113, R150, R151, R153, R163, R164, R166). A plaited strand
that has not placed edge 0 has no boundary yet. -/
def takeBoundary (k n at_ : Nat) (s : State) : State :=
  let s := runEdges k n s
  let s := eachDo (s.hops.filter fun h => h.st == .due && h.target == k && h.op == 5 && (!h.timed || decide (h.fire ≤ at_))) startRejected s
  if (s.strand k).pend then s
  else
    let due := s.hops.filter fun h => h.st == .due && h.target == k && (h.op == 1 || h.op == 6) && (s.blocked h).isNone
    let fit := due.filter (s.takes at_)
    let bad := fit.filter s.rampMismatch
    let t := eachDo (due.filter (s.tooLate at_)) (fun h u => completeHop h cMISSED 0 0 u) { s with freeCtr := s.freeCtr + 1 }
    let t := eachDo bad (fun h u => completeHop h cBAD_RAMP 0 0 u) t
    let fit := fit.filter fun h => !s.rampMismatch h
    match fit.find? fun h => fit.all fun g => g.id == h.id || precedes h g with
    | none => t
    | some w =>
      let t := eachDo (fit.filter fun h => h.id != w.id) (fun h u => completeHop h cSUPERSEDED 0 0 u) t
      if w.op = 6 then applyStop w t else applyArm w t

/-- HOP_TAKE_EFFECT on strand `k`. -/
def takeStrand (k n at_ : Nat) (s : State) : State :=
  if s.flag (STR_STATUS_RUN k) then takeBoundary k n at_ s else takeStart k n at_ s

/-- A retune begins (R69, R70, R165): the target word is in force from now on, the rim is in RETUNE, and its strands are not ready; with
RETUNE_PARK set their spokes park. -/
def beginRetune (h : Hop) (s : State) : State :=
  retuneTo h.rim (some h.id) (h.record.getD 0 0) (bitsAt (h.record.getD 1 0) 0 4) s

/-- HOP_TAKE_EFFECT on rim `n`, at the hearth cycle at tally value `at_`: its DUE retune with precedence begins, a TIMED one at or after its fire
value (R150, R165). -/
def takeRim (n at_ : Nat) (s : State) : State :=
  let due := s.hops.filter fun h => h.st == .due && h.op == 4 && h.rim == n && (!h.timed || decide (h.fire ≤ at_)) && (s.blocked h).isNone
  match due.find? fun h => due.all fun g => g.id == h.id || precedes h g with
  | some w => beginRetune w s
  | none => s

/-- HOP_TAKE_EFFECT (R150): on a strand's boundary, or where `rim` holds on a rim. -/
def execHopTakeEffect (rim : Bool) (k n at_ : Nat) (s : State) : Out :=
  settled s (if rim then takeRim k at_ s else takeStrand k n at_ s)

/-- HOLD_MAX_EXPIRE: hop `i` has been HELD for HOLD_MAX, and completes NOT_READY with the reason in force (R149). -/
def execHoldMaxExpire (i : Nat) (s : State) : Out :=
  match s.hop? i with
  | some h =>
    if h.st = .held then
      match s.blocked h with
      | some d => done s (completeHop h cNOT_READY d 0 s)
      | none => .next s
    else .next s
  | none => .next s

/-- FIRE_LEAD_REACHED: the tally reaches the fire value of hop `i` less 24 ns; eligible and released, it becomes DUE (R152). -/
def execFireLeadReached (i : Nat) (s : State) : Out :=
  match s.hop? i with
  | some h =>
    if h.st = .armed ∧ h.timed ∧ s.leadReached h.fire ∧ (s.blocked h).isNone then done s (becomeDue h s) else .next s
  | none => .next s

/-- TIMED_MISSED: hop `i`, TIMED and not DUE, has reached its fire value (R153, R160). -/
def execTimedMissed (i : Nat) (s : State) : Out :=
  match s.hop? i with
  | some h =>
    if h.timed ∧ (h.st = .armed ∨ h.st = .held ∨ h.st = .speculative) ∧ h.fire ≤ s.tally then done s (completeHop h cMISSED 0 0 s) else .next s
  | none => .next s

/-- SPEC_TIMEOUT: no COMMIT or SQUASH for hop `i` within SPEC_TMO; the timer stands still while its lane replays (R159). -/
def execSpecTimeout (i : Nat) (s : State) : Out :=
  match s.hop? i with
  | some h =>
    let replay := match h.src with | .lane p => s.flag (LANE_STATUS_REPLAY p) | .host _ => false
    if h.st = .speculative ∧ !replay then done s (completeHop h cTIMEOUT 0 0 s) else .next s
  | none => .next s

/-- RAMP_STEP: after `n` further edges the next step of strand `k`'s ramp takes its boundary, if it comes there; while the strand is not eligible the
step waits (R166). -/
def execRampStep (k n : Nat) (s : State) : Out :=
  let t := runEdges k n s
  done s (if (rampDue (t.around k) (t.strand k)).isSome then runEdges k 1 t else t)

/-- SLEW_STEP: strand `k` places a rising edge at which its slew moves the phase word (R118, R119). -/
def execSlewStep (k : Nat) (s : State) : Out :=
  if s.flag (STR_STATUS_RUN k) ∧ (s.strand k).slewing then done s (runEdges k 1 s) else .next s

end Sys2Proof.Machine
end

