-- ==== Sys2Proof/Machine/Crypto.lean ====
section
/-! DEFINITION. The Lid's cryptography: SHA-384, ECDSA over P-384, AES-256 and GCM, as the standards that R295, R296, R329, R434 and R440 name lay them
down (FIPS 180-4, FIPS 186-5, SP 800-186, FIPS 197, SP 800-38D; PRESUMED, log entry 42). Bytes are numbers below 256. -/

namespace Sys2Proof.Machine

/-! ## Bytes -/

/-- The bytes of words, each word least significant byte first (R295). -/
def wordBytes (ws : List Word) : List Nat := ws.flatMap fun w => (List.range 4).map fun i => bitsAt w (8 * i) 8

/-- The words that bytes spell, each word least significant byte first. -/
def bytesWords : List Nat → List Word
  | a :: b :: c :: d :: r => BitVec.ofNat 32 (a + 256 * b + 65536 * c + 16777216 * d) :: bytesWords r
  | _ => []

/-- The number that bytes spell, the most significant first. -/
def beNat (l : List Nat) : Nat := l.foldl (fun x b => 256 * x + b) 0

/-- `n` bytes of a number, the most significant first. -/
def beBytes (n x : Nat) : List Nat := (List.range n).map fun i => x / 256 ^ (n - 1 - i) % 256

/-- A list cut into pieces of `k`, at most `n` of them. -/
def pieces {α : Type} (k : Nat) : Nat → List α → List (List α)
  | 0, _ => []
  | n + 1, l => if l.isEmpty then [] else l.take k :: pieces k n (l.drop k)

/-! ## SHA-384 (FIPS 180-4) -/

abbrev Word64 := BitVec 64

/-- The constants of SHA-384's rounds. -/
def shaK0 : List Nat :=
  [0x428a2f98d728ae22, 0x7137449123ef65cd, 0xb5c0fbcfec4d3b2f, 0xe9b5dba58189dbbc, 0x3956c25bf348b538, 0x59f111f1b605d019, 0x923f82a4af194f9b,
   0xab1c5ed5da6d8118, 0xd807aa98a3030242, 0x12835b0145706fbe, 0x243185be4ee4b28c, 0x550c7dc3d5ffb4e2, 0x72be5d74f27b896f, 0x80deb1fe3b1696b1,
   0x9bdc06a725c71235, 0xc19bf174cf692694, 0xe49b69c19ef14ad2, 0xefbe4786384f25e3, 0x0fc19dc68b8cd5b5, 0x240ca1cc77ac9c65, 0x2de92c6f592b0275,
   0x4a7484aa6ea6e483, 0x5cb0a9dcbd41fbd4, 0x76f988da831153b5, 0x983e5152ee66dfab, 0xa831c66d2db43210, 0xb00327c898fb213f, 0xbf597fc7beef0ee4,
   0xc6e00bf33da88fc2, 0xd5a79147930aa725, 0x06ca6351e003826f, 0x142929670a0e6e70, 0x27b70a8546d22ffc, 0x2e1b21385c26c926, 0x4d2c6dfc5ac42aed,
   0x53380d139d95b3df, 0x650a73548baf63de, 0x766a0abb3c77b2a8, 0x81c2c92e47edaee6, 0x92722c851482353b]

def shaK1 : List Nat :=
  [0xa2bfe8a14cf10364, 0xa81a664bbc423001, 0xc24b8b70d0f89791, 0xc76c51a30654be30, 0xd192e819d6ef5218, 0xd69906245565a910, 0xf40e35855771202a,
   0x106aa07032bbd1b8, 0x19a4c116b8d2d0c8, 0x1e376c085141ab53, 0x2748774cdf8eeb99, 0x34b0bcb5e19b48a8, 0x391c0cb3c5c95a63, 0x4ed8aa4ae3418acb,
   0x5b9cca4f7763e373, 0x682e6ff3d6b2b8a3, 0x748f82ee5defb2fc, 0x78a5636f43172f60, 0x84c87814a1f0ab72, 0x8cc702081a6439ec, 0x90befffa23631e28,
   0xa4506cebde82bde9, 0xbef9a3f7b2c67915, 0xc67178f2e372532b, 0xca273eceea26619c, 0xd186b8c721c0c207, 0xeada7dd6cde0eb1e, 0xf57d4f7fee6ed178,
   0x06f067aa72176fba, 0x0a637dc5a2c898a6, 0x113f9804bef90dae, 0x1b710b35131c471b, 0x28db77f523047d84, 0x32caab7b40c72493, 0x3c9ebe0a15c9bebc,
   0x431d67c49c100d4c, 0x4cc5d4becb3e42b6, 0x597f299cfc657e2a, 0x5fcb6fab3ad6faec, 0x6c44198c4a475817]

/-- The initial hash value. -/
def shaInit : List Word64 :=
  [0xcbbb9d5dc1059ed8, 0x629a292a367cd507, 0x9159015a3070dd17, 0x152fecd8f70e5939, 0x67332667ffc00b31, 0x8eb44a8768581511, 0xdb0c2e0d64f98fa7,
   0x47b5481dbefa4fa4]

/-- The message, a 1 bit, zeros, and the message's length in bits: whole blocks of 128 bytes. -/
def shaPad (m : List Nat) : List Nat := m ++ 0x80 :: List.replicate ((239 - m.length % 128) % 128) 0 ++ beBytes 16 (8 * m.length)

/-- The message schedule of a block, the latest word first: `n` further words. -/
def shaSchedule : Nat → List Word64 → List Word64
  | 0, w => w
  | n + 1, w =>
    let a := w.getD 1 0
    let b := w.getD 14 0
    let s1 := a.rotateRight 19 ^^^ a.rotateRight 61 ^^^ a >>> 6
    let s0 := b.rotateRight 1 ^^^ b.rotateRight 8 ^^^ b >>> 7
    shaSchedule n ((s1 + w.getD 6 0 + s0 + w.getD 15 0) :: w)

/-- One round, with the sum of its constant and its word of the schedule. -/
def shaRound (h : List Word64) (kw : Word64) : List Word64 :=
  match h with
  | [a, b, c, d, e, f, g, x] =>
    let s1 := e.rotateRight 14 ^^^ e.rotateRight 18 ^^^ e.rotateRight 41
    let t1 := x + s1 + ((e &&& f) ^^^ (~~~e &&& g)) + kw
    let s0 := a.rotateRight 28 ^^^ a.rotateRight 34 ^^^ a.rotateRight 39
    [t1 + s0 + ((a &&& b) ^^^ (a &&& c) ^^^ (b &&& c)), a, b, c, d + t1, e, f, g]
  | _ => h

/-- One block of 128 bytes. -/
def shaBlock (h : List Word64) (block : List Nat) : List Word64 :=
  let w := (shaSchedule 64 ((pieces 8 16 block).map fun p => BitVec.ofNat 64 (beNat p)).reverse).reverse
  let h' := (((shaK0 ++ shaK1).map (BitVec.ofNat 64)).zip w).foldl (fun x e => shaRound x (e.1 + e.2)) h
  (h.zip h').map fun e => e.1 + e.2

/-- The SHA-384 hash of bytes: 48 bytes. -/
def sha384 (m : List Nat) : List Nat :=
  let p := shaPad m
  (((pieces 128 (p.length / 128) p).foldl shaBlock shaInit).take 6).flatMap fun x => beBytes 8 x.toNat

/-! ## ECDSA over P-384 (FIPS 186-5, SP 800-186) -/

/-- The field's prime, the order of the base point, the coefficient b, and the base point. -/
def p384 : Nat := 2 ^ 384 - 2 ^ 128 - 2 ^ 96 + 2 ^ 32 - 1
def n384 : Nat := 0xffffffffffffffffffffffffffffffffffffffffffffffffc7634d81f4372ddf581a0db248b0a77aecec196accc52973
def b384 : Nat := 0xb3312fa7e23ee7e4988e056be3f82d19181d9c6efe8141120314088f5013875ac656398d8a2ed19d2a85c8edd3ec2aef
def g384 : Nat × Nat :=
  (0xaa87ca22be8b05378eb1c71ef320ad746e1d3b628ba79b9859f741e082542a385502f25dbf55296c3a545e3872760ab7,
   0x3617de4a96262c6f5d9e98bf9292dc29f8f41dbd289a147ce9da3113b5f0b8c00a60b1ce1d7e819d7a431d7c90ea0e5f)

/-- `b` to the power of the lowest `k` bits of `e`, modulo `m`. -/
def powMod (b e m : Nat) : Nat → Nat
  | 0 => 1 % m
  | k + 1 => let h := powMod (b * b % m) (e / 2) m k; if e % 2 = 1 then b * h % m else h

/-- The inverse modulo a prime below 2^384. -/
def invMod (x m : Nat) : Nat := powMod (x % m) (m - 2) m 384

/-- The point lies on the curve, its coordinates below the prime. -/
def onCurve (q : Nat × Nat) : Bool :=
  decide (q.1 < p384) && decide (q.2 < p384) && (q.2 * q.2 + 3 * q.1) % p384 == (q.1 * q.1 * q.1 + b384) % p384

/-- The sum of two points of the curve; none is the point at infinity. -/
def ecAdd : Option (Nat × Nat) → Option (Nat × Nat) → Option (Nat × Nat)
  | none, q => q
  | p, none => p
  | some (x, y), some (u, v) =>
    let m := p384
    if x = u ∧ (y + v) % m = 0 then none
    else
      let l := if x = u then (3 * x * x + m - 3) * invMod (2 * y) m % m else (v + m - y) * invMod (u + m - x) m % m
      let a := (l * l + 2 * m - x - u) % m
      some (a, (l * (x + m - a) + m - y) % m)

/-- The lowest `n` bits of `k` times a point. -/
def ecMul (k : Nat) (q : Option (Nat × Nat)) : Nat → Option (Nat × Nat)
  | 0 => none
  | n + 1 => let h := ecMul (k / 2) (ecAdd q q) n; if k % 2 = 1 then ecAdd q h else h

/-- The signature `r`, `s` over a 384-bit hash verifies under public key `q`. -/
def ecdsaOk (q : Nat × Nat) (hash r s : Nat) : Bool :=
  onCurve q && decide (1 ≤ r) && decide (r < n384) && decide (1 ≤ s) && decide (s < n384) &&
    (let w := invMod s n384
     match ecAdd (ecMul (hash * w % n384) (some g384) 384) (ecMul (r * w % n384) (some q) 384) with
     | some x => x.1 % n384 == r
     | none => false)

/-! ## AES-256 (FIPS 197) -/

/-- The product of two bytes in the field of AES: `n` bits of `b`. -/
def gmul (a b : Nat) : Nat → Nat
  | 0 => 0
  | n + 1 =>
    let d := if 128 ≤ a then Nat.xor (2 * a) 0x11B else 2 * a
    let h := gmul d (b / 2) n
    if b % 2 = 1 then Nat.xor a h else h

/-- A byte to the power of the lowest `n` bits of `e`. -/
def gpow (a e : Nat) : Nat → Nat
  | 0 => 1
  | n + 1 => let h := gpow (gmul a a 8) (e / 2) n; if e % 2 = 1 then gmul a h 8 else h

/-- A byte turned left by `k` bits. -/
def rotl8 (x k : Nat) : Nat := x * 2 ^ k % 256 + x / 2 ^ (8 - k)

/-- SubBytes: the inverse in the field, and the affine map. -/
def subByte (x : Nat) : Nat :=
  let y := gpow x 254 8
  [rotl8 y 1, rotl8 y 2, rotl8 y 3, rotl8 y 4, 0x63].foldl Nat.xor y

/-- Two lists of bytes added bit by bit. -/
def xorBytes (a b : List Nat) : List Nat := List.zipWith Nat.xor a b

/-- The key schedule of AES-256, the latest word first: `n` further words, of which the next is number `i`. -/
def aesExpand : Nat → Nat → List (List Nat) → List (List Nat)
  | 0, _, w => w
  | n + 1, i, w =>
    let t := w.headD []
    let t := if i % 8 = 0 then xorBytes ((t.drop 1 ++ t.take 1).map subByte) [2 ^ (i / 8 - 1), 0, 0, 0] else if i % 8 = 4 then t.map subByte else t
    aesExpand n (i + 1) (xorBytes (w.getD 7 []) t :: w)

/-- The 15 round keys of a 32-byte key. -/
def aesKeys (key : List Nat) : List (List Nat) := (pieces 4 15 (aesExpand 52 8 (pieces 4 8 key).reverse).reverse).map List.flatten

/-- ShiftRows, on 16 bytes column by column. -/
def shiftRows (l : List Nat) : List Nat := (List.range 16).map fun i => l.getD ((i + 4 * (i % 4)) % 16) 0

/-- MixColumns on one column. -/
def mixColumn (c : List Nat) : List Nat :=
  (List.range 4).map fun i =>
    [gmul (c.getD i 0) 2 8, gmul (c.getD ((i + 1) % 4) 0) 3 8, c.getD ((i + 2) % 4) 0].foldl Nat.xor (c.getD ((i + 3) % 4) 0)

/-- AES-256 of one block under expanded keys. -/
def aesBlock (ks : List (List Nat)) (x : List Nat) : List Nat :=
  let round := fun (last : Bool) (b : List Nat) (k : List Nat) =>
    let y := shiftRows (b.map subByte)
    xorBytes (if last then y else (pieces 4 4 y).flatMap mixColumn) k
  round true (((ks.drop 1).take 13).foldl (round false) (xorBytes x (ks.getD 0 []))) (ks.getD 14 [])

/-! ## GCM (SP 800-38D) -/

/-- The product of GHASH: `n` bits of `x`, the highest first, with `v` the other factor. -/
def ghMul (x v : Nat) : Nat → Nat
  | 0 => 0
  | n + 1 =>
    let h := ghMul x (if v % 2 = 1 then Nat.xor (v / 2) (0xE1 * 2 ^ 120) else v / 2) n
    if x / 2 ^ n % 2 = 1 then Nat.xor v h else h

/-- GHASH of blocks of 16 bytes under `h`. -/
def ghash (h : Nat) (blocks : List (List Nat)) : Nat := blocks.foldl (fun y b => ghMul (Nat.xor y (beNat b)) h 128) 0

/-- Bytes in blocks of 16, the last one filled with zeros. -/
def gcmBlocks (l : List Nat) : List (List Nat) := (pieces 16 ((l.length + 15) / 16) l).map fun b => b ++ List.replicate (16 - b.length) 0

/-- Counter block `i` of a 12-byte initialisation vector: 1 for the tag, 2 and on for the data. -/
def gcmCounter (iv : List Nat) (i : Nat) : List Nat := iv ++ beBytes 4 (i % 2 ^ 32)

/-- The data of AES-256-GCM, decrypted or encrypted. -/
def gcmCrypt (key iv data : List Nat) : List Nat :=
  let ks := aesKeys key
  ((pieces 16 ((data.length + 15) / 16) data).zipIdx).flatMap fun e => xorBytes e.1 (aesBlock ks (gcmCounter iv (2 + e.2)))

/-- The tag of AES-256-GCM over ciphertext `c` with additional data `a`. -/
def gcmTag (key iv a c : List Nat) : List Nat :=
  let ks := aesKeys key
  let h := beNat (aesBlock ks (List.replicate 16 0))
  let y := ghash h (gcmBlocks a ++ gcmBlocks c ++ [beBytes 8 (8 * a.length) ++ beBytes 8 (8 * c.length)])
  xorBytes (beBytes 16 y) (aesBlock ks (gcmCounter iv 1))

/-! ## The Lid's keys (R290, R295, R429, R430) -/

/-- Fuse word `w` (DESIGN CHOICE, log entry 9). -/
def State.fuse (s : State) (w : Nat) : Word := tabGet (fun _ => (0 : Word)) s.fuses w

/-- The fuse words from `lo` on, `n` of them. -/
def State.fuseWords (s : State) (lo n : Nat) : List Word := (List.range n).map fun i => s.fuse (lo + i)

/-- The public key that KEY_ID names: owner slot 0 or 1, or the vendor's, as x and y (R292, R430). -/
def State.publicKey (s : State) (key : Nat) : Nat × Nat :=
  let b := wordBytes (s.fuseWords (if key = 0 then 32 else if key = 1 then 56 else 8) 24)
  (beNat (b.take 48), beNat (b.drop 48))

/-- The signature words `sig`, r and s, verify over the bytes `msg` under key `key` (R295). -/
def State.verifies (s : State) (key : Nat) (msg : List Nat) (sig : List Word) : Bool :=
  let b := wordBytes sig
  ecdsaOk (s.publicKey key) (beNat (sha384 msg)) (beNat (b.take 48)) (beNat ((b.drop 48).take 48))

/-- The hub's SERIAL as four bytes, the least significant first (R329, R434, R440). -/
def State.serialBytes (s : State) : List Nat := wordBytes [s.reg DEV_SERIAL]

/-- The owner plan key: its first byte in bits 7:0 of word 80, as in the key fields (R430; DEDUCED, log entry 115). -/
def State.planKey (s : State) : List Nat := wordBytes (s.fuseWords 80 8)

/-! ## A plan's signature and encryption (R291, R292, R295, R296) -/

/-- The signature over plan words `ws` verifies under the key named by KEY_ID `key`: it is the last 24 words, over all before them (R295). -/
def State.planSigned (s : State) (key : Nat) (ws : List Word) : Bool :=
  s.verifies key (wordBytes (ws.take (ws.length - 24))) (ws.drop (ws.length - 24))

/-- The initialisation vector, the additional data and the ciphertext of an encrypted plan (R292, R296). -/
def planIv (ws : List Word) : List Nat := wordBytes ((ws.drop 8).take 3)
def planAad (ws : List Word) : List Nat := wordBytes (ws.take 16)
def planCipher (ws : List Word) : List Nat := wordBytes ((ws.take (ws.length - 28)).drop 16)

/-- The tag of an encrypted plan is right under the owner plan key (R296). -/
def State.planTagOk (s : State) (ws : List Word) : Bool :=
  gcmTag s.planKey (planIv ws) (planAad ws) (planCipher ws) == wordBytes ((ws.drop (ws.length - 28)).take 4)

/-- The words of an encrypted plan with what lies between header and tag decrypted (R296). -/
def State.planPlain (s : State) (ws : List Word) : List Word :=
  ws.take 16 ++ bytesWords (gcmCrypt s.planKey (planIv ws) (planCipher ws)) ++ ws.drop (ws.length - 28)

end Sys2Proof.Machine
end

