-- ==== Sys2Proof/Machine/PlanCheck.lean ====
section
/-! DEFINITION. The checks of VERIFY in ascending code order, with the place of the failure (R290 to R301, R250). A check answers the code,
the section and the index that PLAN_DETAIL shows; an index that no record gives is none, and then a free value. -/

namespace Sys2Proof.Machine

abbrev Bad := Nat × Nat × Option Nat

/-- A record with its index in the section that the keeper staged. -/
abbrev Located := List Word × Nat

/-! ## Words of the bitstream (R291 to R294) -/

/-- The header fields (R292). -/
structure Header where
  enc : Bool
  partial_ : Bool
  variant : Nat
  keyId : Nat
  basket : Nat
  length : Nat
  planId : Nat
  planSeq : Nat
  fragSeq : Nat
  serial : Nat
  sections : Nat
deriving DecidableEq, Repr

def headerOf (ws : List Word) : Header :=
  { enc := recBits ws 1 8 1 == 1, partial_ := recBits ws 1 9 1 == 1, variant := recBits ws 1 10 2, keyId := recBits ws 1 12 2
    basket := recBits ws 1 16 6, length := recBits ws 2 0 20, planId := recBits ws 3 0 32, planSeq := recBits ws 4 0 32
    fragSeq := recBits ws 5 0 32, serial := recBits ws 6 0 32, sections := recBits ws 7 0 8 }

/-- One section as the directory places it (R293, R294). -/
structure Section where
  id : Nat
  off : Nat
  head : List Word
  body : List Word
  check : Nat
deriving DecidableEq, Repr

def dirId (ws : List Word) (k : Nat) : Nat := recBits ws (16 + 2 * k) 0 8
def dirOff (ws : List Word) (k : Nat) : Nat := recBits ws (17 + 2 * k) 0 20

/-- The body length that a section's header gives. -/
def secLen (ws : List Word) (k : Nat) : Nat := recBits ws (dirOff ws k + 1) 0 20

def sectionOf (ws : List Word) (k : Nat) : Section :=
  let o := dirOff ws k
  { id := dirId ws k, off := o, head := (ws.drop o).take 2, body := (ws.drop (o + 2)).take (secLen ws k)
    check := recBits ws (o + 2 + secLen ws k) 0 32 }

def Section.count (x : Section) : Nat := recBits x.head 0 16 16

/-- The length of the record that begins with word `w` (R297). -/
def recLen (sec : Nat) (w : Word) : Nat :=
  if sec = sDEVICE ∨ sec = sSOURCES then 5
  else if sec = sRIMS ∨ sec = sHANDLES then 3
  else if sec = sBASKETS then 8
  else if sec = sRINGS then (if bitsAt w 15 3 = 2 then 8 else 2)
  else if sec = sFAULTS then 2
  else 1

/-- The body cut into `n` records; none where COUNT and LENGTH disagree. -/
def splitRecs (sec : Nat) : Nat → List Word → Option (List (List Word))
  | 0, [] => some []
  | 0, _ :: _ => none
  | _ + 1, [] => none
  | n + 1, w :: r =>
    let l := recLen sec w
    if (w :: r).length < l then none else (splitRecs sec n ((w :: r).drop l)).map fun t => (w :: r).take l :: t

/-- The key that orders a section's records (R297); a FAULTS record's is its SOURCE, KIND and scope. -/
def recKey (sec : Nat) (r : List Word) : Nat :=
  if sec = sFAULTS then (recBits r 0 0 16 * 256 + recBits r 0 16 8) * 128 + recBits r 1 24 7 else recBits r 0 0 (keyWidth sec)

/-- The bits of a record's words that R299 gives a meaning. -/
def recMask (sec : Nat) (i : Nat) : Nat :=
  let m : List Nat :=
    if sec = sDEVICE then [0x000FFFF7, 0xFFFFFFFF, 0xFFFFFFFF, 0x03FFFFFF, 0x0000FFFF]
    else if sec = sRIMS then [0x7F, 0xFFFFFFFF, 0xF]
    else if sec = sWALES then [0x003F0F3F]
    else if sec = sSTRANDS then [0x03FF83FF]
    else if sec = sSPOKES then [0x3FF7FFFF]
    else if sec = sREEDS then [0x007FFFFF]
    else if sec = sBASKETS then [0x01FFFFFF, 0x1FFF, 0xFFFFF, 0x1FFFFF, 0xFFFFFFFF, 0xFFFFFFFF, 0xFFFFF, 0xFFFFFFFF]
    else if sec = sRINGS then [0x7FFFFFFF, 0xFFFFF, 0x1FFFFFF, 0x1FFFFFF, 0x1FFFFFF, 0x1FFFFFF, 0x1FFFFFF, 0x1FFFFFF]
    else if sec = sSOURCES then [0x73F, 0xFFFFFFFF, 0xFFFFFFFF, 0xFFFFFFFF, 0]
    else if sec = sHANDLES then [0x0FFFFFFF, 0xFFFFFFFF, 0xFFFFFFFF]
    else [0xFFFFFFFF, 0x7FFFFFFF]
  m.getD i 0xFFFFFFFF

/-- A reserved bit of a record is 1 (check 0x15). -/
def recReserved (sec : Nat) (r : List Word) : Bool :=
  r.zipIdx.any fun p => p.1 &&& ~~~(BitVec.ofNat 32 (recMask sec p.2)) != 0

/-- Source codes that RING_SRC(r, j).SRC admits. -/
def srcCode (x : Nat) : Bool := decide (x < 96) || x == 0xF0 || x == 0xF1 || x == 0xFF

/-- Every field of a record lies within its range in R299 (check 0x16). -/
def recInRange (sec : Nat) (r : List Word) : Bool :=
  let f := recBits r
  if sec = sDEVICE then (List.range 4).all fun i => f 0 (6 + 4 * i) 2 != 3
  else if sec = sSTRANDS then f 0 15 1 == 1 || f 0 16 10 == 0
  else if sec = sSPOKES then f 0 16 2 != 3 && f 0 20 4 != 15
  else if sec = sBASKETS then
    decide (f 0 12 13 ≤ 4096) && decide (f 1 0 13 ≤ f 0 12 13) && decide (f 3 0 21 ≤ 1048576) && decide (10 ≤ f 6 0 20) &&
      decide (f 6 0 20 ≤ 1000000) && decide (1 ≤ f 7 0 10) && decide (f 7 0 10 ≤ 1000) && decide (1 ≤ f 7 10 4) &&
      decide (1 ≤ f 7 18 14) && decide (f 7 18 14 ≤ 10000)
  else if sec = sRINGS then
    decide (1 ≤ f 0 15 3) && decide (f 0 15 3 ≤ 3) && (f 0 15 3 != 3 || f 0 18 2 == 0) && decide (4 ≤ f 0 26 5) && decide (f 0 26 5 ≤ 16) &&
      (r.drop 2).all fun w => srcCode (bitsAt w 0 8)
  else if sec = sHANDLES then f 0 14 2 != 3 && f 0 26 2 != 3
  else if sec = sFAULTS then
    decide (1 ≤ f 0 24 8) && decide (1 ≤ f 1 0 24) && decide (f 1 0 24 ≤ 10000000) && (f 1 30 1 == 0 || f 1 24 6 == 0)
  else true

/-! ## Combining checks -/

/-- The first element of a list that fails, with its place. -/
def firstBad {α : Type} (l : List α) (f : α → Option Bad) : Option Bad := l.findSome? f

/-- The failure of one check, where `bad` holds. -/
def failIf (bad : Bool) (x : Bad) : Option Bad := if bad then some x else none

/-- The checks of a list in order, up to the first that fails. -/
def inOrder (l : List (Unit → Option Bad)) : Option Bad := l.findSome? fun f => f ()

/-! ## The header (checks 0x01 to 0x08) -/

/-- Life-cycle states (R427). -/
def State.lcState (s : State) : Nat := s.get LC_STATUS_STATE

/-- The life-cycle state refuses every plan (R290, R435). -/
def State.refusesPlans (s : State) : Bool :=
  s.lcState == 0 || decide (5 ≤ s.lcState) || (s.lcState == 4 && !s.flag LC_STATUS_ERASED)

/-- The life-cycle state accepts the key slot `k` of a plan's KEY_ID, and the slot is usable (R290, R429). -/
def State.keyOk (s : State) (k : Nat) : Bool :=
  if s.lcState = 1 ∨ s.lcState = 4 then k == 2 && s.flag ⟨LC_STATUS, 12, 1⟩
  else if s.lcState = 2 ∨ s.lcState = 3 then (k == 0 && s.flag ⟨LC_STATUS, 13, 1⟩) || (k == 1 && s.flag ⟨LC_STATUS, 14, 1⟩)
  else false

/-- Checks 0x01 to 0x08 on the words staged; a staging write beyond the area fails check 0x03 (R313). The location is a word offset (R301). A full
plan's BASKET and FRAG_SEQ, and the IV without ENC, are 0 as reserved bits are (DEDUCED, log entry 32). -/
def checkHeader (s : State) (ws : List Word) : Option Bad :=
  let h := headerOf ws
  let b := recBits ws
  let at_ := fun (c o : Nat) => ((c, 0, some o) : Bad)
  let mine := if s.small then 2 else 1
  inOrder [
    fun _ => failIf s.refusesPlans (1, 0, none),
    fun _ => failIf (b 0 0 32 != 0x4C505657) (at_ 2 0),
    fun _ => failIf (b 1 0 8 != 1 || b 1 14 2 != 0 || b 1 22 10 != 0 || h.variant == 3) (at_ 2 1),
    fun _ => failIf (b 2 20 12 != 0) (at_ 2 2),
    fun _ => failIf (!h.partial_ && h.basket != 0) (at_ 2 1),
    fun _ => failIf (!h.partial_ && h.fragSeq != 0) (at_ 2 5),
    fun _ => failIf (b 7 8 24 != 0) (at_ 2 7),
    fun _ => firstBad ((if h.enc then [] else [8, 9, 10]) ++ [11, 12, 13, 14, 15]) fun o => failIf (b o 0 32 != 0) (at_ 2 o),
    fun _ => failIf (decide (524288 < h.length) || h.length != ws.length || s.load.beyond) (at_ 3 2),
    fun _ => failIf (!s.keyOk h.keyId) (at_ 4 1),
    fun _ => failIf (!s.planSigned h.keyId ws) (at_ 5 (h.length - 24)),
    fun _ => failIf (h.variant != 0 && h.variant != mine) (at_ 6 1),
    fun _ => failIf (h.serial != 0 && h.serial != s.get DEV_SERIAL_SERIAL) (at_ 6 6),
    fun _ => failIf (decide (h.planSeq < s.get PLAN_MIN_SEQ_MIN)) (at_ 7 4),
    fun _ => failIf (h.enc && !((s.lcState == 2 || s.lcState == 3) && s.flag LC_STATUS_PLAN_KEY)) (at_ 8 1),
    fun _ => failIf (h.enc && !s.planTagOk ws) (at_ 8 (h.length - 28))]

/-! ## The form of the sections (checks 0x10 to 0x16) -/

/-- The section IDs that a partial plan may contain (R297): every one but DEVICE. -/
def sectionKnown (part : Bool) (id : Nat) : Bool := decide (1 ≤ id) && decide (id ≤ 11) && !(part && id == sDEVICE)

/-- The first place where a section's records are out of key order, or a key is repeated; equal FAULTS records are check 0x2A's. -/
def orderBad (sec : Nat) : Nat → List (List Word) → Option Nat
  | i, a :: b :: r =>
    if recKey sec b < recKey sec a ∨ (sec ≠ sFAULTS ∧ sec ≠ sDEVICE ∧ recKey sec a = recKey sec b) then some (i + 1)
    else orderBad sec (i + 1) (b :: r)
  | _, _ => none

/-- The records of a section; none where they do not parse. -/
def Section.recs (x : Section) : List (List Word) := (splitRecs x.id x.count x.body).getD []

/-- Checks 0x10 to 0x16 (R293, R294, R297 to R300). A section whose header names another ID than its directory entry, or has a reserved bit set,
breaks the directory (DEDUCED, log entry 32). -/
def checkForm (ws : List Word) : Option Bad :=
  let h := headerOf ws
  let n := h.sections
  let ks := List.range n
  let stop := h.length - 24 - (if h.enc then 4 else 0)
  let secs := ks.map (sectionOf ws)
  let whole := fun (c : Nat) (x : Section) => ((c, x.id, none) : Bad)
  let fits := fun (k : Nat) => decide (16 + 2 * n ≤ dirOff ws k) && decide (dirOff ws k + 3 + secLen ws k ≤ stop)
  let apart := fun (j k : Nat) =>
    decide (dirOff ws j + 3 + secLen ws j ≤ dirOff ws k) || decide (dirOff ws k + 3 + secLen ws k ≤ dirOff ws j)
  inOrder [
    fun _ => failIf (n == 0 || decide (11 < n)) (0x10, 0, none),
    fun _ => firstBad ks fun k =>
      failIf (recBits ws (16 + 2 * k) 8 24 != 0 || recBits ws (17 + 2 * k) 20 12 != 0 || (k != 0 && decide (dirId ws k < dirId ws (k - 1))) ||
        !fits k || recBits ws (dirOff ws k) 0 8 != dirId ws k || recBits ws (dirOff ws k + 1) 20 12 != 0 || !((List.range k).all fun j => apart j k)) (0x10, dirId ws k, none),
    fun _ => firstBad secs fun x => failIf (crc32c (x.head ++ x.body) != x.check) (whole 0x11 x),
    fun _ => firstBad secs.zipIdx fun p =>
      failIf (!sectionKnown h.partial_ p.1.id || ((secs.take p.2).any fun y => y.id == p.1.id)) (whole 0x12 p.1),
    fun _ => failIf (!h.partial_ && !(secs.any fun x => x.id == sDEVICE)) (0x12, sDEVICE, none),
    fun _ => failIf (h.partial_ && !(secs.any fun x => x.id == sBASKETS && x.count == 1 && recBits x.body 0 0 6 == h.basket)) (0x12, sBASKETS, none),
    fun _ => firstBad secs fun x => failIf (recBits x.head 0 8 8 != 1) (whole 0x13 x),
    fun _ => firstBad secs fun x =>
      if (splitRecs x.id x.count x.body).isNone || (x.id == sDEVICE && x.count != 1) then some (whole 0x14 x)
      else (orderBad x.id 0 x.recs).map fun i => (0x14, x.id, some i),
    fun _ => firstBad secs fun x => firstBad x.recs.zipIdx fun p => failIf (recReserved x.id p.1) (0x15, x.id, some p.2),
    fun _ => firstBad secs fun x => firstBad x.recs.zipIdx fun p => failIf (!recInRange x.id p.1) (0x16, x.id, some p.2)]

/-- The plan that the words give. -/
def planOf (ws : List Word) : Plan :=
  let h := headerOf ws
  { id := h.planId, seq := h.planSeq, secs := (List.range h.sections).map fun k => let x := sectionOf ws k; (x.id, x.recs) }

/-! ## The plan that a load would put in force (R300, R310) -/

/-- Record `r` of section `sec` is basket `b`'s in plan `p`: its own, and a rim exclusive to its wales. -/
def Plan.owns (p : Plan) (b sec : Nat) (r : List Word) : Bool :=
  if sec = sRIMS then p.exclusive (recBits r 0 0 4) b else p.recBasket sec r == some b

/-- One located record put into its place. -/
def insLocated (sec : Nat) (x : Located) : List Located → List Located
  | [] => [x]
  | y :: r => if recKey sec x.1 < recKey sec y.1 then x :: y :: r else y :: insLocated sec x r

/-- The records of a section of the plan in force with basket `b`'s replaced by the fragment's. -/
def mergeSec (old frag : Plan) (b sec : Nat) : List Located :=
  let keep := (old.recs sec).zipIdx.filter fun x => !old.owns b sec x.1 && !((frag.recs sec).any fun y => recKey sec y == recKey sec x.1)
  (frag.recs sec).zipIdx.foldl (fun l x => insLocated sec x l) keep

/-- The plan in force with a fragment of basket `b` substituted. -/
def mergePlan (old frag : Plan) (b : Nat) : Plan :=
  { old with secs := ((List.range 12).map fun sec => (sec, (mergeSec old frag b sec).map (·.1))).filter fun e => e.2 != [] }

/-! ## What the records say to one another (checks 0x20 to 0x2A) -/

/-- The frequency word of a RIMS record, in units of 2^-32 (R67). -/
def rimWordOf (r : List Word) : Nat := recBits r 2 0 4 * 2 ^ 32 + recBits r 1 0 32

/-- A rim frequency word lies within the bounds of R67. -/
def freqWordOk (x : Nat) : Bool := decide (6 * 2 ^ 32 + 0xDB6DB6DC ≤ x) && decide (x ≤ 8 * 2 ^ 32 + 0x49249249)

/-- The plait depth of strand `k`, where it is at most `n` (R21). -/
def Plan.depth (p : Plan) : Nat → Nat → Option Nat
  | 0, _ => none
  | n + 1, k =>
    match p.timing k with
    | none => none
    | some (_, none) => some 0
    | some (_, some q) => (p.depth n q).map (· + 1)

/-- The handle record covers lane `k` of group `g`. -/
def handleCovers (r : List Word) (g k : Nat) : Bool :=
  recBits r 0 7 3 == g && decide (recBits r 0 10 4 ≤ k) && decide (k < recBits r 0 10 4 + 2 ^ recBits r 0 14 2)

/-- The handle range breaks R276 by itself. -/
def handleBad (r : List Word) : Bool :=
  let w := 2 ^ recBits r 0 14 2
  recBits r 0 10 4 % w != 0 || decide (12 < recBits r 0 10 4 + w)

/-- Two handle records overlap, or have one spare between them. -/
def handlesClash (a b : List Word) : Bool :=
  recBits a 0 7 3 == recBits b 0 7 3 &&
    (((List.range 12).any fun k => handleCovers a (recBits a 0 7 3) k && handleCovers b (recBits a 0 7 3) k) ||
      (recBits a 0 16 1 == 1 && recBits b 0 16 1 == 1))

/-- Bit `h` of a SOURCES record's handle mask. -/
def srcHandle (r : List Word) (h : Nat) : Bool := recBits r (1 + h / 32) (h % 32) 1 == 1

/-- A SOURCES record authorises a lane ring's source code. -/
def srcAuthorised (r : Option (List Word)) (c : Nat) : Bool :=
  match r with
  | none => false
  | some r => if c = 0xF0 then recBits r 0 8 1 == 1 else if c = 0xF1 then recBits r 0 9 1 == 1 else srcHandle r c

/-- The used sources of a lane ring's record. -/
def ringSources (r : List Word) : List Word := (r.drop 2).filter fun w => bitsAt w 0 8 != 0xFF

/-! ### Bridge words (R167) -/

/-- The tick rate of strand `k`'s time base in plan `p`, as a quotient: 16 times its rim's word for a rim, 16 ticks to a parent's output
period for a plait; none where it has no time base. -/
def tickRate (p : Plan) (word : Nat → Nat) (t : Nat → Nat) : Nat → Nat → Option (Nat × Nat)
  | 0, _ => none
  | n + 1, k =>
    match p.timing k with
    | none => none
    | some (r, none) => some (16 * word r, 1)
    | some (_, some q) => (tickRate p word t n q).bind fun x => if t q = 0 then none else some (16 * 2 ^ 48 * x.1, x.2 * t q)

/-- The bridge word of a strand of period word `x` between two tick rates: `x` times their quotient, rounded to the nearest U, ties up
(DEDUCED, log entry 68). -/
def bridgeWord (x : Nat) (new old : Nat × Nat) : Nat :=
  let a := x * new.1 * old.2
  let b := new.2 * old.1
  (2 * a + b) / (2 * b)

/-- The word that rim `r` will run at: the fragment's where it names the rim, else the one in force. -/
def State.wordUnder (s : State) (frag : Plan) (r : Nat) : Nat :=
  match frag.find sRIMS r with
  | some x => rimWordOf x
  | none => s.get (RIM_FREQ_HI_N r) * 2 ^ 32 + s.get (RIM_FREQ_LO_F r)

/-- The bridge word of strand `k` from plan `old` to plan `new`; none where a time base is missing. -/
def State.bridgeOf (s : State) (old new frag : Plan) (k : Nat) : Option Nat :=
  let t := fun q => (s.strand q).t
  match tickRate new (s.wordUnder frag) t 5 k, tickRate old (s.wordUnder {}) t 5 k with
  | some a, some b => if b.1 = 0 ∨ a.2 = 0 then none else some (bridgeWord (s.strand k).p a b)
  | _, _ => none

/-- Strand `k`'s time base changes between the two plans, and it goes on running. -/
def baseChanges (old new : Plan) (k : Nat) : Bool := (old.timing k).isSome && (new.timing k).isSome && old.timing k != new.timing k

/-- The strand runs, its time base changes, and its bridge word lies outside R108. -/
def State.bridgeBad (s : State) (old new frag : Plan) (k : Nat) : Bool :=
  s.flag (STR_STATUS_RUN k) && baseChanges old new k &&
    match s.bridgeOf old new frag k with
    | some x => decide (x < 2 ^ 52) || decide (2 ^ 64 ≤ x)
    | none => false

/-! ### The checks -/

/-- Checks 0x20 to 0x2A on the plan `p`, whose records `l` locates; `frag` is a partial load's fragment. A spoke's strand
need not have a record of its own (DEDUCED, log entry 121). -/
def checkLinks (s : State) (p : Plan) (l : Nat → List Located) (frag : Option Plan) : Option Bad :=
  let each := fun (c sec : Nat) (bad : List Word → Bool) => firstBad (l sec) fun x => failIf (bad x.1) (c, sec, some x.2)
  let noBasket := fun (b : Nat) => (p.find sBASKETS b).isNone
  let rings := fun (b k : Nat) => (l sRINGS).filter fun x => recBits x.1 0 15 3 == k && recBits x.1 0 20 6 == b
  inOrder [
    fun _ => each 0x20 sRIMS fun r => !freqWordOk (rimWordOf r),
    fun _ => each 0x21 sWALES fun r => (p.find sRIMS (recBits r 0 8 4)).isNone,
    fun _ => each 0x21 sSTRANDS fun r => (p.find sWALES (waleOf (recBits r 0 0 10))).isNone,
    fun _ => each 0x21 sSPOKES fun r => noBasket (recBits r 0 24 6),
    fun _ => each 0x21 sREEDS fun r => noBasket (recBits r 0 8 6),
    fun _ => each 0x21 sRINGS fun r => noBasket (recBits r 0 20 6),
    fun _ => each 0x21 sHANDLES fun r => noBasket (recBits r 0 18 6),
    fun _ => each 0x22 sSTRANDS fun r =>
      recBits r 0 15 1 == 1 && (recBits r 0 16 10 / 256 != recBits r 0 0 10 / 256 || (p.depth 4 (recBits r 0 0 10)).isNone),
    fun _ => each 0x23 sSTRANDS fun r =>
      recBits r 0 15 1 == 1 && (p.timing (recBits r 0 0 10)).map (·.1) != (p.timing (recBits r 0 16 10)).map (·.1),
    fun _ => each 0x24 sSPOKES fun r =>
      p.waleBasket (waleOf (256 * (recBits r 0 0 8 / 64) + recBits r 0 8 8)) != some (recBits r 0 24 6),
    fun _ => each 0x25 sREEDS fun r =>
      let k := 256 * (recBits r 0 0 8 / 64) + recBits r 0 14 8
      (p.strand? k).isNone || p.waleBasket (waleOf k) != some (recBits r 0 8 6) ||
        (recBits r 0 22 1 == 1 && (p.find sSPOKES (recBits r 0 0 8)).map (fun x => recBits x 0 24 6) != some (recBits r 0 8 6)),
    fun _ => firstBad (l sHANDLES) fun x =>
      failIf (handleBad x.1 || (l sHANDLES).any fun y => decide (recKey sHANDLES y.1 < recKey sHANDLES x.1) && handlesClash y.1 x.1) (0x26, sHANDLES, some x.2),
    fun _ => firstBad (l sBASKETS) fun x =>
      match rings (recBits x.1 0 0 6) 3 with
      | [] => some (0x27, sBASKETS, some x.2)
      | _ :: y :: _ => some (0x27, sRINGS, some y.2)
      | [_] => none,
    fun _ => firstBad (l sBASKETS) fun x => firstBad (List.range 4) fun c =>
      match (rings (recBits x.1 0 0 6) 2).filter fun y => recBits y.1 0 18 2 == c with
      | _ :: y :: _ => some (0x27, sRINGS, some y.2)
      | _ => none,
    fun _ => each 0x27 sRINGS fun r =>
      recBits r 0 15 3 == 2 && !((ringSources r).all fun w => srcAuthorised (p.find sSOURCES (recBits r 0 20 6)) (bitsAt w 0 8)),
    fun _ => match frag with
      | none => none
      | some f => each 0x28 sSTRANDS fun r => s.bridgeBad s.planNow p f (recBits r 0 0 10),
    fun _ => each 0x29 sSOURCES fun r => (p.recs sHANDLES).any fun h =>
      decide (recBits h 0 0 7 < 96) && srcHandle r (recBits h 0 0 7) && recBits h 0 18 6 != recBits r 0 0 6,
    fun _ => firstBad (l sFAULTS).zipIdx fun x =>
      failIf (((l sFAULTS).take x.2).any fun y => recKey sFAULTS y.1 == recKey sFAULTS x.1.1) (0x2A, sFAULTS, some x.1.2)]

/-! ## Admission (checks 0x40 to 0x47, R250) -/

def bQuota (r : List Word) : Nat := recBits r 3 0 21
def bBase (r : List Word) : Nat := recBits r 2 0 20
def bTotal (r : List Word) : Nat := recBits r 4 0 16 + recBits r 4 16 16 + recBits r 5 0 16 + recBits r 5 16 16

/-- The records of a basket in profile bank `k`, of 16,384 each (R246). -/
def inBank (r : List Word) (k : Nat) : Nat := min (bBase r + bQuota r) (16384 * (k + 1)) - max (bBase r) (16384 * k)

/-- The profile ranges of two baskets meet. -/
def rangesMeet (a b : List Word) : Bool := decide (bBase a < bBase b + bQuota b) && decide (bBase b < bBase a + bQuota a) && bQuota a != 0 && bQuota b != 0

/-- The load of bank `k` exceeds 150 M/s: the exact sum, over a common denominator. -/
def bankOver (bs : List (List Word)) (k : Nat) : Bool :=
  let on := bs.filter fun r => inBank r k != 0
  let den := on.foldl (fun d r => Nat.lcm d (bQuota r)) 1
  decide (150 * den < (on.map fun r => bTotal r * inBank r k * (den / bQuota r)).sum)

/-- The SOURCE of a FAULTS record names an instance beyond the variant's limits: a rim, strand, wale, basket, lane or calibration unit (R2, R4,
R362, R364). -/
def sourceBeyond (small : Bool) (x : Nat) : Bool :=
  let i := x % 4096
  let lim := fun (h f : Nat) => decide ((if small then h else f) ≤ i)
  if x = 0xFFFF then false
  else if x / 4096 = 2 then lim 16 16
  else if x / 4096 = 3 then lim 512 1024
  else if x / 4096 = 4 ∨ x / 4096 = 7 then lim 32 64
  else if x / 4096 = 8 then lim 56 108
  else if x / 4096 = 0xE then small && (decide (32 ≤ i ∧ i < 64) || i == 66 || i == 67 || decide (184 ≤ i)) || decide (236 ≤ i)
  else false

/-- A record names a resource beyond the variant's limits (R2, R4). -/
def beyond (small : Bool) (sec : Nat) (r : List Word) : Bool :=
  let lim := fun (x n : Nat) => small && decide (n ≤ x)
  let hnd := fun (x : Nat) => decide ((if small then 48 else 96) ≤ x)
  let f := recBits r
  if sec = sWALES then lim (f 0 0 6) 32 || lim (f 0 16 6) 32
  else if sec = sSTRANDS then lim (f 0 0 10) 512 || lim (f 0 16 10) 512
  else if sec = sSPOKES then lim (f 0 0 8) 128 || lim (f 0 24 6) 32
  else if sec = sREEDS then lim (f 0 0 8) 128 || lim (f 0 8 6) 32
  else if sec = sBASKETS then lim (f 0 0 6) 32
  else if sec = sRINGS then lim (f 0 20 6) 32 || (r.drop 2).any fun w => decide (bitsAt w 0 8 < 0xF0) && hnd (bitsAt w 0 8)
  else if sec = sSOURCES then lim (f 0 0 6) 32 || (List.range 96).any fun h => hnd h && srcHandle r h
  else if sec = sHANDLES then hnd (f 0 0 7) || lim (f 0 7 3) 4 || lim (f 0 18 6) 32
  else if sec = sFAULTS then sourceBeyond small (f 0 0 16) || (f 1 30 1 == 0 && lim (f 1 24 6) 32)
  else false

/-- The rings check of R250: the basket at fault, by the ring whose own figures fail, or the first with a ring where their depths together do. -/
def ringsOver (l : Nat → List Located) : Option Nat :=
  let rs := (l sRINGS).map (·.1)
  let depth := fun (r : List Word) => 2 ^ recBits r 0 26 5
  let quota := fun (b : Nat) => ((l sBASKETS).find? fun x => recBits x.1 0 0 6 == b).map fun x => recBits x.1 0 12 13
  if 1048576 < (rs.map depth).sum then (rs.map fun r => recBits r 0 20 6).min?
  else (rs.find? fun r =>
    (recBits r 0 15 3 == 2 && decide (depth r < ((ringSources r).map fun w => bitsAt w 8 17).sum)) ||
      (recBits r 0 15 3 == 3 && decide (depth r < (quota (recBits r 0 20 6)).getD 0 + 64))).map fun r => recBits r 0 20 6

def checkAdmission (s : State) (l : Nat → List Located) : Option Bad :=
  let bs := (l sBASKETS).map (·.1)
  let idx := fun (b : Nat) => ((l sBASKETS).find? fun x => recBits x.1 0 0 6 == b).map (·.2)
  let bad := fun (c : Nat) (r : List Word) => ((c, sBASKETS, idx (recBits r 0 0 6)) : Bad)
  let first := fun (c : Nat) (on : List (List Word)) => on.head?.map (bad c)
  let urg := fun (r : List Word) => recBits r 4 0 16
  inOrder [
    fun _ => (ringsOver l).map fun b => (0x40, sBASKETS, idx b),
    fun _ => if 4096 < (bs.map fun r => recBits r 0 12 13).sum then first 0x41 (bs.filter fun r => recBits r 0 12 13 != 0)
      else first 0x41 (bs.filter fun r => decide (recBits r 0 12 13 < recBits r 1 0 13)),
    fun _ => first 0x42 (bs.filter fun r =>
      decide (1048576 < bBase r + bQuota r) || bs.any fun q => recBits q 0 0 6 != recBits r 0 0 6 && rangesMeet r q),
    fun _ => first 0x43 (bs.filter fun r => urg r != 0 &&
      (bBase r % 16384 != 0 || bQuota r % 16384 != 0 ||
        bs.any fun q => recBits q 0 0 6 != recBits r 0 0 6 && (List.range 64).any fun k => inBank r k != 0 && inBank q k != 0)),
    fun _ => (List.range 64).findSome? fun k => if bankOver bs k then first 0x44 (bs.filter fun r => inBank r k != 0 && bTotal r != 0) else none,
    fun _ => if 9600 < (bs.map bTotal).sum then first 0x45 (bs.filter fun r => bTotal r != 0) else none,
    fun _ => if 1200 < (bs.map urg).sum then first 0x46 (bs.filter fun r => urg r != 0) else none,
    fun _ => firstBad ((List.range 11).map (· + 1)) fun sec => firstBad (l sec) fun x => failIf (beyond s.small sec x.1) (0x47, sec, some x.2)]

/-! ## Fragments (checks 0x50 to 0x53) -/

/-- A fragment's record names what another basket owns or uses in the plan in force (check 0x52). -/
def fragForeign (old : Plan) (b sec : Nat) (r : List Word) : Bool :=
  let mine := fun (x : Option Nat) => x == some b || x == none
  let owner := fun (k : Nat) => (old.find sec k).bind fun q => old.recBasket sec q
  let span := fun (q : List Word) => (recBits q 1 0 20, recBits q 1 0 20 + 2 ^ recBits q 0 26 5)
  if sec = sRIMS then false
  else if sec = sSTRANDS then !mine (old.waleBasket (waleOf (recBits r 0 0 10)))
  else if sec = sFAULTS then recBits r 1 30 1 == 1 || recBits r 1 24 6 != b
  else
    ({ id := 0, seq := 0, secs := [] } : Plan).recBasket sec r != some b || !mine (owner (recBits r 0 0 (keyWidth sec))) ||
      (sec == sRINGS && (old.recs sRINGS).any fun q => recBits q 0 20 6 != b && decide ((span q).1 < (span r).2) && decide ((span r).1 < (span q).2)) ||
      (sec == sBASKETS && (old.recs sBASKETS).any fun q => recBits q 0 0 6 != b && rangesMeet r q)

def checkFragment (s : State) (h : Header) (frag new : Plan) : Option Bad :=
  let b := h.basket
  let secs := (List.range 11).map (· + 1)
  inOrder [
    fun _ => failIf (s.plan.isNone || s.planNow.id != h.planId) (0x50, 0, some 3),
    fun _ => failIf (decide (h.fragSeq ≤ s.get (PLAN_FRAG_SEQ_SEQ b))) (0x51, 0, some 5),
    fun _ => firstBad secs fun sec => firstBad (frag.recs sec).zipIdx fun x => failIf (fragForeign s.planNow b sec x.1) (0x52, sec, some x.2),
    fun _ => firstBad (frag.recs sRIMS).zipIdx fun x =>
      failIf (!(s.planNow.exclusive (recBits x.1 0 0 4) b && new.exclusive (recBits x.1 0 0 4) b)) (0x53, sRIMS, some x.2)]

/-! ## VERIFY (R300) -/

/-- What VERIFY finds of the staged words: the first failure, or the plan that the load would put in force and the fragment. An encrypted plan is
decrypted between its tag's check and the sections' (R296). -/
def verifyPlan (s : State) (staged : List Word) : Except Bad (Plan × Option Plan) :=
  match checkHeader s staged with
  | some e => .error e
  | none =>
    let h := headerOf staged
    let ws := if h.enc then s.planPlain staged else staged
    match checkForm ws with
    | some e => .error e
    | none =>
      let p := planOf ws
      let old := s.planNow
      let new := if h.partial_ then mergePlan old p h.basket else p
      let l := fun (sec : Nat) => if h.partial_ then mergeSec old p h.basket sec else (p.recs sec).zipIdx
      let frag := if h.partial_ then some p else none
      match inOrder [fun _ => checkLinks s new l frag, fun _ => checkAdmission s l, fun _ => if h.partial_ then checkFragment s h p new else none] with
      | some e => .error e
      | none => .ok (new, frag)

end Sys2Proof.Machine
end

