-- ==== Sys2Proof/Machine/Lanes.lean ====
section
/-! DEFINITION. The lanes: bring-up, replay, departures and partner control (R259 to R288). A rate is the code of LANE_STATUS.RATE: 0 is 56.0
Gb/s and 3 is 7 Gb/s. -/

namespace Sys2Proof.Machine

/-! ## Training (R271, R272) -/

/-- The rate of code `c` is in RATES `r`. -/
def rateIn (r c : Nat) : Bool := r.testBit (3 - c)

/-- The highest rate common to what the hub offers on lane `p` and RATES `far`, of code `from_` or lower in rate. -/
def State.commonRate (s : State) (p far from_ : Nat) : Option Nat :=
  (List.range 4).find? fun c => decide (from_ ≤ c) && rateIn (ratesFrom (s.get (LANE_CFG_MAX_RATE p))) c && rateIn far c

/-- Lane `p`, detected, enters TRAIN at the highest rate common to both ends' training sets, and goes on sending its own (R272). -/
def enterTrain (p : Nat) (s : State) : State :=
  match s.commonRate p (s.lane p).rates (s.lane p).limit with
  | some c => sendTs p false ((s.put (LANE_STATUS_PHASE p) lTRAIN).put (LANE_STATUS_RATE p) c)
  | none => s

/-- The weft lanes that hold the training sets of the offer with ID16 `id` (R272). -/
def State.offerLanes (s : State) (id : Nat) : List Nat :=
  (List.range 108).filter fun p => decide (4 ≤ p) && (s.lane p).id16 == some id

/-- The lanes of an offer that wait in DETECT and may train. -/
def State.offerDetected (s : State) (id : Nat) : List Nat :=
  (s.offerLanes id).filter fun p => s.phase p == lDETECT && !(s.lane p).hold

/-- One copy of a repeated frame has been received on lane `p` (R265). -/
def hear (p : Nat) (f : Repeated) (s : State) : State := s.setLane p { (s.lane p) with heard := some f }

/-- It is the second of two identical consecutive copies, on which the receiver acts (R265). -/
def State.heard (s : State) (p : Nat) (f : Repeated) : Bool := (s.lane p).heard == some f

/-- LANE_DETECT: lane `p` has block lock and receives a training set with ID16 `id` and RATES `rates`, on whose second copy it acts. A warp or chain lane trains at once, a chain lane
only while its warp lane is ACTIVE; a weft lane waits for BOND_WAIT, unless that has passed for its offer (R265, R271, R272, R282; DEDUCED, log entry 112). -/
def execLaneDetect (p id rates : Nat) (s : State) : Out :=
  if p < 108 ∧ s.phase p = lDETECT then
    if !s.heard p (.ts id rates) then done s (hear p (.ts id rates) s) else
    let begun := (s.offerLanes id).any fun q => q != p && s.phase q != lDETECT
    let t := s.setLane p { (s.lane p) with id16 := some id, rates := rates }
    if p < 2 ∨ (p < 4 ∧ s.laneActive (p - 2)) ∨ (4 ≤ p ∧ begun) then
      done s (if (s.lane p).hold then t else enterTrain p t)
    else done s t
  else .next s

/-- BOND_WAIT_EXPIRE: BOND_WAIT has passed since the first lane of offer `id` detected: every lane of it that has detected enters TRAIN (R272). -/
def execBondWaitExpire (id : Nat) (s : State) : Out := done s (eachDo (s.offerDetected id) enterTrain s)

/-- The taps to which link training brings lane `p`, which the spec leaves to it: free values within the taps' ranges (R208, R220; DESIGN CHOICE, log
entry 103). -/
def trainTaps (p : Nat) (s : State) : State :=
  let (i, t) := s.fresh
  { t with freeCtr := t.freeCtr + 8 }.setLane p { (t.lane p) with taps := (List.range 9).map fun j => let r := tapRange j; r.1 + (Config.freeNat (i + j) : Int) % (r.2 - r.1 + 1) }

/-- TRAIN_READY: lane `p`'s equaliser is adapted at its training rate, and with the hub's READY both ends have sent it: the lane enters ALIGN, where the
hub sends its align marker, number 0 (R208, R271, R273; DESIGN CHOICE, log entry 110). -/
def execTrainReady (p : Nat) (s : State) : Out :=
  if p < 108 ∧ s.phase p = lTRAIN then
    let t := trainTaps p ((sendTs p true s).lower (LANE_STATUS_FAILED p))
    done s ((t.put (LANE_STATUS_PHASE p) lALIGN).emit (.aln p 0 false))
  else .next s

/-! ## Negotiation (R274, R275) -/

/-- The fields of D1 of a capability word, from bit `lo` up. -/
def capBits (d1 lo w : Nat) : Nat := d1 / 2 ^ lo % 2 ^ w

/-- The hub's offer on lane `p`: D1 (R274). -/
def State.offerWord (s : State) (p : Nat) : Nat :=
  let rates := ratesFrom (s.get (LANE_CFG_MAX_RATE p))
  let fec := if s.get (LANE_CFG_FEC_POL p) = 2 then 3 else 1
  let h := match s.handleOf p with | some h => some h | none => s.wiredTo p
  let spare := match h with | some h => s.get (LANE_PTN_BIND_SPARE h) | none => 0
  rates + 2 ^ 4 * fec + 2 ^ 6 + 2 ^ 14 * (if p < 4 then 2 else 5) + 2 ^ 17 * (if p < 4 then 1 else 7) +
    2 ^ 20 * (if p < 2 then 1 else if p < 4 then 2 else 4) + 2 ^ 23 * spare + 2 ^ 24 * (s.lanePos p % 4) + 2 ^ 26 * s.get TAL_STATUS_CHAIN_POS +
    2 ^ 32 * 256

/-- The hub's D2: its identifiers and its serial (R274). -/
def State.identWord (s : State) : Nat := (s.reg DEV_IDENT).toNat + 2 ^ 32 * (s.reg DEV_SERIAL).toNat

/-- The word of an agreement that the hub makes: D1 (R274, R275). -/
def State.agreementWord (s : State) (p : Nat) (g : Agreement) : Nat :=
  2 ^ (3 - g.rate) + 2 ^ 4 * (if g.fec then 1 else 0) + 2 ^ 6 + 2 ^ 14 * (if p < 4 then 2 else if g.beat then 1 else 4) +
    2 ^ 17 * (if g.width = 4 then 4 else g.width) + 2 ^ 20 * (if p < 4 then 2 else 4) + 2 ^ 23 * (if g.subst then 1 else 0) + 2 ^ 24 * g.pos +
    2 ^ 26 * s.get TAL_STATUS_CHAIN_POS + 2 ^ 31 + 2 ^ 32 * 256

/-- ALIGN_COMPLETE: lane `p` has returned the far end's marker of number `aseq`, and its measurements are made: its round-trip time and its internal
latencies, in fs; the lane offers its capability word (R265, R273, R274). -/
def execAlignComplete (p rtt tx rx aseq : Nat) (s : State) : Out :=
  if p < 108 ∧ s.phase p = lALIGN then
    let w := fun (n : Nat) => BitVec.ofNat 32 n
    let t := ((s.setReg (LANE_RTT p) (w rtt)).setReg (LANE_TXLAT p) (w tx)).setReg (LANE_RXLAT p) (w rx)
    done s (((t.put (LANE_STATUS_PHASE p) lNEGOTIATE).emit (.aln p aseq true)).emit (.cap p (t.offerWord p) t.identWord))
  else .next s

/-- FEC is on, off, or there is no choice: the far end's FEC bits against the plan's policy (R275). -/
def fecChoice (far pol : Nat) : Option Bool :=
  let cap := far.testBit 0
  let req := far.testBit 1 || pol == 2
  if req && !cap then none else some (req || (cap && (pol == 1 || pol == 2)))

/-- The refusal of an offer with RET `why` on the lanes `ps`: they may not train again for 100 ms, and the refusal is counted (R275, R276). -/
def refuseOffer (ps : List Nat) (h : Option Nat) (why : Nat) (s : State) : State :=
  let t := match h, ps with
    | some h, _ => s.incSat (LANE_PTN_CNT_REFUSED h)
    | none, p :: _ => s.incSat (LANE_CNT0_TRAIN_FAIL p)
    | none, [] => s
  eachDo ps (fun p t => enterRetire p why false (t.setLane p { (t.lane p) with hold := true })) t

/-- The runs of `w` lanes that a bond of the handle may take, the lowest first, as offsets in its range. -/
def runStarts (bound w : Nat) : List Nat := (List.range (bound / w)).map fun i => w * i

/-- A run of `w` lanes from offset `o` of handle `h`'s range, among the trained lanes `ps`: its lanes in bond order, where the group's spare may
stand in for one of them (R275, R278). -/
def State.bondRun (s : State) (h : Nat) (ps : List Nat) (spareOk : Bool) (w o : Nat) : Option (List Nat) :=
  let run := (List.range w).map fun i => s.rangeFirst h + o + i
  let ok := fun p => ps.contains p && !(s.lane p).replaced
  let sp := s.groupSpare h
  match run.filter fun p => !ok p with
  | [] => some run
  | [x] => if spareOk && ps.contains sp then some (run.map fun p => if p = x then sp else p) else none
  | _ => none

/-- The bond that the hub chooses: the largest width that both ends offer, at the lowest run (R275). -/
def State.chooseBond (s : State) (h : Nat) (ps : List Nat) (bond : Nat) (spareOk : Bool) : Option (List Nat) :=
  [4, 2, 1].findSome? fun w =>
    if w ≤ s.boundWidth h && bond.testBit (if w = 4 then 2 else w - 1) then
      (runStarts (s.boundWidth h) w).findSome? fun o => s.bondRun h ps spareOk w o
    else none

/-- The lanes `ps` retrain at the agreed rate of code `c`: they return to DETECT, and their training sets offer no higher one (R271, R275; DEDUCED, log
entry 29). -/
def retrainAt (c : Nat) (ps : List Nat) (s : State) : State := eachDo ps (laneBack c) s

/-- The hub decides on the offer of the weft lanes `ps`, all in NEGOTIATE with their capability words received, `p` the lowest (R275, R276). The rate
is the highest in both offers that is not above the training rate, since a rate changes only by retraining (R271; DEDUCED, log entry 29). -/
def decideWeft (p : Nat) (ps : List Nat) (s : State) : State :=
  let (d1, d2) := ((s.lane p).cap).getD (0, 0)
  let h? := s.handleOf p
  let time := capBits d1 14 3
  match s.commonRate p (capBits d1 0 4) (s.get (LANE_STATUS_RATE p)) with
  | none => refuseOffer ps h? 0x02 s
  | some c =>
    match fecChoice (capBits d1 4 2) (s.get (LANE_CFG_FEC_POL p)) with
    | none => refuseOffer ps h? 0x03 s
    | some fec =>
      if !(capBits d1 6 8).testBit 0 then refuseOffer ps h? 0x04 s
      else if !time.testBit 0 && !time.testBit 2 then refuseOffer ps h? 0x05 s
      else match h? with
        | none => refuseOffer ps none 0x08 s
        | some h =>
          let sp := s.groupSpare h
          let spareOk := s.flag (LANE_PTN_BIND_SPARE h) && capBits d1 23 1 == 1 && s.get (LANE_STATUS_RATE sp) == s.get (LANE_STATUS_RATE p)
          match s.chooseBond h ps (capBits d1 17 3) spareOk with
          | none => refuseOffer ps h? 0x06 s
          | some bond =>
            if s.flag (LANE_PTN_BIND_ID_CHECK h) ∧ d2 % 2 ^ 32 ≠ (s.reg (LANE_PTN_EXPECT h)).toNat then refuseOffer ps h? 0x07 s
            else if capBits d1 20 3 ≠ 0 then refuseOffer ps h? 0x09 s
            else if s.get (LANE_STATUS_RATE p) < c then
              retrainAt c ps s
            else
              let subst := bond.contains sp
              let g : Agreement := ⟨c, fec, time.testBit 0, bond.length, 0, bond.foldl min 107, h, subst⟩
              let t := eachDo bond.zipIdx (fun e t =>
                let a := { g with pos := e.2 }
                (t.setLane e.1 { (t.lane e.1) with agreed := some a }).emit (.cap e.1 (t.agreementWord e.1 a) t.identWord)) s
              let t := eachDo (ps.filter fun q => !bond.contains q) (enterRetire · 0x0D false) t
              let t := eachDo ((List.range (s.boundWidth h)).map fun i => s.rangeFirst h + i) (fun q t => t.setLane q { (t.lane q) with replaced := false }) t
              if bond.length < s.boundWidth h then raiseFault (srcLane g.first) .bondNarrow (t.handleBasket h) bond.length t else t

/-- The offer with ID16 `id` is decided once none of its lanes trains any more and every capability word has come (R275; DEDUCED, log entry 29). -/
def tryDecide (id : Nat) (s : State) : State :=
  let ps := s.offerLanes id
  let neg := ps.filter fun p => s.phase p == lNEGOTIATE && (s.lane p).agreed.isNone
  let busy := ps.any fun p => s.phase p == lTRAIN || s.phase p == lALIGN
  match neg with
  | p :: _ => if !busy && neg.all fun q => (s.lane q).cap.isSome then decideWeft p neg s else s
  | [] => s

/-- The hub decides, as the upstream end, on the offer of the hub that its chain port `p` faces (R275). -/
def decideChain (p d1 : Nat) (s : State) : State :=
  match s.commonRate p (capBits d1 0 4) (s.get (LANE_STATUS_RATE p)) with
  | none => refuseOffer [p] none 0x02 s
  | some c =>
    match fecChoice (capBits d1 4 2) (s.get (LANE_CFG_FEC_POL p)) with
    | none => refuseOffer [p] none 0x03 s
    | some fec =>
      if !(capBits d1 6 8).testBit 0 then refuseOffer [p] none 0x04 s
      else if !(capBits d1 14 3).testBit 1 then refuseOffer [p] none 0x05 s
      else if !(capBits d1 17 3).testBit 0 then refuseOffer [p] none 0x06 s
      else if capBits d1 20 3 ≠ 1 ∨ capBits d1 26 3 ≠ s.get TAL_STATUS_CHAIN_POS + 1 then refuseOffer [p] none 0x09 s
      else if s.get (LANE_STATUS_RATE p) < c then retrainAt c [p] s
      else
        let g : Agreement := ⟨c, fec, false, 1, 0, p, 0x7F, false⟩
        (s.setLane p { (s.lane p) with agreed := some g }).emit (.cap p (s.agreementWord p g) s.identWord)

/-- The agreement that an upstream end's word names on warp lane `p` (R274). -/
def agreementOf (p d1 : Nat) : Agreement :=
  ⟨if d1.testBit 3 then 0 else if d1.testBit 2 then 1 else if d1.testBit 1 then 2 else 3, d1.testBit 4, false, 1, 0, p, 0x7F, false⟩

/-- CAP_RECEIVE: a capability word, its two data blocks `d1` and `d2`, is received whole on lane `p`. On a weft lane and on a chain port the hub
is the deciding end; on a warp lane the upstream end is, and its agreement is taken as it comes (R275). -/
def execCapReceive (p d1 d2 : Nat) (s : State) : Out :=
  if p < 108 ∧ s.phase p = lNEGOTIATE ∧ (s.lane p).agreed.isNone then
    let t := s.setLane p { (s.lane p) with cap := some (d1, d2) }
    if p < 2 then
      if capBits d1 31 1 = 1 then done s (t.setLane p { (t.lane p) with agreed := some (agreementOf p d1) }) else done s t
    else if p < 4 then done s (decideChain p d1 t)
    else match (t.lane p).id16 with
      | some id => done s (tryDecide id t)
      | none => done s t
  else .next s

/-- TRAIN_MAX_EXPIRE: lane `p` has trained for TRAIN_MAX without READY: it goes on at the next lower common rate, or fails and returns to DETECT
(R270, R271). Its offer may now be decided without it. -/
def execTrainMaxExpire (p : Nat) (s : State) : Out :=
  if p < 108 ∧ s.phase p = lTRAIN then
    match s.commonRate p (s.lane p).rates (s.get (LANE_STATUS_RATE p) + 1) with
    | some c => done s (sendTs p false (s.put (LANE_STATUS_RATE p) c))
    | none =>
      let t := ((laneDown p s).raise (LANE_STATUS_FAILED p)).incSat (LANE_CNT0_TRAIN_FAIL p)
      match (s.lane p).id16 with
      | some id => done s (if 4 ≤ p then tryDecide id t else t)
      | none => done s t
  else .next s

/-- The link of lane `p` comes up with the far end's WINDOW: it is ACTIVE, and its average and numbers start afresh; with a warp lane its chain port
begins to send (R93, R268, R271). -/
def linkUp (p window : Nat) (s : State) : State :=
  let t := eachDo (s.linkLanes p) (fun q t => t.put (LANE_STATUS_PHASE q) lACTIVE) s
  let t := t.setLink p { up := true, window := window }
  let t := if p < 2 ∧ t.phase (2 + p) = lDETECT then sendTs (2 + p) false t else t
  if p = 2 ∨ p = 3 then t else restartAvg p t

/-- What partner `h`'s registers show of its bond (LANE_PTN_STATUS, LANE_PTN_ID0, LANE_PTN_ID1). -/
def showPartner (h : Nat) (g : Agreement) (d2 : Nat) (s : State) : State :=
  let t := ((s.put (LANE_PTN_STATUS_WIDTH h) g.width).put (LANE_PTN_STATUS_RATE h) g.rate).putFlag (LANE_PTN_STATUS_FEC h) g.fec
  let t := ((t.putFlag (LANE_PTN_STATUS_TIME h) g.beat).put (LANE_PTN_STATUS_VER h) 0).putFlag (LANE_PTN_STATUS_SUBST h) g.subst
  let t := (t.put (LANE_PTN_STATUS_FIRST h) g.first).setReg (LANE_PTN_ID0 h) (BitVec.ofNat 32 d2)
  t.setReg (LANE_PTN_ID1 h) (BitVec.ofNat 32 (d2 / 2 ^ 32))

/-- AGREED_ECHO: the agreement on lane `p` is echoed, by the hub itself on a warp lane: its rate, FEC and bond take effect; a weft lane enters ENUMERATE
and is sent ENUM, and a warp or chain lane enters ACTIVE and is granted credits (R241, R271, R275; DESIGN CHOICE, log entry 113). -/
def execAgreedEcho (p : Nat) (s : State) : Out :=
  match (s.lane p).agreed with
  | some g =>
    if p < 108 ∧ s.phase p = lNEGOTIATE then
      let (d1, d2) := ((s.lane p).cap).getD (0, 0)
      let s := if p < 2 then s.emit (.cap p d1 s.identWord) else s
      let t := ((s.put (LANE_STATUS_RATE p) g.rate).putFlag (LANE_STATUS_FEC p) g.fec).put (LANE_STATUS_BOND_POS p) g.pos
      if p < 4 then
        let t := linkUp p (capBits d1 32 16) t
        done s (if p < 2 then grantCredits (0xF0 + p) t else t)
      else
        let t := (t.put (LANE_STATUS_HANDLE p) g.handle).putFlag (LANE_STATUS_SUBST p) (g.subst && p == s.groupSpare g.handle)
        let t := showPartner g.handle g d2 (t.put (LANE_STATUS_PHASE p) lENUMERATE)
        done s (t.emit (.enum p g.handle ((t.handleBasket g.handle).getD 0) (t.get TAL_STATUS_CHAIN_POS) (t.get TAL_CTRL_BEAT_EXP)))
    else .next s
  | none => .next s

/-- ENUM_ECHO: the partner on lane `p` echoes ENUM, on whose second copy the hub acts: with every lane of its bond in ENUMERATE the bond is ACTIVE, the partner has arrived, and it is
granted its credits (R241, R265, R271, R280). -/
def execEnumEcho (p : Nat) (s : State) : Out :=
  let l := s.linkOf p
  match (s.lane l).agreed with
  | some g =>
    let h := g.handle
    let lanes := s.linkLanes l
    if p < 108 ∧ 4 ≤ p ∧ h < 96 ∧ s.phase p = lENUMERATE ∧ lanes.length = g.width ∧ lanes.all (fun q => s.phase q == lENUMERATE) then
      if !s.heard p .enum then done s (hear p .enum s) else
      let d1 := (((s.lane l).cap).getD (0, 0)).1
      let t := (linkUp l (capBits d1 32 16) s).raise (LANE_PTN_STATUS_PRESENT h)
      let t := ((t.incSat (LANE_PTN_CNT_ARRIVALS h)).raise (mapBit LANE_PRESENT h)).raise (mapBit LANE_ARRIVE_EVT h)
      done s (grantCredits h t)
    else .next s
  | none => .next s

/-! ## Departures (R276, R279 to R281) -/

/-- A reason as RET carries it: any other than those of R279 is received as 0x01. -/
def retReason (w : Nat) : Nat := if [1, 2, 3, 4, 5, 6, 7, 8, 9, 0x0A, 0x0B, 0x0D].contains w then w else 1

/-- A lane is in a phase from which RET leads to RETIRE (R271). -/
def State.retirable (s : State) (p : Nat) : Bool := decide (lALIGN ≤ s.phase p) && decide (s.phase p ≤ lACTIVE)

/-- RET_RECEIVE: the far end of lane `p` sends RET with reason `w`, on whose second copy the hub acts: the lane or its bond enters RETIRE; during a
replay episode the episode goes on first (R265, R279, R281). A refusal holds the lane for 100 ms (R276). While the lane's ingress waits it is not
parsed (R239). -/
def execRetReceive (p w : Nat) (s : State) : Out :=
  let why := retReason w
  let l := s.linkOf p
  if p < 108 ∧ (s.link l).stalled.isSome then .next s
  else if p < 108 ∧ (s.retirable p ∨ s.phase p = lRETIRE) ∧ !s.heard p (.ret w) then done s (hear p (.ret w) s)
  else if p < 108 ∧ s.retirable p then
    if (s.link l).episode.isSome then done s (s.setLink l { (s.link l) with retLater := some why })
    else if s.phase p = lNEGOTIATE ∧ 2 ≤ why ∧ why ≤ 9 then
      done s (enterRetire p why true ((s.incSat (LANE_CNT0_TRAIN_FAIL p)).setLane p { (s.lane p) with hold := true }))
    else settled s (retireLink l why true s)
  else if p < 108 ∧ s.phase p = lRETIRE then
    done s (eachDo (s.linkLanes l) (fun q t =>
      ((t.setLane q { (t.lane q) with retFar := true }).put (LANE_RET_REASON q) why).raise (LANE_RET_BY_FAR q)) s)
  else .next s

/-- RETIRE_COMPLETE: both ends of lane `p`'s link have sent RET and nothing is unacknowledged, or 2 µs have passed since the first RET: the lanes
return to DETECT, and a partner that was there has departed (R271, R279, R280). -/
def execRetireComplete (p : Nat) (s : State) : Out :=
  if p < 108 ∧ s.phase p = lRETIRE then settled s (linkDown true (s.linkOf p) s) else .next s

/-- REFUSAL_HOLD_EXPIRE: the 100 ms after the refusal of the lanes `ps` of an offer have passed: those that hold block lock train (R276). -/
def execRefusalHoldExpire (ps : List Nat) (s : State) : Out :=
  done s (eachDo ps (fun p t =>
    let u := t.setLane p { (t.lane p) with hold := false }
    if p < 108 ∧ u.phase p = lDETECT ∧ (u.lane p).id16.isSome then enterTrain p u else u) s)

/-! ## Replay (R268 to R270) -/

/-- With `far`, the far end has no frame left that was unacknowledged when the episode opened. -/
def farClean (l : Nat) (far : Bool) (s : State) : State :=
  let x := s.link l
  if far then s.setLink l { x with episode := x.episode.map fun e => { e with far := false } } else s

/-- ACK_RECEIVE: an ACK of FSEQ `seq` comes on lane `p`; NAK starts an attempt. `far` says that every frame which the far end had unacknowledged at
the opening of the episode has been acknowledged (R268, R269). -/
def execAckReceive (p seq : Nat) (nak far : Bool) (s : State) : Out :=
  let l := s.linkOf p
  if p < 108 ∧ s.parses p then
    let t := farClean l far (acknowledge l seq s)
    let t := if nak then attempt l t else t
    settled s (drain l (closeEpisode l t))
  else .next s

/-- A receiver's discard: the episode opens, and a NAK asks for the frame expected (R268, R269). -/
def discard (l : Nat) (s : State) : State := sendAck l true (openEpisode l s)

/-- FRAME_ERROR: lane `p`'s receiver meets `e`. A corrected codeword is counted only; a frame that the far end sends again opens an episode, or is
a further attempt of it; block lock that comes back asks for a replay; anything else is counted, asks for a replay, and is reported where the FEC
could not correct it (R260 to R264, R268 to R270, R282; DESIGN CHOICE, log entry 83). What only parsing shows is not seen while the lane's ingress
waits (R239). -/
def execFrameError (p : Nat) (e : LineError) (s : State) : Out :=
  let l := s.linkOf p
  if p < 108 then
    match e with
    | .corrected => if s.flag (LANE_STATUS_FEC p) then done s (s.incSat (LANE_CNT1_FEC_CORR p)) else .next s
    | .block | .crc =>
      let t := s.incSat (LANE_CNT1_BAD_BLK p)
      done s (if s.laneCarries p then discard l t else t)
    | .gap => if s.parses p then done s (discard l s) else .next s
    | .relock =>
      if s.laneCarries p ∧ (s.lane p).lost then done s (sendAck l true (s.setLane p { (s.lane p) with lost := false })) else .next s
    | .resent =>
      if s.parses p then
        let t := openEpisode l s
        let x := t.link l
        done s (t.setLink l { x with episode := x.episode.map fun e => { e with attempts := e.attempts + 1 } })
      else .next s
    | .uncorrectable =>
      if s.flag (LANE_STATUS_FEC p) then
        let t := (s.incSat (LANE_CNT1_FEC_UNCORR p)).addSat (LANE_CNT1_BAD_BLK p) 2
        let t := if s.laneCarries p then discard l t else t
        settled s (raiseFault (srcLane l) .fecUncorr (s.linkBasket l) 0 t)
      else .next s
  else .next s

/-- REPLAY_TIMEOUT: REPLAY_TMO has passed on lane `p`'s link: for the hub as `sender` since its oldest unacknowledged frame was last sent, which makes
an attempt; for it as receiver since its NAK, which sends one further NAK (R268). -/
def execReplayTimeout (p : Nat) (sender : Bool) (s : State) : Out :=
  let l := s.linkOf p
  let x := s.link l
  if p < 108 ∧ s.laneCarries p then
    if sender then (if x.unacked = [] then .next s else done s (attempt l s))
    else if x.nakked then
      let t := sendAck l true s
      done s (t.setLink l { (t.link l) with nakked := false })
    else .next s
  else .next s

/-- The forwarding buffer of warp lane `l` is full: 256 frames wait on its chain port or are unacknowledged there, and so the hub acknowledges nothing to
the master (R268, R282; DEDUCED, log entry 114). -/
def State.chainFull (s : State) (l : Nat) : Bool := decide (l < 2) && decide (256 ≤ (s.link (2 + l)).unacked.length + (s.link (2 + l)).waiting.length)

/-- ACK_SEND: ACK_MAX has passed with frames to acknowledge on lane `p`'s link, or 64 of them have come; `far` as in ACK_RECEIVE (R268, R269, R282). -/
def execAckSend (p : Nat) (far : Bool) (s : State) : Out :=
  let l := s.linkOf p
  if p < 108 ∧ s.laneCarries p ∧ (s.link l).owed ≠ 0 ∧ !s.chainFull l then settled s (drain l (closeEpisode l (farClean l far (sendAck l false s))))
  else .next s

/-- REPLAY_EXHAUST: the episode of lane `p`'s link has made 8 attempts, or has been open for 2 µs: one fault is raised, the lanes return to DETECT, and
the source has departed (R269, R270, R280). -/
def execReplayExhaust (p : Nat) (s : State) : Out :=
  let l := s.linkOf p
  if p < 108 ∧ s.exhausted l then
    let h := s.get (LANE_STATUS_HANDLE l)
    let t := s.incSat (LANE_CNT0_EXHAUST l)
    let t := if h < 96 then t.incSat (LANE_PTN_CNT_SURPRISE h) else t
    settled s (linkDown true l (raiseFault (srcLane l) .exhaust (s.linkBasket l) (if h < 96 then h else 0x7F) t))
  else .next s

/-- BLOCK_LOCK_LOSS: lane `p` loses block lock or signal. It counts as a block error, and takes a warp lane's source to ABSENT; where frames are
carried an episode opens, and the hub asks for a replay once it has block lock again; a lane in ALIGN, NEGOTIATE or ENUMERATE returns to DETECT, and one in DETECT is no longer detected (R45, R268, R269,
R271). -/
def execBlockLockLoss (p : Nat) (s : State) : Out :=
  if p < 108 ∧ s.phase p ≠ lOFF then
    let l := s.linkOf p
    let t := if p < 2 then warpLost p s else s
    if s.laneCarries p then
      let u := openEpisode l (t.incSat (LANE_CNT1_BAD_BLK p))
      settled s (u.setLane p { (u.lane p) with lost := true })
    else if s.phase p = lTRAIN then settled s t
    else if s.phase p = lDETECT then settled s (t.setLane p { (t.lane p) with id16 := none, heard := none })
    else settled s (linkDown false l t)
  else .next s

/-- CHAIN_UPSTREAM_FRAME: a frame of a downstream hub comes on chain port `q` and is merged onto the warp lane of the same letter (R243, R282). -/
def execChainUpstreamFrame (q : Nat) (f : UpFrame) (s : State) : Out :=
  if (q = 2 ∨ q = 3) ∧ s.parses q then
    let x := s.link q
    let t := s.setLink q { x with rxNext := (x.rxNext + 1) % 4096, owed := x.owed + 1, nakked := false }
    let g := match f with | .cpl c ws => Frame.cpl c ws | .credit n c b p => Frame.credit n c b p
    done s (if t.laneCarries (q - 2) then sendFrame (q - 2) g t else t)
  else .next s

/-! ## LANE_CMD (R270, R271, R278, R279) -/

/-- The copy of a block's per-function registers that master `m` sees: its own, or the PF's for the sideband (DEDUCED, log entry 80). -/
def copyOf (m : Nat) : Nat := if m = 65 then 0 else m

/-- A LANE_CMD of master `m`: `f` answers what it does, or nothing where it is ignored, which sets CMD_REJ. -/
def laneCmd (m : Nat) (f : State → Option State) (s : State) : State :=
  gateWrite m LANE_CMD true (fun s => (f s).getD (s.raise (LANE_EVENT_CMD_REJ (copyOf m)))) s

/-- RETRAIN of lane `p`. -/
def doRetrain (p : Nat) (s : State) : Option State := if p < 108 ∧ s.phase p ≠ lOFF then some (retrainLanes [p] s) else none

/-- RETIRE of the partner on lane `p`, or of a warp or chain lane, with reason 0x0B. -/
def doRetire (p : Nat) (s : State) : Option State :=
  if p < 108 ∧ s.retirable p then some (retireLink (s.linkOf p) 0x0B false s) else none

/-- SUBSTITUTE the group's spare for lane `p`: the whole bond retrains. -/
def doSubstitute (p : Nat) (s : State) : Option State :=
  match s.handleOf p with
  | some h =>
    if p < 108 ∧ s.flag (LANE_PTN_BIND_SPARE h) then
      let ps := ((List.range (s.boundWidth h)).map fun i => s.rangeFirst h + i) ++ [s.groupSpare h]
      let t := s.setLane p { (s.lane p) with replaced := true }
      let t := if s.get (LANE_STATUS_HANDLE p) = h then linkDown false (s.linkOf p) t else t
      some (eachDo (ps.filter fun q => t.phase q != lOFF && t.phase q != lDETECT) (linkDown false) t)
    else none
  | none => none

/-- RETRAIN: LANE_CMD by master `m` for lane `p` (R271). -/
def execRetrain (m p : Nat) (s : State) : Out := settled s (laneCmd m (doRetrain p) s)

/-- LANE_RETIRE: LANE_CMD RETIRE by master `m` for lane `p` (R279). -/
def execLaneRetire (m p : Nat) (s : State) : Out := settled s (laneCmd m (doRetire p) s)

/-- SUBSTITUTE: LANE_CMD by master `m` for lane `p` (R278). -/
def execSubstitute (m p : Nat) (s : State) : Out := settled s (laneCmd m (doSubstitute p) s)

/-! ## Partner control (R285, R286) -/

def State.box (s : State) (c : Nat) : Mailbox := tabGet (fun _ => {}) s.boxes c
def State.setBox (s : State) (c : Nat) (x : Mailbox) : State := { s with boxes := tabSet (fun _ => {}) s.boxes c x }

/-- Partner `h` is one of function `c`'s own: a VF's are those of its basket, and the PF's are all (R285; DEDUCED, log entry 30). -/
def State.ownPartner (s : State) (c h : Nat) : Bool :=
  match s.handleBasket h with
  | some b => c == 0 || b == c - 1
  | none => false

/-- A GO of function `c` for the partner that `v` names. One that names another basket's partner is counted as well (R285, R326). -/
def pctlGo (c : Nat) (v : Word) (s : State) : State :=
  let h := bitsAt v 0 7
  if bitsAt v 31 1 = 0 then s
  else if s.flag (LANE_PCTL_STATUS_BUSY c) then s.raise (LANE_EVENT_CMD_REJ c)
  else if !(s.ownPartner c h && s.sourceActive h) then
    let s := if (s.handleBasket h).isSome && !s.ownPartner c h then countForeign c s else s
    (s.raise (LANE_PCTL_STATUS_REJ c)).raise (LANE_EVENT_PCTL_DONE c)
  else
    let t := (s.raise (LANE_PCTL_STATUS_BUSY c)).setBox c { (s.box c) with dest := some h, late := false }
    sendFrame (t.get (LANE_PTN_STATUS_FIRST h)) (.pctl (t.reg (LANE_PCTL_TX0 c)) (t.reg (LANE_PCTL_TX1 c))) { t with pctl := t.pctl ++ [(h, c)] }

/-- PCTL_SEND: master `m` writes `v` to its LANE_PCTL_CTRL (R285). -/
def execPctlSend (m : Nat) (v : Word) (s : State) : Out :=
  done s (gateWrite m (LANE_PCTL_CTRL (copyOf m)) false (fun t => pctlGo (copyOf m) v (keepRsvl m (LANE_PCTL_CTRL (copyOf m)) v t)) s)

/-- A sequenced frame of partner `h` has been received in order (R268). -/
def takeFrame (h : Nat) (s : State) : State :=
  let l := s.get (LANE_PTN_STATUS_FIRST h)
  let x := s.link l
  s.setLink l { x with rxNext := (x.rxNext + 1) % 4096, owed := x.owed + 1, nakked := false }

/-- Partner `h` is there and its link carries frames. -/
def State.partnerThere (s : State) (h : Nat) : Bool :=
  decide (h < 96) && s.flag (LANE_PTN_STATUS_PRESENT h) && s.parses (s.get (LANE_PTN_STATUS_FIRST h))

/-- PCTL_ACK_RECEIVE: partner `h` acknowledges with status `st`: the oldest message that waits for it is DONE; after a TIMEOUT every ACK of the
partner is discarded for 10 ms (R285, R286). -/
def execPctlAckReceive (h st : Nat) (s : State) : Out :=
  if s.partnerThere h then
    let t := takeFrame h s
    if t.boxes.any fun e => e.2.dest == some h && e.2.late then done s t
    else match t.pctl.find? fun e => e.1 == h with
      | some (_, c) =>
        let u := { t with pctl := t.pctl.eraseP fun e => e.1 == h }.setBox c { (t.box c) with dest := none }
        let u := ((u.lower (LANE_PCTL_STATUS_BUSY c)).raise (LANE_PCTL_STATUS_DONE c)).put (LANE_PCTL_STATUS_ACK_ST c) st
        done s (u.raise (LANE_EVENT_PCTL_DONE c))
      | none => done s t
  else .next s

/-- LANE_PCTL_RX presents the oldest message of mailbox `c`, and LANE_EVENT shows that one waits (DEDUCED, log entry 65). -/
def presentRx (c : Nat) (s : State) : State :=
  match (s.box c).rx with
  | (h, d0, d1) :: _ =>
    let t := ((s.setReg (LANE_PCTL_RX0 c) d0).setReg (LANE_PCTL_RX1 c) d1).put (LANE_PCTL_RX_INFO_HANDLE c) h
    (t.raise (LANE_PCTL_RX_INFO_VALID c)).raise (LANE_EVENT_PCTL_RX c)
  | [] => s.lower (LANE_PCTL_RX_INFO_VALID c)

/-- PCTL_RX: a PCTL of partner `h` other than an ACK, with the data block `d0`, `d1`, enters the mailbox of its basket's VF, or the PF's while that
VF is not enabled; a 17th message is dropped (R285). -/
def execPctlRx (h : Nat) (d0 d1 : Word) (s : State) : Out :=
  if s.partnerThere h ∧ bitsAt d0 0 8 ≠ 0x7F then
    let t := takeFrame h s
    let f := (t.handleBasket h).getD 0 + 1
    let c := if f ≤ t.host.vfs then f else 0
    if 16 ≤ (t.box c).rx.length then done s (t.incSat (LANE_PCTL_STATUS_RX_LOST c))
    else done s (presentRx c (t.setBox c { (t.box c) with rx := (t.box c).rx ++ [(h, d0, d1)] }))
  else .next s

/-- PCTL_TIMEOUT: no ACK has come for mailbox `c`'s message 10 ms after its frame, not counting the partner's replay (R286). -/
def execPctlTimeout (c : Nat) (s : State) : Out :=
  match (s.box c).dest with
  | some h =>
    if !(s.box c).late && (s.link (s.get (LANE_PTN_STATUS_FIRST h))).episode.isNone then
      let t := (s.setBox c { (s.box c) with late := true }).raise (LANE_PCTL_STATUS_TIMEOUT c)
      done s ({ t with pctl := t.pctl.filter fun e => !(e.1 == h && e.2 == c) }.raise (LANE_EVENT_PCTL_DONE c))
    else .next s
  | none => .next s

/-- PCTL_BUSY_END: the 10 ms after mailbox `c`'s TIMEOUT have passed (R286). -/
def execPctlBusyEnd (c : Nat) (s : State) : Out :=
  if (s.box c).late then done s ((s.setBox c { (s.box c) with dest := none, late := false }).lower (LANE_PCTL_STATUS_BUSY c)) else .next s

/-- The oldest received message of mailbox `c` is released, and the next one presented. -/
def releaseRx (c : Nat) (s : State) : State := presentRx c (s.setBox c { (s.box c) with rx := (s.box c).rx.drop 1 })

/-- PCTL_RX_RELEASE: master `m` writes 1 to LANE_PCTL_RX_INFO.VALID (R285). -/
def execPctlRxRelease (m : Nat) (s : State) : Out :=
  done s (gateWrite m (LANE_PCTL_RX_INFO (copyOf m)) false (releaseRx (copyOf m)) s)

end Sys2Proof.Machine
end

