-- ==== Sys2Proof/Machine/Rings.lean ====
section
/-! DEFINITION. Rings: doorbells, credits, the fetch capacity and the peaks (R234 to R258). -/

namespace Sys2Proof.Machine

/-- A doorbell by master `m` for ring `r` with index `i` (R237; DEDUCED, log entry 41). -/
def doorbell (m r i : Nat) (s : State) : State :=
  let kind := s.get (RING_DESC1_KIND r)
  let b := s.get (RING_DESC1_BASKET r)
  if !((kind == 1 || kind == 3) && (m == 0 || m == b + 1)) then countForeign m (s.raise (RING_EVENT_DB_REJ (copyOf m)))
  else
    let cur := if kind = 1 then s.get (RING_PROD_IDX r) else s.get (RING_CONS_IDX r)
    let room := if kind = 1 then s.ringDepth r - s.ringUsed r else s.ringUsed r
    if room < (i + 2 ^ 17 - cur) % 2 ^ 17 then (s.raise (RING_EVENT_DB_OVER (copyOf m))).incSat (RING_BSK_CNT1_DB_OVER b)
    else if kind = 1 then { s.put (RING_PROD_IDX r) i with dbFrom := tabSet (fun _ => 0) s.dbFrom r m }
    else s.put (RING_CONS_IDX r) i

/-- RING_DOORBELL: master `m` writes `v` to RING_DB (R237). -/
def execRingDoorbell (m : Nat) (v : Word) (s : State) : Out :=
  done s (gateWrite m RING_DB false (doorbell m (bitsAt v 0 15) (bitsAt v 15 17)) s)

/-- CREDIT_SEND: 16 credits of ring `r` are owed to its source `j`, or 1 µs has passed with some owed: they leave (R241). -/
def execCreditSend (r j : Nat) (s : State) : Out := if j < 6 then done s (sendOwed r j s) else .next s

/-- The reservations of basket `b` in force, by class (R248, R251). -/
def State.resInForce (s : State) (b : Nat) : Nat :=
  s.get (RING_BSK_RES0_RES_URG b) + (if s.flag (mapBit RING_DEG_MAP b) then 0 else s.get (RING_BSK_RES0_RES_TMD b)) +
    (if s.flag RING_CAP_BM then 0 else s.get (RING_BSK_RES1_RES_BLK b) + s.get (RING_BSK_RES1_RES_MNT b))

/-- The sum of the reservations in force, in M profiles/s (R251). -/
def State.resTotal (s : State) : Nat := ((List.range 64).map s.resInForce).sum

/-- The baskets that hold a BULK or MAINT reservation. -/
def State.bmBaskets (s : State) : List Nat :=
  (List.range 64).filter fun b => s.get (RING_BSK_RES1_RES_BLK b) + s.get (RING_BSK_RES1_RES_MNT b) != 0

/-- RING_CAP.TDEG counts the baskets whose TIMED reservation is withdrawn. -/
def countDeg (s : State) : State := s.put RING_CAP_TDEG ((List.range 64).countP fun b => s.flag (mapBit RING_DEG_MAP b))

/-- Step 1 of R251: every BULK and MAINT reservation is withdrawn at once. -/
def withdrawBm (s : State) : State :=
  let bs := s.bmBaskets
  let t := ({ s with withdrawn := 64 :: s.withdrawn }.raise RING_CAP_BM).raise (RING_EVENT_DEG_UP 0)
  eachDo bs (fun b u => raiseFault (srcRing b) .resWithdrawn (some b) 0x102 (u.incSat (RING_BSK_CNT1_DEG b))) t

/-- The TIMED reservation of basket `b` is withdrawn. -/
def withdrawTmd (b : Nat) (s : State) : State :=
  let t := ({ s with withdrawn := b :: s.withdrawn }.raise (mapBit RING_DEG_MAP b)).raise (RING_EVENT_DEG_UP 0)
  raiseFault (srcRing b) .resWithdrawn (some b) 1 ((countDeg t).incSat (RING_BSK_CNT1_DEG b))

/-- The basket whose TIMED reservation goes next: the lowest PRIO, and among equals the highest number (R251). -/
def State.nextTmd (s : State) : Option Nat :=
  let c := (List.range 64).reverse.filter fun b => !s.flag (mapBit RING_DEG_MAP b) && s.get (RING_BSK_RES0_RES_TMD b) != 0
  c.find? fun b => c.all fun d => decide (s.get (RING_BSK_CFG_PRIO b) ≤ s.get (RING_BSK_CFG_PRIO d))

/-- TIMED reservations are withdrawn, at most `n` of them, until what is left in force is no more than C. -/
def withdrawMore : Nat → State → State
  | 0, s => s
  | n + 1, s =>
    if 1000 * s.resTotal ≤ s.cap then s
    else match s.nextTmd with
      | some b => withdrawMore n (withdrawTmd b s)
      | none => s

/-- Reservations are withdrawn while C is less than the sum of those in force: the BULK and MAINT ones first, then TIMED ones (R251). -/
def withdrawShort (s : State) : State :=
  withdrawMore 64 (if s.cap < 1000 * s.resTotal ∧ !s.flag RING_CAP_BM ∧ s.bmBaskets ≠ [] then withdrawBm s else s)

/-- The fetch capacity, in thousand profiles/s, from the rate at which one bank of each of the four groups performs accesses, in thousand records/s: the
slowest group's, times the 64 banks (R251). -/
def capacityOf (rates : List Nat) : Nat := 64 * (rates.drop 1).foldl min (rates.headD 0)

/-- CAPACITY_MEASURE: the replica paths of the four groups give `rates`, whose capacity is published; reservations beyond it are withdrawn
(R251; DESIGN CHOICE, log entry 14). -/
def execCapacityMeasure (rates : List Nat) (s : State) : Out :=
  let c := capacityOf rates
  settled s (withdrawShort ({ s with cap := c }.put RING_CAP_CAP (min (c / 10000) 65535)))

/-- RESERVATION_RESTORE: C has been at least 1.05 times the reservations in force and the one to be restored for 1 ms: the step withdrawn last is
restored (R252). -/
def execReservationRestore (s : State) : Out :=
  match s.withdrawn with
  | [] => .next s
  | w :: r =>
    let step := if w = 64 then ((List.range 64).map fun b => s.get (RING_BSK_RES1_RES_BLK b) + s.get (RING_BSK_RES1_RES_MNT b)).sum
      else s.get (RING_BSK_RES0_RES_TMD w)
    if 105000 * (s.resTotal + step) ≤ 100 * s.cap then
      let t := { s with withdrawn := r }.raise (RING_EVENT_DEG_DOWN 0)
      if w = 64 then settled s (eachDo t.bmBaskets (fun b u => raiseFault (srcRing b) .resRestored (some b) 0x102 u) (t.lower RING_CAP_BM))
      else settled s (raiseFault (srcRing w) .resRestored (some w) 1 (countDeg (t.lower (mapBit RING_DEG_MAP w))))
    else .next s

/-- A write of any value sets a peak to the slots held (R258). -/
def totalPeak (s : State) : State := s.put RING_ARM_TOTAL_PEAK (s.get RING_ARM_TOTAL_HELD)
def basketPeak (b : Nat) (s : State) : State := s.put (RING_BSK_PEAK_PEAK b) (s.get (RING_BSK_ARM_HELD b))

/-- ARM_PEAK_WRITE: master `m` writes RING_BSK_PEAK(b), or RING_ARM_TOTAL where `b` is none (R258). -/
def execArmPeakWrite (m : Nat) (b : Option Nat) (s : State) : Out :=
  match b with
  | some b => if b < 64 then done s (gateWrite m (RING_BSK_PEAK b) false (basketPeak b) s) else .next s
  | none => done s (gateWrite m RING_ARM_TOTAL true totalPeak s)

end Sys2Proof.Machine
end

