-- ==== Sys2Proof/Machine/Spokes.lean ====
section
/-! DEFINITION. The spokes' writes, low points, forces and release (R171, R174 to R178, R185). -/

namespace Sys2Proof.Machine

/-- The level of a spoke whose strand does not run follows STOP_LEVEL (R177). -/
def spokeLevel (n : Nat) (s : State) : State :=
  if s.flag (SPK_CFG_STOP_LEVEL n) then (if s.spokeParked n then s.raise (SPK_STATUS_C_STOP n) else parkSpoke SPK_STATUS_C_STOP n s)
  else unparkSpoke SPK_STATUS_C_STOP n s

/-- SPK_CFG_WRITE: master `m` writes `v` to SPK_CFG(n). A bad PATH or SWING ignores it whole. STOP_LEVEL is set, and a change of PATH or SWING
waits for a low point, or takes effect at once where the strand does not run; a PATH of DIRECT or DOUBLED clears C_FW (R171, R174, R177, R185). -/
def execSpkCfgWrite (m n : Nat) (v : Word) (s : State) : Out :=
  if n < 256 then
    done s (gateWrite m (SPK_CFG n) false (fun s =>
      if bitsAt v 9 2 = 3 ∨ bitsAt v 12 4 = 15 then s.raise SPK_EVENT_VAL_REJ
      else
        let t := storeRw m (SPK_CFG n) v s
        let t := if t.get (SPK_CFG_PATH n) ≠ 0 then unparkSpoke SPK_STATUS_C_FW n t else t
        if t.spokeRuns n then t.putFlag (SPK_STATUS_PEND n) (!t.spokeCurrent n)
        else if t.flag (SPK_CFG_ROUTED n) then spokeLevel n (spokeApply n t)
        else spokeApply n t) s)
  else .next s

/-- LOW_POINT_APPLY: a committed low point of spoke `n`'s strand: a pending change takes effect, unless a cause other than PATH = PARKED holds the
spoke, where it stays pending (R171, R178). -/
def execLowPointApply (n : Nat) (s : State) : Out :=
  if n < 256 ∧ s.spokeRuns n ∧ s.flag (SPK_STATUS_PEND n) ∧ !s.spokeForced n then done s (spokeApply n s) else .next s

/-- A keeper force by master `m` on spoke `n`, or on every spoke. -/
def spkForce (m n : Nat) (all : Bool) (f : List Nat → State → State) (s : State) : State :=
  gateWrite m SPK_FORCE true (f (if all then allSpokes else [n])) s

/-- SPK_FORCE_PARK: C_FORCE is set, which parks through the force path (R174). -/
def execSpkForcePark (m n : Nat) (all : Bool) (s : State) : Out :=
  if n < 256 then done s (spkForce m n all (parkSpokes SPK_STATUS_C_FORCE) s) else .next s

/-- SPK_FORCE_RELEASE: C_FORCE is cleared (R174). -/
def execSpkForceRelease (m n : Nat) (all : Bool) (s : State) : Out :=
  if n < 256 then done s (spkForce m n all (unparkSpokes SPK_STATUS_C_FORCE) s) else .next s

/-- SPOKE_RELEASE: the first low point at least 20 ns after the last cause of spoke `n` cleared. A pending write takes effect: with PATH = PARKED
the spoke stays PARKED with C_FW; otherwise it leaves PARKED and runs (R176, R178). -/
def execSpokeRelease (n : Nat) (s : State) : Out :=
  if n < 256 ∧ s.get (SPK_STATUS_STATE n) = 3 then
    let t := spokePending n s
    if t.get (SPK_STATUS_STATE n) = 3 then done s (leaveParked n 1 t) else done s t
  else .next s

end Sys2Proof.Machine
end

