-- ==== Sys2Proof/Machine/PlanApply.lean ====
section
/-! DEFINITION. What the commit point of a load and the end of its apply do (R289, R298, R305, R309 to R313, R376). -/

namespace Sys2Proof.Machine

/-! ## Wales, strands and rims -/

/-- The strands of wale `w` that plan `p` binds (R298). -/
def Plan.waleStrands (p : Plan) (w : Nat) : List Nat := ((List.range 16).map fun j => 16 * w + j).filter fun k => (p.strand? k).isSome

/-- WAL_BIND(w) as plan `p` gives it; a wale with no bound strand is bound to no rim (R132, R298). -/
def bindWale (p : Plan) (w : Nat) (s : State) : State :=
  let ks := p.waleStrands w
  let t := s.setReg (WAL_BIND w) 0
  match p.find sWALES w with
  | some r =>
    let t := t.put (WAL_BIND_BASKET w) (recBits r 0 16 6)
    if ks = [] then t else ((t.put (WAL_BIND_RIM w) (recBits r 0 8 4)).put (WAL_BIND_ACTIVE w) ks.length).raise (WAL_BIND_BOUND w)
  | none => t

/-- Who owns each wale and rim, and how many wales each rim times and each basket owns, follows the bindings (R317). -/
def showOwners (s : State) : State :=
  let t := eachDo (List.range 16) (fun n t =>
    let ws := s.rimWales n
    let bs := s.rimBaskets n
    let u := (t.setReg (BSK_RIM_OWN n) 0).put (RIM_STATUS_WALES n) ws.length
    let u := (u.put (BSK_RIM_OWN_WALES n) ws.length).putFlag (BSK_RIM_OWN_BOUND n) (ws != [])
    match bs with
    | [b] => (u.raise (BSK_RIM_OWN_EXCL n)).put (BSK_RIM_OWN_BASKET n) b
    | _ => u) s
  eachDo (List.range 64) (fun b u =>
    u.put (BSK_STATUS_WALES b) ((List.range 64).countP fun w => s.flag (WAL_BIND_BOUND w) && s.get (WAL_BIND_BASKET w) == b)) t

/-- A strand that the plan no longer binds is OFF: it gives a spare back, and its wear request ends (R298, R421; DEDUCED, log entry 31). -/
def releaseStrand (k : Nat) (s : State) : State :=
  let w := waleOf k
  let t := eachDo [STR_STATUS_NR_RIM, STR_STATUS_NR_RETUNE, STR_STATUS_NR_CAL, STR_STATUS_NR_RES, STR_STATUS_NR_PARENT, STR_STATUS_STALE,
    STR_STATUS_READY] (fun f u => u.lower (f k)) s
  let t := t.modStrand k fun x => { clearSlots x with awaitVisit := false, failRun := 0, ramp := none, slewing := false }
  let t := if t.get (STR_STATUS_PHYS k) = sparePhys w ∧ t.get (WAL_SPARE_STATE w) = 2 then
      queueRepairMap (((t.put (STR_STATUS_PHYS k) (17 * w + k % 16)).put (WAL_SPARE_STATE w) 0).put (WAL_SPARE_POS w) 0)
    else t
  dischargeWear k t

/-- A strand whose physical strand is marked FAILED takes its wale's spare, where that is FREE and unmarked, as self-test remaps it (R408;
DEDUCED, log entry 53). -/
def remapFailed (k : Nat) (s : State) : State :=
  let w := waleOf k
  if s.strandDead k && s.get (WAL_SPARE_STATE w) == 0 && !s.flag ⟨WAL_FAILED w, 16, 1⟩ then
    queueRepairMap (((s.put (STR_STATUS_PHYS k) (sparePhys w)).put (WAL_SPARE_STATE w) 2).put (WAL_SPARE_POS w) (k % 16))
  else s

/-- Strand `k`'s binding, parent and depth as plan `p` gives them (R21, R179, R298). -/
def bindStrand (p : Plan) (k : Nat) (s : State) : State :=
  let b := (p.strand? k).isSome
  if !b && !(s.strand k).bound then s
  else
    let s := if b && !(s.strand k).bound then remapFailed k s else s
    let t := s.modStrand k fun x => { x with bound := b, parent := (p.timing k).bind (·.2) }
    let t := t.put (STR_STATUS_DEPTH k) ((p.depth 4 k).getD 0)
    if b then t else releaseStrand k t

/-- The reasons of R127 for strand `k`, taken again under its binding, and its readiness with its children's. A strand without a usable physical strand
is not ready through its residual (R408). -/
def rebindReasons (k : Nat) (s : State) : State :=
  if (s.strand k).bound then
    let s := if s.strandDead k then s.raise (STR_STATUS_NR_RES k) else s
    let st := match s.waleRim (waleOf k) with | some r => s.get (RIM_STATUS_STATE r) | none => 0
    let hitless := match s.waleRim (waleOf k) with
      | some r => (match (s.rim r).mig with | some g => g.hitless | none => false)
      | none => false
    let ok := st == rLOCKED || st == rRETUNE || (st == rMIGRATING && hitless)
    let t := (s.putFlag (STR_STATUS_NR_RIM k) (!ok || (s.strand k).awaitVisit)).putFlag (STR_STATUS_NR_RETUNE k) (st == rRETUNE)
    let t := t.putFlag (STR_STATUS_NR_PARENT k) (match (s.strand k).parent with | some q => !s.flag (STR_STATUS_READY q) | none => false)
    refreshCal k (refreshReady 3 k t)
  else s

/-- The strands of a list, those of lesser plait depth first. -/
def State.byDepth (s : State) (ks : List Nat) : List Nat :=
  (List.range 4).flatMap fun d => ks.filter fun k => s.get (STR_STATUS_DEPTH k) == d

/-- A rim that the plan no longer binds goes OFF (R298, R309). -/
def rimOff (n : Nat) (s : State) : State :=
  if s.rimBound n then
    let t := ((s.setReg (RIM_FREQ_LO n) 0).put (RIM_FREQ_HI_N n) 0).put (RIM_STATUS_STATE n) rOFF
    dischargeRimWear n (t.setRim n {})
  else s

/-- The fields of a RIMS record that are the rim's controls (R299). -/
def loadRimCtrl (n : Nat) (r : List Word) (s : State) : State :=
  (s.put (RIM_CTRL_BW n) (recBits r 0 4 2)).put (RIM_CTRL_RETUNE_PARK n) (recBits r 0 6 1)

/-- Logical rim `n` under a full reweave: OFF where it is unbound, LOCKING where it is new or has a new word, and otherwise as it was (R309 step 4). -/
def loadRim (p : Plan) (n : Nat) (s : State) : State :=
  match p.find sRIMS n with
  | none => rimOff n s
  | some r =>
    let t := loadRimCtrl n r s
    if s.rimBound n && s.rimWord n == rimWordOf r then t
    else
      let t := (t.setReg (RIM_FREQ_LO n) (r.getD 1 0)).put (RIM_FREQ_HI_N n) (recBits r 2 0 4)
      (t.put (RIM_STATUS_STATE n) rLOCKING).setRim n {}

/-! ## Spokes and reeds -/

/-- What a spoke's route makes of its causes, while C_REWEAVE holds it PARKED: those of its strand, its rim and its basket, a PATH of PARKED, and
C_UNROUTED without a route, C_STOP where the strand does not run and STOP_LEVEL is 1 (R174). A level of LOW is taken at the release (R177;
DEDUCED, log entry 78). -/
def routeCauses (n : Nat) (s : State) : State :=
  let on := s.flag (SPK_CFG_ROUTED n)
  let k := 256 * (n / 64) + s.get (SPK_CFG_STRAND n)
  let st := s.get (BSK_STATUS_STATE (s.get (SPK_CFG_BASKET n)))
  let park := match s.waleRim (waleOf k) with | some r => s.flag (RIM_CTRL_RETUNE_PARK r) && s.get (RIM_STATUS_STATE r) == rRETUNE | none => false
  let t := s.putFlag (SPK_STATUS_C_UNROUTED n) (!on)
  let t := t.putFlag (SPK_STATUS_C_FW n) (on && s.get (SPK_CFG_PATH n) == 0)
  let t := t.putFlag (SPK_STATUS_C_RIM n) (on && s.flag (STR_STATUS_NR_RIM k))
  let t := t.putFlag (SPK_STATUS_C_RES n) (on && s.flag (STR_STATUS_NR_RES k))
  let t := t.putFlag (SPK_STATUS_C_CAL n) (on && s.flag (STR_STATUS_NR_CAL k))
  let t := t.putFlag (SPK_STATUS_C_BASKET n) (on && (st == 2 || st == 3))
  (t.putFlag (SPK_STATUS_C_RETUNE n) (on && park)).putFlag (SPK_STATUS_C_STOP n) (on && s.flag (SPK_CFG_STOP_LEVEL n) && !s.flag (STR_STATUS_RUN k))

/-- SPK_CFG(n) as plan `p` gives it, in force at once on a PARKED spoke; a spoke without a route is powered down (R172, R309). -/
def routeSpoke (p : Plan) (n : Nat) (s : State) : State :=
  let t := s.setReg (SPK_CFG n) 0
  let t := match p.find sSPOKES n with
    | some r =>
      let t := ((t.put (SPK_CFG_STRAND n) (recBits r 0 8 8)).raise (SPK_CFG_ROUTED n)).put (SPK_CFG_PATH n) (recBits r 0 16 2)
      ((t.put (SPK_CFG_STOP_LEVEL n) (recBits r 0 18 1)).put (SPK_CFG_SWING n) (recBits r 0 20 4)).put (SPK_CFG_BASKET n) (recBits r 0 24 6)
    | none => t
  (t.setSpoke n ⟨t.get (SPK_CFG_PATH n), t.get (SPK_CFG_SWING n)⟩).lower (SPK_STATUS_PEND n)

/-- The fields of REED_CFG(n) that the plan gives (R186). -/
def assignReed (p : Plan) (n : Nat) (s : State) : State :=
  match p.find sREEDS n with
  | some r =>
    let t := ((s.put (REED_CFG_BASKET n) (recBits r 0 8 6)).put (REED_CFG_REF n) (recBits r 0 14 8)).put (REED_CFG_SRC n) (recBits r 0 22 1)
    t.raise (REED_CFG_ASSIGNED n)
  | none => (((s.put (REED_CFG_BASKET n) 0).put (REED_CFG_REF n) 0).lower (REED_CFG_SRC n)).lower (REED_CFG_ASSIGNED n)

/-! ## Rings and baskets -/

/-- Ring `r` is no longer allocated: its indices and its sources' credits are zero (R236, R298). -/
def freeRing (r : Nat) (s : State) : State :=
  let t := eachDo [RING_DESC0 r, RING_DESC1 r, RING_PROD r, RING_CONS r] (fun a u => u.setReg a 0) s
  let t := eachDo (List.range 6) (fun j u => (u.setReg (RING_SRC r j) 0).setReg (RING_SRC_OUT r j) 0) t
  { t with rings := t.rings.filter fun x => x != r, dbFrom := tabSet (fun _ => 0) t.dbFrom r 0 }

/-- A ring as its record allocates it (R235, R299). -/
def allocRing (r : List Word) (s : State) : State :=
  let n := recBits r 0 0 15
  let t := s.put (RING_DESC0_BASE n) (recBits r 1 0 20)
  let t := ((t.put (RING_DESC1_DEPTH_EXP n) (recBits r 0 26 5)).put (RING_DESC1_KIND n) (recBits r 0 15 3)).put (RING_DESC1_CLASS n) (recBits r 0 18 2)
  let t := t.put (RING_DESC1_BASKET n) (recBits r 0 20 6)
  let t := if recBits r 0 15 3 = 3 then t.put (RING_BSK_CPL_RING (recBits r 0 20 6)) n else t
  let t := eachDo (r.drop 2).zipIdx (fun w u => u.setReg (RING_SRC n w.2) w.1) t
  { t with rings := t.rings ++ [n] }

/-- The quotas, reservations, timers and authorisation of basket `b` as plan `p` gives them (R299, R316, R318). -/
def loadBasket (p : Plan) (b : Nat) (s : State) : State :=
  let t := eachDo [RING_BSK_CFG b, RING_BSK_RES0 b, RING_BSK_RES1 b, RING_BSK_CPL b, BSK_SRC0 b, BSK_SRC_H b 0, BSK_SRC_H b 1, BSK_SRC_H b 2,
    BSK_PROF_BASE b, BSK_PROF_QUOTA b, BSK_TIMERS0 b, BSK_TIMERS1 b] (fun a u => u.setReg a 0) s
  let t := match p.find sBASKETS b with
    | some r =>
      let t := ((t.put (RING_BSK_CFG_ARM_QUOTA b) (recBits r 0 12 13)).put (RING_BSK_CFG_URG_RES b) (recBits r 1 0 13)).put (RING_BSK_CFG_PRIO b) (recBits r 0 6 6)
      let t := (t.setReg (RING_BSK_RES0 b) (r.getD 4 0)).setReg (RING_BSK_RES1 b) (r.getD 5 0)
      let t := (t.put (BSK_PROF_BASE_BASE b) (bBase r)).put (BSK_PROF_QUOTA_QUOTA b) (bQuota r)
      (t.put (BSK_TIMERS0_HOLD_MAX b) (recBits r 6 0 20)).setReg (BSK_TIMERS1 b) (r.getD 7 0)
    | none => t
  match p.find sSOURCES b with
  | some r => eachDo (List.range 3) (fun i u => u.setReg (BSK_SRC_H b i) (r.getD (1 + i) 0)) (t.put ⟨BSK_SRC0 b, 0, 3⟩ (recBits r 0 8 3))
  | none => t

/-- A basket's STATE where only its place in the plan changes it: UNUSED without a BASKETS record, NORMAL when it has come into use (R318). -/
def basketUse (p : Plan) (b : Nat) (s : State) : State :=
  if (p.find sBASKETS b).isNone then s.put (BSK_STATUS_STATE b) 0
  else if s.get (BSK_STATUS_STATE b) = 0 then s.put (BSK_STATUS_STATE b) 1 else s

/-- The FAULTS records of plan `p` (R299, R373). -/
def loadFaults (p : Plan) (s : State) : State :=
  { s with faultsRecs := (p.recs sFAULTS).map fun r =>
      ⟨recBits r 0 0 16, recBits r 0 16 8, recBits r 1 24 6, recBits r 1 30 1 == 1, recBits r 0 24 8, recBits r 1 0 24⟩ }

/-! ## Handles and lanes -/

/-- Handle `h` as plan `p` binds it (R276, R299). -/
def bindHandle (p : Plan) (h : Nat) (s : State) : State :=
  let t := (((s.setReg (LANE_PTN_BIND h) 0).setReg (LANE_PTN_EXPECT h) 0).setReg (TAL_BEAT_ASYM h) 0).put (LANE_PTN_STATUS_BASKET h) 0
  match p.find sHANDLES h with
  | some r =>
    let t := ((t.put (LANE_PTN_BIND_GROUP h) (recBits r 0 7 3)).put (LANE_PTN_BIND_FIRST h) (recBits r 0 10 4)).put (LANE_PTN_BIND_WIDTH h) (recBits r 0 14 2)
    let t := ((t.put (LANE_PTN_BIND_SPARE h) (recBits r 0 16 1)).put (LANE_PTN_BIND_ID_CHECK h) (recBits r 0 17 1)).raise (LANE_PTN_BIND_BOUND h)
    let t := (t.put (LANE_PTN_BIND_BASKET h) (recBits r 0 18 6)).put (LANE_PTN_STATUS_BASKET h) (recBits r 0 18 6)
    (t.setReg (LANE_PTN_EXPECT h) (r.getD 1 0)).setReg (TAL_BEAT_ASYM h) (r.getD 2 0)
  | none => t

/-- LANE_CFG(p) of weft lane `q` as the bound range that holds it gives it (R299). -/
def loadLane (p : Plan) (q : Nat) (s : State) : State :=
  let t := s.setReg (LANE_CFG q) (regReset (LANE_CFG q))
  match s.handleOf q with
  | some h =>
    match p.find sHANDLES h with
    | some r => ((t.put (LANE_CFG_HANDLE q) h).put (LANE_CFG_MAX_RATE q) (recBits r 0 24 2)).put (LANE_CFG_FEC_POL q) (recBits r 0 26 2)
    | none => t
  | none => t

/-- The lanes of handle `h`: its range, and the spare wired to it. -/
def State.handleLanes (s : State) (h : Nat) : List Nat :=
  (if s.flag (LANE_PTN_BIND_BOUND h) then (List.range (s.boundWidth h)).map fun i => s.rangeFirst h + i else []) ++
    (if s.flag (LANE_PTN_BIND_BOUND h) && s.flag (LANE_PTN_BIND_SPARE h) then [s.groupSpare h] else [])

/-- A handle is removed or bound otherwise: its partner is sent RET 0x0A, and so is the far end of every lane of it that is on its way up (R271, R281,
R309). -/
def retireHandle (h : Nat) (s : State) : State :=
  let t := if s.flag (LANE_PTN_STATUS_PRESENT h) then retireLink (s.get (LANE_PTN_STATUS_FIRST h)) 0x0A false s else s
  eachDo ((s.handleLanes h).filter fun q => t.retirable q) (enterRetire · 0x0A false) t

/-- A weft lane under the new plan: one that is not used is OFF, and one that has come into use is in DETECT; one that RET has been sent on goes there
from RETIRE (R271, R281). -/
def restLane (q : Nat) (s : State) : State :=
  if s.phase q = lOFF ∨ s.phase q = lDETECT then (if s.phase q = s.restPhase q then s else laneRests q s)
  else if s.phase q = lTRAIN ∧ !s.laneUsed q then laneDown q s else s

/-- The DEVICE record: chain position, declared asymmetries, the policies of the warp and chain lanes, and the wear thresholds. A warp or chain lane
whose policy changes, or every one where the chain position does, retrains (R299, R309). -/
def loadDevice (p : Plan) (s : State) : State :=
  match (p.recs sDEVICE).head? with
  | none => s
  | some r =>
    let pos := recBits r 0 0 3
    let moved := s.get TAL_STATUS_CHAIN_POS != pos
    let pol := fun (i : Nat) => (recBits r 0 (4 + 4 * i) 2, recBits r 0 (6 + 4 * i) 2)
    let change := fun (i : Nat) => moved || (s.get (LANE_CFG_MAX_RATE i), s.get (LANE_CFG_FEC_POL i)) != pol i
    let t := ((s.put TAL_STATUS_CHAIN_POS pos).setReg TAL_ASYM_A (r.getD 1 0)).setReg TAL_ASYM_B (r.getD 2 0)
    let t := { t with wear := ⟨recBits r 3 0 12, recBits r 3 12 8, recBits r 3 20 6, recBits r 4 0 16⟩ }
    let t := eachDo (List.range 4) (fun i u => (u.put (LANE_CFG_MAX_RATE i) (pol i).1).put (LANE_CFG_FEC_POL i) (pol i).2) t
    retrainLanes ((List.range 4).filter change) t

/-! ## The commit point (R289, R305) -/

/-- What the two reweaves have in common at the commit point: the plan in force is the new one, and PLAN_STATUS shows it. -/
def inForce (p : Plan) (s : State) : State :=
  let t := { s with plan := some p, load := { s.load with old := s.planNow } }
  let t := ((t.setReg PLAN_ID (BitVec.ofNat 32 p.id)).setReg PLAN_SEQ (BitVec.ofNat 32 p.seq)).raise PLAN_STATUS_IN_FORCE
  t.put PLAN_STATUS_STATE pAPPLYING

/-- What leaves with a plan: every spoke parks, every hop ends, every strand stops with its slots cleared, every ring is reset with its credits
withdrawn, and every calibration, splice and reed run ends (R309 steps 2 and 3). `c` is the cause that holds the spokes. -/
def dropAll (c : Nat → Fld) (s : State) : State :=
  let t := abortHops true (fun _ => true) (parkSpokes c allSpokes s)
  let t := eachDo (t.strands.map (·.1)) (fun k u => (if u.flag (STR_STATUS_RUN k) then stopStrand 0 k u else u).modStrand k fun x => { clearSlots x with awaitVisit := false }) t
  let t := eachDo t.rings freeRing t
  let t := { t with resv := [], spliceWait := [] }
  let t := eachDo (List.range 64) (spliceAbandon 0) (calEndWhere 0x25 (fun _ _ => true) t)
  cutReeds (fun _ => true) t

/-- Every field that the plan gives is loaded from `p`, and what was bound before and is not now is released (R298, R309 step 4). -/
def loadAll (p : Plan) (s : State) : State :=
  let t := eachDo (List.range 16) (loadRim p) s
  let t := eachDo (List.range 64) (fun b u => basketUse p b (loadBasket p b u)) t
  let t := eachDo (p.recs sRINGS) allocRing t
  let t := eachDo (List.range 64) (bindWale p) t
  let t := showOwners (eachDo (List.range 1024) (bindStrand p) t)
  let t := eachDo (t.byDepth (List.range 1024)) rebindReasons t
  let t := eachDo allSpokes (fun n u => routeCauses n (routeSpoke p n u)) t
  let t := eachDo (List.range 256) (assignReed p) t
  let hs := (List.range 96).filter fun h => s.load.old.find sHANDLES h != p.find sHANDLES h
  let t := eachDo hs retireHandle t
  let t := eachDo (List.range 96) (bindHandle p) t
  let t := eachDo ((List.range 104).map (· + 4)) (loadLane p) t
  let t := eachDo (List.range 104) (fun i u => restLane (4 + i) u) t
  let t := loadFaults p (loadDevice p t)
  { t with col := { t.col with esc := [] } }

/-- The commit point of a full reweave (R309 steps 1 to 4). -/
def commitFull (p : Plan) (s : State) : State :=
  let t := dropAll SPK_STATUS_C_REWEAVE (inForce p s)
  let t := { t with withdrawn := [] }
  let t := countDeg ((t.lower RING_CAP_BM).setReg (RING_DEG_MAP 0) 0 |>.setReg (RING_DEG_MAP 1) 0)
  loadAll p t

/-- A cause of basket `b` names a resource that the basket still owns (R376). -/
def State.stillOwns (s : State) (b src : Nat) : Bool :=
  let n := src % 4096
  let x := src / 4096
  if x = 2 then (s.rimBaskets n).contains b
  else if x = 3 then s.strandBasket n == some b && (s.strand n).bound
  else if x = 4 then s.strandBasket (16 * n) == some b
  else if x = 8 then s.laneBasket n == some b || (s.handleOf n).any fun h => s.handleBasket h == some b
  else true

/-- The causes of basket `b` whose resources it no longer owns clear, and the holds that name such a resource are released (R376). -/
def releaseCauses (b : Nat) (s : State) : State :=
  let gone := (s.causesOf b).filter fun c => !s.stillOwns b c.source
  let t := eachDo gone (fun c t => dropCause c.source c.kind b t) s
  let t := { t with col := { t.col with holds := t.col.holds.filter fun h => h.2.2.2 != b || t.stillOwns b h.2.1 } }
  eachDo (List.range 66) showHeld t

/-- Wale `w`'s binding is taken from the plan in force once none of its strands has still to move; a rim that no record binds any more goes OFF
with its last strand (R312). -/
def settleWale (w : Nat) (s : State) : State :=
  if s.moving.any fun k => waleOf k == w then s
  else
    let t := showOwners (bindWale s.planNow w s)
    let t := eachDo (t.byDepth (t.waleStrands w)) rebindReasons t
    let t := eachDo ((t.waleStrands w).filter t.strandDead) (fun k u => raiseFault (srcStrand k) .resFault (u.strandBasket k) (u.get (STR_STATUS_PHYS k)) u) t
    eachDo ((List.range 16).filter fun n => t.rimBound n && (t.planNow.find sRIMS n).isNone && t.rimWales n == []) rimOff t

/-- A rim named in a fragment takes its word: a LOCKED one as a retune (R69, R70, R312). -/
def fragRim (n : Nat) (r : List Word) (s : State) : State :=
  let t := loadRimCtrl n r s
  if s.rimBound n && s.rimWord n == rimWordOf r then t
  else if s.get (RIM_STATUS_STATE n) = rLOCKED then retuneTo n none (r.getD 1 0) (recBits r 2 0 4) t
  else (t.setReg (RIM_FREQ_LO n) (r.getD 1 0)).put (RIM_FREQ_HI_N n) (recBits r 2 0 4)

/-- What the commit point of a partial reweave from `old` to `new` includes of the spokes and the reeds (R311). -/
def spokeIncluded (old new : Plan) (n : Nat) : Bool :=
  let k := fun (r : List Word) => 256 * (n / 64) + recBits r 0 8 8
  old.find sSPOKES n != new.find sSPOKES n ||
    match old.find sSPOKES n with
    | some r => (old.timing (k r)).isSome && (new.timing (k r)).isNone
    | none => false

/-- The commit point of a partial reweave of basket `b` to `new`, whose fragment is `f` (R312). -/
def commitPartial (new f : Plan) (b : Nat) (s : State) : State :=
  let old := s.planNow
  let t := abortHops true (fun h => h.basket == b) (inForce new s)
  -- rings, quotas and authorisation
  let t := eachDo ((old.recs sRINGS).filter fun r => recBits r 0 20 6 == b) (fun r u => freeRing (recBits r 0 0 15) u) t
  let t := basketUse new b (loadBasket new b (t.setReserved b 0))
  let t := eachDo ((f.recs sRINGS)) allocRing t
  -- spokes
  let sp := allSpokes.filter (spokeIncluded old new)
  let t := parkSpokes SPK_STATUS_C_REWEAVE sp t
  -- strands and wales
  let ks := (List.range 1024).filter (strandMoves old new)
  let ws := (List.range 64).filter fun w => old.find sWALES w != new.find sWALES w || ks.any fun k => waleOf k == w
  let t := eachDo ws (spliceAbandon 0) t
  let hit := fun (u x : Nat) =>
    (decide (u < 64) && (if x = 16 then ws.contains u else ks.contains (16 * u + x))) ||
      (decide (64 ≤ u ∧ u < 68) && old.find sREEDS x != new.find sREEDS x) ||
      (decide (128 ≤ u) && (List.range 96).any fun h => old.find sHANDLES h != new.find sHANDLES h && s.laneBasket x == some b && s.inRange h x) ||
      (u == unitRim && (f.recs sRIMS).any fun r => s.get (RIM_STATUS_PHYS (recBits r 0 0 4)) == x)
  let t := calEndWhere 0x25 hit t
  let t := { t with moving := ks.filter fun k => s.flag (STR_STATUS_RUN k) }
  let t := eachDo (ks.filter fun k => !s.flag (STR_STATUS_RUN k)) (fun k u => bindStrand new k (u.modStrand k clearSlots)) t
  let t := eachDo ws settleWale t
  let t := eachDo sp (fun n u => routeCauses n (routeSpoke new n u)) t
  -- reeds, handles, rims and faults
  let rs := (List.range 256).filter fun n => old.find sREEDS n != new.find sREEDS n
  let t := eachDo rs (assignReed new) (cutReeds (fun n => rs.contains n) t)
  let hs := (List.range 96).filter fun h => old.find sHANDLES h != new.find sHANDLES h
  let t := eachDo hs retireHandle t
  let was := (List.range 104).filter fun i => hs.any fun h => t.inRange h (4 + i)
  let t := eachDo hs (bindHandle new) t
  let qs := (List.range 104).filter fun i => was.contains i || hs.any fun h => t.inRange h (4 + i)
  let t := eachDo qs (fun i u => loadLane new (4 + i) u) t
  let t := eachDo (List.range 104) (fun i u => restLane (4 + i) u) t
  let t := eachDo (f.recs sRIMS) (fun r u => fragRim (recBits r 0 0 4) r u) t
  let t := loadFaults new t
  let t := { t with col := { t.col with esc := t.col.esc.filter fun e => e.basket != some b } }
  faultN (releaseCauses b t)

/-- The commit point passes; where the reservations of the plan now in force are more than C, some are withdrawn at once (R251, R289, R305). -/
def commitPoint (s : State) : State :=
  withdrawShort (match s.load.frag with
    | none => commitFull s.load.result s
    | some f => commitPartial s.load.result f (s.get PLAN_STATUS_BASKET) s)

/-- A migration, splice or retune runs on a rim, wale or strand that the load includes (R305). -/
def State.commitWaits (s : State) : Bool :=
  (List.range 16).any fun n =>
    (s.loadIncludesRim n && (s.get (RIM_STATUS_STATE n) == rRETUNE || (s.rim n).mig.isSome)) ||
      ((s.rim n).mig.isSome && (s.rimWales n).any s.loadIncludesWale) ||
      (s.rimWales n).any fun w => (s.splice? w).isSome && s.loadIncludesWale w

/-! ## The end of an apply -/

/-- Every source that is ACTIVE is granted its new SHARE of the rings that `p` picks (R241, R309, R312). -/
def grantShares (p : Nat → Bool) (s : State) : State :=
  let fs := ([0xF0, 0xF1] ++ List.range 96).filter s.sourceActive
  eachDo fs (fun f t => eachDo ((t.placesOf f).filter fun e => p e.1) (grantAt f) t) s

/-- An apply ends: the load is over, with APPLIED (R302). -/
def endApply (s : State) : State :=
  let t := ((s.put PLAN_STATUS_STATE pIDLE).put PLAN_STATUS_RESULT 1).put PLAN_STATUS_CODE 0
  { (t.raise PLAN_EVENT_APPLIED) with load := {}, moving := [] }

/-- The condition causes whose condition holds now, each with its DETAIL (R363, R376). -/
def State.conditions (s : State) : List (Nat × FaultKind × Nat × Nat) :=
  (if s.hearth = hWAIT then s.boundBaskets.map fun b => (srcHearth, .hearthWait, b, if s.sel = 3 then 0 else 1) else []) ++
    ((List.range 16).filter fun n => s.get (RIM_STATUS_STATE n) == rUNLOCKED).flatMap (fun n =>
      (s.rimBaskets n).map fun b => (srcRim n, .rimUnlock, b, s.get (RIM_STATUS_PHYS n))) ++
    ((List.range 1024).filter fun k => (s.strand k).bound && s.flag (STR_STATUS_NR_RES k)).flatMap fun k =>
      (s.strandBasket k).toList.map fun b => (srcStrand k, .resFault, b, s.get (STR_STATUS_PHYS k))

/-- Every basket is recomputed when a full reweave reaches APPLIED: causes, holds, quiet periods, FAULTED states and recoveries end, and the
conditions that hold are raised again (R376). -/
def recomputeBaskets (s : State) : State :=
  let on := s.conditions
  let t := eachDo s.col.causes (fun c u =>
    if on.any fun x => x.1 == c.source && x.2.1 == c.kind && x.2.2.1 == c.basket then u
    else logInfo .cleared (some c.basket) (c.source * 65536 + c.kind.code) u) s
  let t := { t with col := { t.col with causes := [], quiet := [], recov := [], holds := [] } }
  let t := eachDo (List.range 66) (fun m u => u.put (FC_FORCE_STATUS_HELD m) 0) t
  let t := eachDo (List.range 64) (fun b u =>
    let u := (u.put (BSK_STATUS_STATE b) (if (u.planNow.find sBASKETS b).isSome then 1 else 0)).put (BSK_STATUS_RECOV b) 0
    setQuiet b false (countCauses b u)) t
  let t := eachDo allSpokes (fun n u => u.lower (SPK_STATUS_C_BASKET n)) t
  faultN (eachDo on (fun x u => raiseFault x.1 x.2.1 (some x.2.2.1) x.2.2.2 u) t)

/-- A rim no longer holds an apply up: LOCKED, past RETUNE_MAX and so UNLOCKED or on its way from there, or LOCKING before the hearth's first lock
(R309, R312, R394). -/
def State.rimSettled (s : State) (n : Nat) : Bool :=
  let st := s.get (RIM_STATUS_STATE n)
  st == rLOCKED || st == rUNLOCKED || st == rMIGRATING || (st == rLOCKING && !s.hrt.everLocked)

end Sys2Proof.Machine
end

