-- ==== Sys2Proof/Machine/HostOps.lean ====
section
/-! DEFINITION. What resets of the host's functions do (R168, R257, R304, R313, R328, R332, R343 to R347, R377), and held injections as they end. -/

namespace Sys2Proof.Machine

/-! ## Held injections (R377) -/

/-- Function `m` no longer holds cause `c`; the cause clears unless it is detected or held otherwise (R377). -/
def releaseCause (m : Nat) (c : Cause) (s : State) : State :=
  let h := c.heldBy.filter fun x => x != m
  let t := if h = [] ∧ !c.detected then dropCause c.source c.kind c.basket s
    else { s with col := { s.col with causes := s.col.causes.map fun x => if x = c then { c with heldBy := h } else x } }
  countCauses c.basket t

/-- A reset of function `m` releases every cause that it holds (R377). -/
def releaseHolds (m : Nat) (s : State) : State :=
  let t := eachDo (s.col.causes.filter fun c => c.heldBy.contains m) (releaseCause m) s
  { t with col := { t.col with holds := t.col.holds.filter fun h => h.1 != m } }.put (FC_FORCE_STATUS_HELD m) 0

/-! ## A function's own reset (R337, R341, R344, R346, R347, R350) -/

/-- The words of function `m`'s MSI-X table at their reset values: every vector masked (PRESUMED, log entry 44). -/
def resetMsixTable (m : Nat) (s : State) : State :=
  { s with regs := s.regs.filter fun c => c.1 < 0x20000000 + 0x2000 * m || 0x20000000 + 0x2000 * (m + 1) ≤ c.1 }

/-- Function `m`'s snapshot hold is released; copies still being taken complete without one (R344, R347). -/
def dropSnap (m : Nat) (s : State) : State :=
  let x : Snap := tabGet (fun _ => {}) s.snaps m
  let y : Snap := { copies := [], taking := x.taking.map fun j => { j with hold := false } }
  { s with snaps := tabSet (fun _ => {}) s.snaps m y }.lower (DEV_SNAP_STATUS_HOLD m)

/-- What a reset of function `m` does to what belongs to the function alone: its window, holding buffer, aperture bases, snapshot, MSI-X,
injections and power state. -/
def functionReset (m : Nat) (s : State) : State :=
  let t := dropSnap m (dropBuf m s)
  let t := eachDo [DEV_IND_ADDR m, DEV_VF_QAP_BASE m, DEV_VF_PAP_BASE m] (fun a u => u.setReg a 0) t
  let t := releaseHolds m (resetMsixTable m t)
  let h := t.host
  { t with
    held := t.held.filter fun e => e.1 != m
    host := { h with msix := h.msix.filter (· != m), bme := h.bme.filter (· != m), d3 := h.d3.filter (· != m) } }

/-! ## Rings (R168, R236, R257) -/

/-- Ring `r` is reset: both indices are 0 (R236). -/
def resetRing (r : Nat) (s : State) : State :=
  let t := (s.setReg (RING_PROD r) 0).setReg (RING_CONS r) 0
  { t with dbFrom := tabSet (fun _ => 0) t.dbFrom r 0 }

/-- The rings of basket `b`. -/
def State.basketRings (s : State) (b : Nat) : List Nat := s.rings.filter fun r => s.get (RING_DESC1_BASKET r) == b

/-- An FLR as it acts on basket `b`: its hops complete ABORTED from any source, its rings are reset, the credits of flushed lane entries are owed
again, its reed runs end with CUT, and its calibrations ABANDONED (R168, R193, R223, R257). -/
def flrBasket (b : Nat) (s : State) : State :=
  let t := abortHops true (fun h => h.basket == b || (match h.src with | .host r => s.get (RING_DESC1_BASKET r) == b | .lane _ => false)) s
  let t := eachDo (t.basketRings b) resetRing (t.setReserved b 0)
  let t := cutReeds (fun n => t.reedBasket n == some b) t
  calEndWhere 0x25 (fun u x => t.calBasket u x == some b) t

/-- An FLR of VF `k`, or its disappearance: while a partial reweave of its basket applies, what acts on the rings waits for its end (R313, R344). -/
def vfReset (k : Nat) (s : State) : State :=
  let t := functionReset k s
  if t.applyHolds (k - 1) then { t with host := { t.host with flrLater := (k - 1) :: t.host.flrLater.filter (· != k - 1) } }
  else flrBasket (k - 1) t

/-! ## The keeper credential (R328, R332, R459) -/

/-- The credential takes state `st`. Where the PF is keeper no longer, the basket block is enabled, so that a keeper can attach again (R459). -/
def keeperState (st : Nat) (s : State) : State :=
  let t := (s.put BSK_KEEPER_STATUS_STATE st).put BSK_KEEPER_STATUS_ORPHAN_S 0
  if s.isKeeper 0 ∧ (st = 0 ∨ st = 2) then t.raise ⟨DEV_BLK_EN, 11, 1⟩ else t

/-- ORPHANED is entered, or DETACHED where no plan is in force; a response under verification is discarded (R328, R332, R344). -/
def keeperLost (s : State) : State :=
  if s.plan.isSome then
    if s.get BSK_KEEPER_STATUS_STATE = 2 then s
    else
      let t := ((keeperState 2 s).raise BSK_EVENT_ORPHANED).raise DEV_SB_EVENT_ORPHAN
      { t with keeper := { t.keeper with orphanAt := t.elapsed, back := 0 } }
  else { keeperState 0 s with keeper := { s.keeper with back := 0 } }

/-! ## A reset of the PF and every VF (R257, R304, R344) -/

/-- PERST_N, a hot reset, DL_Down or an FLR of the PF as it acts on the functions, the rings, the load and the credential
(DEDUCED, log entry 46). -/
def pfReset (s : State) : State :=
  let fns := (List.range 65).filter s.fnExists
  let t := eachDo fns functionReset s
  let t := { t with host := { t.host with vfs := 0, flr := [] } }
  let t := eachDo (List.range 64) (fun b u => (u.lower (BSK_STATUS_VF_EN b)).lower (BSK_STATUS_FLR b)) t
  let t := abortHops true (fun h => match h.src with | .host _ => true | .lane _ => false) t
  let t := eachDo (t.rings.filter fun r => t.get (RING_DESC1_KIND r) != 2) resetRing t
  keeperLost (abortLoad 0x81 { t with cplHeld := true })

end Sys2Proof.Machine
end

