-- ==== Sys2Proof/Machine/Plan.lean ====
section
/-! DEFINITION. The load protocol of the weave plan (R300 to R313), and the ends of NVM writes (R231, R307). -/

namespace Sys2Proof.Machine

/-! ## Commands of the load (R302 to R308) -/

/-- A PLAN_CMD that the present state does not take is ignored, with CMD_REJ (R303). -/
def planRej (s : State) : State := s.raise PLAN_EVENT_CMD_REJ

/-- PLAN_CMD by master `m`. -/
def planCmd (m : Nat) (f : State → State) (s : State) : State := gateWrite m PLAN_CMD true f s

/-- The staging area, the first 2 MiB of the calibration workspace (R302). -/
def stagingAt (k : Nat) : Nat := 0x04000000 + 4 * k

/-- OPEN: the staging area is zeroed, and STAGING is entered; it is ignored after a class G fault and from SHUTDOWN on (R302, R365, R403). -/
def planOpen (s : State) : State :=
  if s.loadState = pIDLE ∧ !s.flag FC_STATUS_G_ACTIVE ∧ s.get PWR_STATUS_STAGE = 3 then
    { (clearBytes 0x04000000 0x200000 ((s.put PLAN_STATUS_STATE pSTAGING).put PLAN_LEN_WORDS 0)) with load := {} }
  else planRej s

/-- OPEN by master `m` (R302). -/
def execPlanOpen (m : Nat) (s : State) : Out := done s (planCmd m planOpen s)

/-- VERIFY: the Lid takes the staged words, whose header tells whether they are a fragment, and of which basket (R300, R302). -/
def planVerify (s : State) : State :=
  if s.loadState = pSTAGING then
    let ws := (List.range (s.get PLAN_LEN_WORDS)).map fun k => s.memWord (stagingAt k)
    let h := headerOf ws
    let t := (s.put PLAN_STATUS_STATE pVERIFYING).putFlag PLAN_STATUS_PARTIAL h.partial_
    { t.put PLAN_STATUS_BASKET (if h.partial_ then h.basket else 0) with load := { words := ws, beyond := s.load.beyond } }
  else planRej s

/-- VERIFY by master `m` (R300). -/
def execPlanVerify (m : Nat) (s : State) : Out := done s (planCmd m planVerify s)

/-- The commit point passes now, or once what the load waits for has ended (R305). -/
def commitNow (s : State) : State := if s.commitWaits then s.put PLAN_STATUS_STATE pCOMMIT_WAIT else commitPoint s

/-- PLAN_COMMIT by master `m` (R305). -/
def execPlanCommit (m : Nat) (s : State) : Out :=
  settled s (planCmd m (fun s => if s.loadState = pVERIFIED then commitNow s else planRej s) s)

/-- ABORT by master `m`: taken in STAGING, VERIFIED and COMMIT_WAIT (R302, R304). -/
def execPlanAbort (m : Nat) (s : State) : Out :=
  settled s (planCmd m (fun s =>
    if s.loadState = pSTAGING ∨ s.loadState = pVERIFIED ∨ s.loadState = pCOMMIT_WAIT then abortLoad 0x80 s else planRej s) s)

/-- STORE_BOOT: a verified full plan of at most 16,384 words is to be written to the boot slot, behind a write that runs (R303, R307, R313). -/
def storeBoot (s : State) : State :=
  if s.loadState = pVERIFIED ∧ s.load.frag.isNone ∧ s.load.words.length ≤ 16384 then
    let t := (s.put PLAN_STATUS_STATE pSTORING).lower PLAN_STATUS_STORED
    nvmNext { t with nvmQueue := t.nvmQueue ++ [5] }
  else planRej s

/-- STORE_BOOT by master `m` (R307). -/
def execStoreBoot (m : Nat) (s : State) : Out := done s (planCmd m storeBoot s)

/-- SET_MIN_SEQ by master `m`: PLAN_MIN_SEQ is raised to the PLAN_SEQ in force, and never falls (R308). -/
def execSetMinSeq (m : Nat) (s : State) : Out :=
  done s (planCmd m (fun s =>
    match s.plan with
    | some p => s.put PLAN_MIN_SEQ_MIN (max (s.get PLAN_MIN_SEQ_MIN) p.seq)
    | none => planRej s) s)

/-- A staging write of word `k`: stored in STAGING from the keeper, and otherwise dropped with WR_REJ; one that goes beyond the area shows at VERIFY
(R302, R313). -/
def stagingWrite (m k : Nat) (v : Word) (s : State) : State :=
  if s.isKeeper m ∧ s.loadState = pSTAGING then
    if k < 524288 then
      let t := s.setMemWord (stagingAt k) v
      t.put PLAN_LEN_WORDS (max (t.get PLAN_LEN_WORDS) (k + 1))
    else { s.raise PLAN_EVENT_WR_REJ with load := { s.load with beyond := true } }
  else s.raise PLAN_EVENT_WR_REJ

/-- PLAN_STAGING_WRITE: master `m` writes word `k` of the staging area through its window. A VF does not reach the area, and a gated block takes
no write (R302, R351). -/
def execPlanStagingWrite (m k : Nat) (v : Word) (s : State) : Out :=
  if s.hostOk m ∧ s.enabled 10 ∧ (m = 0 ∨ m = 65) then done s (stagingWrite m k v s) else .next s

/-- STAGE_TIMEOUT: STAGE_TMO passes without a staging write or a command; it does not run for a boot plan (R304, R306). -/
def execStageTimeout (s : State) : Out :=
  if (s.loadState = pSTAGING ∨ s.loadState = pVERIFIED) ∧ !s.load.boot then settled s (abortLoad 0x82 s) else .next s

/-! ## The end of VERIFY (R300, R301, R306) -/

/-- A boot plan could not be applied: BOOT_FAIL, and one class W fault with its check code (R306, R363). -/
def bootFail (code : Nat) (s : State) : State :=
  raiseFault srcPlan .bootPlan none code ((s.put PLAN_BOOT_STATUS_CODE code).raise PLAN_EVENT_BOOT_FAIL)

/-- The plan is refused with a check code and the place of the failure; a place that no record gives is a free value (R300, R301;
DESIGN CHOICE, log entry 79). -/
def planRefused (e : Bad) (s : State) : State :=
  let boot := s.load.boot
  let t := ((s.put PLAN_STATUS_STATE pIDLE).put PLAN_STATUS_RESULT 2).put PLAN_STATUS_CODE e.1
  let t := { (t.put PLAN_DETAIL_SECTION e.2.1).raise PLAN_EVENT_REFUSED with load := {} }
  let t := match e.2.2 with
    | some i => t.put PLAN_DETAIL_INDEX i
    | none => let (i, u) := t.fresh; u.put PLAN_DETAIL_INDEX (Config.freeNat i)
  if boot then bootFail e.1 t else t

/-- The plan has passed; a boot plan that is to be applied at start-up passes its commit point at once (R306). -/
def planVerified (p : Plan) (frag : Option Plan) (s : State) : State :=
  let h := headerOf s.load.words
  let t := (s.put PLAN_STATUS_STATE pVERIFIED).raise PLAN_EVENT_VERIFIED
  let t := { t with load := { t.load with result := p, frag := frag, fragSeq := h.fragSeq } }
  if t.load.boot then
    let t := t.raise PLAN_BOOT_STATUS_LOADED
    if t.get PLAN_BOOT_STATUS_SRC = 1 then commitNow t else t
  else t

/-- PLAN_VERIFY_DONE: validation and admission end (R295, R296, R300). -/
def execPlanVerifyDone (s : State) : Out :=
  if s.loadState = pVERIFYING then
    match verifyPlan s s.load.words with
    | .error e => settled s (planRefused e s)
    | .ok r => settled s (planVerified r.1 r.2 s)
  else .next s

/-- COMMIT_WAIT_END: what the load waited for has ended, and the commit point passes (R305). -/
def execCommitWaitEnd (s : State) : Out :=
  if s.loadState = pCOMMIT_WAIT ∧ !s.commitWaits then settled s (commitPoint s) else .next s

/-! ## The end of an apply (R309, R312, R376) -/

/-- FULL_REWEAVE_APPLIED: every bound rim is LOCKED, past RETUNE_MAX or waiting for the hearth (R309 step 5). -/
def execFullReweaveApplied (s : State) : Out :=
  if s.loadState = pAPPLYING ∧ s.load.frag.isNone ∧ (List.range 16).all (fun n => !s.rimBound n || s.rimSettled n) then
    let t := recomputeBaskets (eachDo allSpokes routeCauses s)
    let t := grantShares (fun _ => true) (eachDo (List.range 64) (fun b u => u.setReg (PLAN_FRAG_SEQ b) 0) t)
    settled s (endApply (unparkSpokes SPK_STATUS_C_REWEAVE allSpokes t))
  else .next s

/-- An FLR of the basket's VF that waited for the apply acts on its rings (R313). -/
def flrDeferred (s : State) : State :=
  eachDo s.host.flrLater flrBasket { s with host := { s.host with flrLater := [] } }

/-- PARTIAL_REWEAVE_APPLIED: every included strand has moved or stopped, and every rim named in the fragment no longer holds the apply up
(R312). -/
def execPartialReweaveApplied (s : State) : Out :=
  match s.load.frag with
  | some f =>
    if s.loadState = pAPPLYING ∧ s.moving = [] ∧ (f.recs sRIMS).all (fun r => s.rimSettled (recBits r 0 0 4)) then
      let b := s.get PLAN_STATUS_BASKET
      let sp := allSpokes.filter fun n => s.flag (SPK_STATUS_C_REWEAVE n)
      let t := unparkSpokes SPK_STATUS_C_REWEAVE sp (eachDo sp routeCauses s)
      let t := grantShares (fun r => t.get (RING_DESC1_BASKET r) == b) t
      settled s (flrDeferred (endApply (t.put (PLAN_FRAG_SEQ_SEQ b) s.load.fragSeq)))
    else .next s
  | none => .next s

/-! ## The moves of a partial reweave (R167, R312) -/

/-- Running strand `k` at its first edge on the new base: one bridge period after its last edge, `delta` further as measured, which makes its count
begin at a phase-0 edge of the new rim, or at edge `k0` of its new parent; it ramps on to its setting's period, the first step 2^RAMP_J periods
later (R166, R167; DESIGN CHOICE, log entry 67). -/
def moveBase (k : Nat) (delta k0 : Int) (s : State) : Option State :=
  let x := s.strand k
  let new := s.planNow
  let pb := (s.bridgeOf s.load.old new (s.load.frag.getD {}) k).getD x.p
  let th := highTime pb x.n x.d
  let tgt := match x.ramp with | some r => r.p | none => x.p
  let b := (new.waleBasket (waleOf k)).getD 0
  let rk := s.get (BSK_TIMERS1_RAMP_K b)
  let rj := s.get (BSK_TIMERS1_RAMP_J b)
  let parent := (new.timing k).bind (·.2)
  let z0 := match parent with | some q => (edgeAt (s.strand q).ys k0.toNat).getD 0 | none => 0
  let y := { x with p := pb, t := th.1, h := th.2, parent := parent, k0 := k0, z0 := z0, ramp := rampLeft pb ⟨tgt, x.n, rk, rj, 0⟩ }
  let y := clearSlots { y with e := x.e + th.1 + delta }
  let around := { s.around k with par := parent.map fun q => ((s.strand q).ys, (0 : Int)) }
  (emitEdge around false y).map fun z => (reedsHop k s).setStrand k z

/-- STRAND_BASE_MOVE: after `n` further edges the commit boundary of strand `k` has come, at which a released strand stops, and one that stays moves
to its new time base (R167, R312). -/
def execStrandBaseMove (k n : Nat) (delta k0 : Int) (s : State) : Out :=
  if s.moving.contains k then
    let t := runEdges k n s
    let u := if (t.planNow.strand? k).isNone || !baseChanges t.load.old t.planNow k then some (stopStrand 4 k t) else moveBase k delta k0 t
    match u with
    | some u =>
      let u := bindStrand u.planNow k { u with moving := u.moving.filter fun j => j != k }
      settled s (settleWale (waleOf k) u)
    | none => .next s
  else .next s

/-! ## NVM writes (R231, R307, R401) -/

/-- A boot slot has been written: STORED, and the load is VERIFIED again, or ends for what reached it meanwhile (R302, R304, R307). -/
def bootStored (s : State) : State :=
  let t := ((s.raise PLAN_STATUS_STORED).raise PLAN_EVENT_STORE_DONE).put PLAN_STATUS_STATE pVERIFIED
  match s.load.late with
  | some why => abortLoad why t
  | none => t

/-- NVM_WRITE_COMPLETE: the write in progress programs COMMIT, and its slot is valid (R231, R307, R391, R417). -/
def execNvmWriteComplete (s : State) : Out :=
  match s.nvmRun with
  | some j =>
    let t := nvmCommit j s
    settled s (if j.group = 5 ∧ t.loadState = pSTORING then bootStored t else t)
  | none => .next s

end Sys2Proof.Machine
end

