-- ==== Sys2Proof/Machine/Baskets.lean ====
section
/-! DEFINITION. The keeper's commands on baskets, and the keeper credential (R327 to R332, R368, R370). -/

namespace Sys2Proof.Machine

/-! ## BSK_CMD (R327, R368, R370) -/

/-- A command that is ignored sets CMD_REJ. -/
def bskRej (s : State) : State := s.raise BSK_EVENT_CMD_REJ

/-- FAULTED basket `b` goes to QUIET, where it waits for its causes and its quiet period; after a class G fault basket states stop changing
(R368, R369, R382). -/
def clearFaulted (b : Nat) (s : State) : State :=
  if s.get (BSK_STATUS_STATE b) = 3 ∧ !s.flag FC_STATUS_G_ACTIVE then
    let t := logInfo .keeperClear (some b) 0 (s.put (BSK_STATUS_STATE b) 2)
    faultN (startQuiet b (t.raise (FC_BSK_EVT_KEEPER_CLEAR b)))
  else bskRej s

/-- CLEAR_FAULTED by master `m` for basket `b` (R368). -/
def execClearFaulted (m b : Nat) (s : State) : Out := if b < 64 then settled s (gateWrite m BSK_CMD true (clearFaulted b) s) else .next s

/-- Every recovery recorded of basket `b` is removed (R370). -/
def clearRecov (b : Nat) (s : State) : State :=
  { s with col := { s.col with recov := s.col.recov.filter fun r => r.1 != b } }.put (BSK_STATUS_RECOV b) 0

/-- CLEAR_RECOV by master `m` for basket `b` (R370). -/
def execClearRecov (m b : Nat) (s : State) : Out := if b < 64 then done s (gateWrite m BSK_CMD true (clearRecov b) s) else .next s

/-- Every violation counter is cleared (R327). -/
def clearViol (s : State) : State := eachDo (List.range 66) (fun k t => t.setReg (BSK_VIOL k) 0) s

/-- CLEAR_VIOL by master `m` (R327). -/
def execClearViol (m : Nat) (s : State) : Out := done s (gateWrite m BSK_CMD true clearViol s)

/-! ## BSK_KEEPER_CMD (R328, R329) -/

/-- BSK_KEEPER_CMD by master `m`: the PF alone reaches it (R333). -/
def keeperCmd (m : Nat) (f : State → State) (s : State) : State := gateWrite m BSK_KEEPER_CMD false f s

/-- No nonce is held any more: its registers read zero. -/
def dropNonce (s : State) : State :=
  eachDo (List.range 12) (fun i t => t.setReg (BSK_KEEPER_NONCE i) 0) (s.lower BSK_KEEPER_STATUS_NONCE_VALID)

/-- CHALLENGE: a fresh nonce takes the place of any unspent one; the Lid's random words are free values (R329). -/
def challenge (s : State) : State :=
  if s.keeper.refuse then bskRej s
  else
    let (i, t) := s.fresh
    let ws := Config.freeWords i
    eachDo (List.range 12) (fun j u => u.setReg (BSK_KEEPER_NONCE j) (ws.getD j 0)) (t.raise BSK_KEEPER_STATUS_NONCE_VALID)

/-- CHALLENGE by master `m` (R329). -/
def execChallenge (m : Nat) (s : State) : Out := done s (keeperCmd m challenge s)

/-- RESPOND under key `key`: the nonce is spent, and the Lid verifies the response as it stands (R328, R329; DEDUCED, log entry 116). -/
def respond (key : Nat) (s : State) : State :=
  let st := s.get BSK_KEEPER_STATUS_STATE
  if s.flag BSK_KEEPER_STATUS_NONCE_VALID ∧ st ≠ 3 then
    let t := (dropNonce s).put BSK_KEEPER_STATUS_STATE 3
    { t with keeper := { t.keeper with
      back := st, key := key, nonce := (List.range 12).map fun i => s.reg (BSK_KEEPER_NONCE i),
      resp := (List.range 24).map fun i => s.opnd (BSK_KEEPER_RESP i) } }
  else bskRej s

/-- RESPOND by master `m`, naming key `key` (R329). -/
def execRespond (m key : Nat) (s : State) : Out := if key < 4 then done s (keeperCmd m (respond key) s) else .next s

/-- DETACH: from the keeper, ATTACHED, with no load in progress (R328, R332; DEDUCED, log entry 47). -/
def keeperDetach (s : State) : State :=
  if s.get BSK_KEEPER_STATUS_STATE = 1 ∧ s.loadState = pIDLE then keeperState 0 s else bskRej s

/-- DETACH by master `m` (R328). -/
def execKeeperDetach (m : Nat) (s : State) : Out := done s (keeperCmd m keeperDetach s)

/-- The response under verification is good: its key is one that the life-cycle state accepts, and its signature over the nonce and SERIAL verifies (R329,
R330). -/
def State.responseOk (s : State) : Bool :=
  s.keyOk s.keeper.key && s.verifies s.keeper.key (wordBytes s.keeper.nonce ++ s.serialBytes) s.keeper.resp

/-- KEEPER_VERIFY_DONE: verification ends (R328 to R330). The completion rings that a PF reset has reset are written again (R257). ORPHAN_S
goes on when a response from ORPHANED fails (DEDUCED, log entry 117). -/
def execKeeperVerifyDone (s : State) : Out :=
  if s.get BSK_KEEPER_STATUS_STATE = 3 then
    if s.responseOk then
      let t := ((keeperState 1 s).put BSK_KEEPER_STATUS_KEY_ID s.keeper.key).raise BSK_EVENT_ATTACHED
      done s { t with cplHeld := false }
    else
      let t := (s.put BSK_KEEPER_STATUS_STATE s.keeper.back).incSat BSK_KEEPER_STATUS_FAILS
      done s { t.raise BSK_EVENT_ATTACH_FAIL with keeper := { t.keeper with refuse := true } }
  else .next s

/-- KEEPER_NONCE_EXPIRE: an unspent nonce is 10 s old (R329). -/
def execKeeperNonceExpire (s : State) : Out := done s (dropNonce s)

/-- CHALLENGE_REFUSAL_END: 1 s has passed since a failed verification (R329). -/
def execChallengeRefusalEnd (s : State) : Out := done s { s with keeper := { s.keeper with refuse := false } }

end Sys2Proof.Machine
end

