-- ==== Sys2Proof/Machine/Faults.lean ====
section
/-! DEFINITION. Messages to the fault collector, injection, the quiet period, recoveries and the log's tail (R361 to R379). -/

namespace Sys2Proof.Machine

/-! ## Sources and scopes (R362 to R364) -/

/-- The instance `n` of block `x` exists (R362). -/
def instanceOk (x n : Nat) : Bool :=
  if x = 0 then decide (n ≤ 2) else if x = 1 ∨ x = 0xA ∨ x = 0xD ∨ x = 0xF then n == 0
  else if x = 2 then decide (n < 16) else if x = 3 then decide (n < 1024) else if x = 4 ∨ x = 7 then decide (n < 64)
  else if x = 8 then decide (n < 108) else if x = 9 then decide (n ≤ 2) else if x = 0xB then decide (n < 256)
  else if x = 0xC then decide (n ≤ 1) else if x = 0xE then decide (n < 70) || decide (128 ≤ n ∧ n < 236) else false

/-- The ring that holds entry `j` of the queue store. -/
def State.ringOf (s : State) (j : Nat) : Option Nat :=
  s.rings.find? fun r => decide (s.get (RING_DESC0_BASE r) ≤ j ∧ j < s.get (RING_DESC0_BASE r) + s.ringDepth r)

/-- The basket that owns the location `a` of a store: a record of its profile range, an entry of its rings, a region of its reeds, or a calibration
record of its strands, spares, reeds and weft lanes (R363). -/
def State.storeBasket (s : State) (a : Nat) : Option Nat :=
  if 0x14000000 ≤ a then (s.ringOf ((a - 0x14000000) / 16)).map fun r => s.get (RING_DESC1_BASKET r)
  else if 0x10000000 ≤ a then
    let i := (a - 0x10000000) / 32
    (List.range 64).find? fun b => decide (s.get (BSK_PROF_BASE_BASE b) ≤ i ∧ i < s.get (BSK_PROF_BASE_BASE b) + s.get (BSK_PROF_QUOTA_QUOTA b))
  else if 0x08000000 ≤ a then s.reedBasket ((a - 0x08000000) / 0xC000)
  else if 0x04200000 ≤ a ∧ a < 0x04219800 then s.strandBasket (16 * ((a - 0x04200000) / 96 / 17))
  else if 0x0423A000 ≤ a ∧ a < 0x04242000 then s.reedBasket ((a - 0x0423A000) / 128)
  else if 0x04248000 ≤ a ∧ a < 0x04249B00 then
    let p := (a - 0x04248000) / 64
    if p < 4 then none else s.laneBasket p
  else none

/-- Source `src` emits messages of kind `k` (R364). -/
def emits (src : Nat) (k : FaultKind) : Bool :=
  let x := src / 4096
  let n := src % 4096
  instanceOk x n &&
    match k with
    | .mark | .cleared | .recovered | .lockedOut | .keeperClear | .logResume => x == 0xF
    | .devEscalated => (x == 8 && decide (n < 2)) || x == 0xB
    | .supply => x == 0 && n == 0
    | .thermal | .thermalWarn => x == 0 && n == 1
    | .paceL3 => x == 0 && n == 2
    | .srcTrip | .srcSwitch | .holdover | .hearthWait | .hearthLost => x == 1
    | .rimUnlock | .rimWear => x == 2
    | .resVisit | .resFault | .dtcWear => x == 3
    | .spareGone => x == 4
    | .resWithdrawn | .resRestored => x == 7
    | .replay | .exhaust | .fecUncorr | .bondNarrow | .creditViol | .eyeWear => x == 8
    | .talWire => x == 9 && n != 0
    | .talHoldover | .talMismatch | .talSwitch => x == 9 && n == 0
    | .bootPlan => x == 0xA
    | .eccCorr | .eccUncorr => x == 0xB
    | .fuse => x == 0xC && n == 0
    | .nvm | .nvmSlot => x == 0xC && n == 1
    | .tamper => x == 0xD
    | .calReject | .calExpired => x == 0xE

/-- A kind's scope: always a basket's, the device's, or either (R363). -/
inductive Scope where
  | basket
  | device
  | either
deriving DecidableEq, Repr

def FaultKind.scope : FaultKind → Scope
  | .cleared | .recovered | .lockedOut | .keeperClear | .hearthWait | .rimUnlock | .resVisit | .resFault | .spareGone | .dtcWear | .bondNarrow
  | .creditViol | .resWithdrawn | .resRestored => .basket
  | .replay | .exhaust | .fecUncorr | .eyeWear | .eccCorr | .eccUncorr | .calReject | .calExpired => .either
  | .mark | .logResume | .devEscalated | .supply | .thermal | .thermalWarn | .paceL3 | .fuse | .nvm | .tamper | .nvmSlot | .bootPlan | .srcTrip
  | .srcSwitch | .holdover | .hearthLost | .rimWear | .talWire | .talHoldover | .talMismatch | .talSwitch => .device

/-- Basket `b` owns a location of SRAM macro `n`: profile records of its range, entries of its rings, regions of its reeds, or, in the calibration
workspace, a record of its strands, reeds and lanes (R225, R363, R410, R450). -/
def State.macroOf? (s : State) (n b : Nat) : Bool :=
  let meets := fun (a len lo hi : Nat) => decide (a < hi) && decide (lo < a + len)
  if n < 128 then meets (s.get (BSK_PROF_BASE_BASE b)) (s.get (BSK_PROF_QUOTA_QUOTA b)) (8192 * n) (8192 * (n + 1))
  else if n < 192 then (s.basketRings b).any fun r => meets (s.get (RING_DESC0_BASE r)) (s.ringDepth r) (16384 * (n - 128)) (16384 * (n - 127))
  else if n < 240 then (List.range 256).any fun r => s.reedBasket r == some b && meets (0xC000 * r) 0xC000 (262144 * (n - 192)) (262144 * (n - 191))
  else
    let at_ := fun (a len : Nat) => meets a len (262144 * (n - 240)) (262144 * (n - 239))
    (List.range 64).any (fun w => s.strandBasket (16 * w) == some b && at_ (0x200000 + 1632 * w) 1632) ||
      (List.range 256).any (fun r => s.reedBasket r == some b && at_ (0x23A000 + 128 * r) 128) ||
      (List.range 108).any fun p => decide (4 ≤ p) && s.laneBasket p == some b && at_ (0x248000 + 64 * p) 64

/-- The baskets that own a source, or a part of it, in the plan in force (R363, R378). -/
def State.srcBaskets (s : State) (src : Nat) : List Nat :=
  let x := src / 4096
  let n := src % 4096
  if x = 1 then s.boundBaskets
  else if x = 2 then s.rimBaskets n
  else if x = 3 then (s.strandBasket n).toList
  else if x = 4 then (s.strandBasket (16 * n)).toList
  else if x = 7 then (if s.get (BSK_STATUS_STATE n) = 0 then [] else [n])
  else if x = 8 then (if n < 4 then [] else (s.laneBasket n).toList)
  else if x = 0xB then (List.range 64).filter (s.macroOf? n)
  else if x = 0xE then
    (if n < 64 then (s.strandBasket (16 * n)).toList
     else if n < 68 then (List.range 64).filter fun b => (List.range 64).any fun j => s.reedBasket (64 * (n - 64) + j) == some b
     else if 132 ≤ n then (s.laneBasket (n - 128)).toList else [])
  else []

/-- The basket that a message of this source and kind carries when `b` is named: none for the device's scope; it is an error where the instance does
not exist, and where the scope is a basket's and `b` does not own the source. Of the two scopes of a kind a weft lane always has the first (R363, R378). -/
def State.msgBasket (s : State) (src : Nat) (k : FaultKind) (b : Nat) : Option (Option Nat) :=
  let own := s.srcBaskets src
  let weft := src / 4096 == 8 && decide (4 ≤ src % 4096)
  if sourceBeyond s.small src then none
  else match k.scope with
    | .device => some none
    | .basket => if own.contains b then some (some b) else none
    | .either => if own = [] ∧ !weft then some none else if own.contains b then some (some b) else none

/-- The basket of a message that a block reports: an ECC error's is that of the basket that owns the word, if one does (R363). -/
def State.foundBasket (s : State) (src : Nat) (k : FaultKind) (b detail : Nat) : Option (Option Nat) :=
  if k = .eccCorr ∨ k = .eccUncorr then (if sourceBeyond s.small src then none else some (s.storeBasket detail)) else s.msgBasket src k b

/-- FAULT_MESSAGE: a block reports kind number `kind` from source `src`, for basket `b` where the scope is a basket's (R361 to R367). A message that
R364 does not know is none. -/
def execFaultMessage (src kind b detail : Nat) (s : State) : Out :=
  match kindOf kind with
  | none => .next s
  | some k =>
    if emits src k && src / 4096 != 0xF then
      match s.foundBasket src k b detail with
      | some x =>
        -- a word found beyond correction stays so until it is written again
        let t := if k = .eccUncorr then { s with eccBad := (detail - detail % 4) :: s.eccBad.filter fun a => a != detail - detail % 4 } else s
        settled s (raiseFault src k x detail t)
      | none => .next s
    else .next s

/-! ## The quiet period and recoveries (R368 to R370) -/

/-- Basket `b` recovers: NORMAL, with C_BASKET clear and the recovery recorded (R368, R370). -/
def recover (b : Nat) (s : State) : State :=
  let t := setQuiet b false (s.put (BSK_STATUS_STATE b) 1)
  let t := { t with col := { t.col with recov := (b, t.elapsed) :: t.col.recov } }
  let n := min 16 (t.col.recov.countP fun r => r.1 == b)
  let t := (t.put (BSK_STATUS_RECOV b) n).incSat (FC_BSK_CNT_RECOV_ALL b)
  let t := logInfo .recovered (some b) n ((t.raise FC_EVENT_RECOVERED).raise (FC_BSK_EVT_RECOVERED b))
  faultN (unparkSpokes SPK_STATUS_C_BASKET (t.basketSpokes b) t)

/-- QUIET_PERIOD_END of basket `b` (R368, R369). -/
def execQuietPeriodEnd (b : Nat) (s : State) : Out :=
  if s.col.quiet.contains b ∧ !s.flag FC_STATUS_G_ACTIVE then settled s (recover b s) else .next s

/-- A list without its last element that `p` picks. -/
def dropLastOf {α : Type} (p : α → Bool) : List α → List α
  | [] => []
  | a :: r => if p a && !r.any p then r else a :: dropLastOf p r

/-- RECOVERY_AGE_OUT: the oldest recovery of basket `b` is 3,600 s old (R370). -/
def execRecoveryAgeOut (b : Nat) (s : State) : Out :=
  let t := { s with col := { s.col with recov := dropLastOf (fun r => r.1 == b) s.col.recov } }
  done s (t.put (BSK_STATUS_RECOV b) (min 16 (t.col.recov.countP fun r => r.1 == b)))

/-! ## Injection (R377, R378) -/

/-- The source, kind and basket that function `m` has written into FC_FORCE0. -/
def State.forced (s : State) (m : Nat) : Nat × Nat × Nat :=
  let v := tabGet (fun _ => (0 : Word)) s.opnds (FC_FORCE0 (copyOf m))
  (bitsAt v 0 16, bitsAt v 16 8, bitsAt v 24 6)

/-- An injection by master `m` is rejected with reason `r` (R378). -/
def forceRej (m r : Nat) (s : State) : State := (s.raise (FC_FORCE_STATUS_REJ (copyOf m))).put (FC_FORCE_STATUS_REASON (copyOf m)) r

/-- Why R378 refuses an injection of kind `k` from source `src` by master `m`, where the message would carry basket `b`. -/
def State.forceReason (s : State) (m src : Nat) (k : FaultKind) (b : Option Nat) : Option Nat :=
  match k.cls b.isSome, b with
  | .i, _ => some 2
  | .g, _ => if !s.isKeeper m then some 3 else if s.lcState = 1 ∨ s.lcState = 4 then none else some 4
  | _, some x => if s.isKeeper m || (m == x + 1 && src / 4096 != 1 && s.srcBaskets src == [x]) then none else some 3
  | _, none => if s.isKeeper m then none else some 3

/-- What an injection of a message that R378 accepts is applied to: the kind and the basket; or the reason of the rejection. -/
def State.forceCheck (s : State) (m : Nat) : Except Nat (Nat × FaultKind × Option Nat) :=
  let (src, kind, b) := s.forced m
  match kindOf kind with
  | none => .error 1
  | some k =>
    if !emits src k then .error 1
    else if k.cls true = .i then .error 2
    else match s.msgBasket src k b with
      | none => .error 1
      | some x => match s.forceReason m src k x with
        | some r => .error r
        | none => .ok (src, k, x)

/-- The DETAIL of an injected message (R377). -/
def injected : Nat := 0xFFFFFFFF

/-- PULSE of kind `k`: one message, whose class B cause clears at once (R377). -/
def pulse (src : Nat) (k : FaultKind) (b : Option Nat) (s : State) : State :=
  match k.cls b.isSome, b with
  | .b, some x =>
    if (s.cause? src k x).isSome then s
    else
      let t := raiseB src k x injected none s
      if k.condition then dropCause src k x t else t
  | _, _ => raiseFault src k b injected s

/-- HOLD of kind `k` by function `m`: the message, and a cause that stays until RELEASE (R377). -/
def hold (m src : Nat) (k : FaultKind) (b : Option Nat) (s : State) : State :=
  match k.cls b.isSome, b with
  | .b, some x =>
    match s.cause? src k x with
    | some c =>
      let c' := { c with heldBy := if c.heldBy.contains m then c.heldBy else m :: c.heldBy }
      countCauses x { s with col := { s.col with causes := s.col.causes.map fun y => if y = c then c' else y } }
    | none => raiseB src k x injected (some m) s
  | _, _ =>
    let t := raiseFault src k b injected s
    let h := (m, src, k, b.getD 64)
    { t with col := { t.col with holds := if t.col.holds.contains h then t.col.holds else h :: t.col.holds } }

/-- An injection by master `m` that is accepted shows DONE. -/
def forceCmd (m : Nat) (f : State → State) (s : State) : State := gateWrite m (FC_FORCE_CMD (copyOf m)) false f s

/-- PULSE by master `m` (R377, R378). -/
def execFaultPulse (m : Nat) (s : State) : Out :=
  settled s (forceCmd m (fun s =>
    match s.forceCheck m with
    | .error r => forceRej m r s
    | .ok (src, k, b) => (pulse src k b s).raise (FC_FORCE_STATUS_DONE (copyOf m))) s)

/-- HOLD by master `m` (R377, R378). -/
def execFaultHold (m : Nat) (s : State) : Out :=
  settled s (forceCmd m (fun s =>
    match s.forceCheck m with
    | .error r => forceRej m r s
    | .ok (src, k, b) =>
      if 16 ≤ s.heldCount m then forceRej m 6 s
      else showHeld (copyOf m) ((hold m src k b s).raise (FC_FORCE_STATUS_DONE (copyOf m)))) s)

/-- RELEASE by master `m`: the hold of the cause that FC_FORCE0 names ends, and the cause with it unless it is detected too (R377;
DEDUCED, log entry 48). -/
def release (m : Nat) (s : State) : State :=
  let (src, kind, b) := s.forced m
  match kindOf kind with
  | none => forceRej m 5 s
  | some k =>
    let fin := fun (t : State) => showHeld (copyOf m) (t.raise (FC_FORCE_STATUS_DONE (copyOf m)))
    match s.cause? src k b with
    | some c => if c.heldBy.contains m then fin (releaseCause m c s) else forceRej m 5 s
    | none =>
      match s.col.holds.find? fun h => h.1 == m && h.2.1 == src && h.2.2.1 == k && (h.2.2.2 == b || h.2.2.2 == 64) with
      | some h => fin { s with col := { s.col with holds := s.col.holds.filter fun x => x != h } }
      | none => forceRej m 5 s

/-- RELEASE by master `m` (R377). -/
def execFcRelease (m : Nat) (s : State) : Out := settled s (forceCmd m (release m) s)

/-! ## The log's tail (R379) -/

/-- Master `m` writes `v` to FC_LOG_TAIL: records are consumed, up to HEAD (R379). -/
def logTail (m : Nat) (v : Word) (s : State) : State :=
  let tail := s.get FC_LOG_TAIL_TAIL
  if (bitsAt v 0 16 + 65536 - tail) % 65536 ≤ (s.get FC_LOG_HEAD_HEAD + 65536 - tail) % 65536 then logResume (logLevel (storeRw m FC_LOG_TAIL v s))
  else s.raise FC_EVENT_VAL_REJ

/-- FC_LOG_TAIL_WRITE: master `m` writes `v` to FC_LOG_TAIL (R379). -/
def execFcLogTailWrite (m : Nat) (v : Word) (s : State) : Out := done s (gateWrite m FC_LOG_TAIL false (logTail m v) s)

end Sys2Proof.Machine
end

