-- ==== Sys2Proof/Machine/BistOps.lean ====
section
/-! DEFINITION. Self-test as it acts: logic BIST, the MISR checks, memory repair, lane loopback, and the repair map in NVM (R405 to R418). -/

namespace Sys2Proof.Machine

/-! ## The repair map's macro entries (R410, R411, R416) -/

/-- Byte `o` of the repair map's body. -/
def State.mapByte (s : State) (o : Nat) : Nat := (tabGet (fun _ => (0 : BitVec 8)) s.repair o).toNat
def setMapByte (o x : Nat) (s : State) : State := { s with repair := tabSet (fun _ => (0 : BitVec 8)) s.repair o (BitVec.ofNat 8 x) }

/-- Halfword `j` of macro `m`'s entry: spare rows 0 to 3, spare columns 4 and 5, FAILED in bit 0 of halfword 6 (R416). -/
def State.mapHalf (s : State) (m j : Nat) : Nat := s.mapByte (16 * m + 2 * j) + 256 * s.mapByte (16 * m + 2 * j + 1)
def setMapHalf (m j x : Nat) (s : State) : State := setMapByte (16 * m + 2 * j + 1) (x / 256) (setMapByte (16 * m + 2 * j) x s)

/-- STATE of a spare: 0 unused, 1 fuse, 2 soft, 3 retired. -/
def State.spareSt (s : State) (m j : Nat) : Nat := s.mapHalf m j / 16384

/-- The spare rows and the spare columns of macro `m` that are unused. -/
def State.freeRows (s : State) (m : Nat) : List Nat := (List.range 4).filter fun j => s.spareSt m j == 0
def State.freeCols (s : State) (m : Nat) : List Nat := [4, 5].filter fun j => s.spareSt m j == 0

/-- A spare of macro `m` takes a row or a column: the first unused one; none where there is none. -/
def takeRow (m row : Nat) (s : State) : State := match s.freeRows m with | j :: _ => setMapHalf m j (row % 4096 + 2 * 16384) s | [] => s
def takeCol (m col : Nat) (s : State) : State := match s.freeCols m with | j :: _ => setMapHalf m j (col % 1024 + 2 * 16384) s | [] => s

/-- The failing bits of macro `m`, by row and column, that no soft repair of this pass has taken yet. -/
abbrev Bits := List (Nat × Nat)

/-- Pass 1: a row whose failing bits exceed the free spare columns takes a spare row, rows in ascending order (R411). -/
def passRows (m : Nat) : List Nat → Bits → State → Bits × State
  | [], bs, s => (bs, s)
  | r :: rs, bs, s =>
    if (s.freeCols m).length < (bs.countP fun b => b.1 == r) ∧ s.freeRows m ≠ [] then passRows m rs (bs.filter fun b => b.1 != r) (takeRow m r s)
    else passRows m rs bs s

/-- Pass 2: a column whose failing bits exceed the free spare rows takes a spare column. -/
def passCols (m : Nat) : List Nat → Bits → State → Bits × State
  | [], bs, s => (bs, s)
  | c :: cs, bs, s =>
    if (s.freeRows m).length < (bs.countP fun b => b.2 == c) ∧ s.freeCols m ≠ [] then passCols m cs (bs.filter fun b => b.2 != c) (takeCol m c s)
    else passCols m cs bs s

/-- Passes 3 and 4: every bit still failing takes a spare row, the lowest row first, and then a spare column. -/
def passBits (m : Nat) : List Nat → Bits → State → Bits × State
  | [], bs, s => (bs, s)
  | r :: rs, bs, s =>
    if (bs.any fun b => b.1 == r) && s.freeRows m != [] then passBits m rs (bs.filter fun b => b.1 != r) (takeRow m r s)
    else passBits m rs bs s
def passLast (m : Nat) : List Nat → Bits → State → Bits × State
  | [], bs, s => (bs, s)
  | c :: cs, bs, s =>
    if (bs.any fun b => b.2 == c) && s.freeCols m != [] then passLast m cs (bs.filter fun b => b.2 != c) (takeCol m c s)
    else passLast m cs bs s

/-- A number put into its place among distinct ascending ones, and the distinct numbers of a list in ascending order. -/
def insertAsc (a : Nat) : List Nat → List Nat
  | [] => [a]
  | b :: r => if a < b then a :: b :: r else if a = b then b :: r else b :: insertAsc a r

def ascending (l : List Nat) : List Nat := l.foldr insertAsc []

/-- BIST_MEM_REP(m) and BIST_MEM_FAIL show macro `m`'s entry (R426). -/
def showMacro (m : Nat) (s : State) : State :=
  let n := fun (js : List Nat) (st : Nat) => js.countP fun j => s.spareSt m j == st
  let t := (s.put (BIST_MEM_REP_ROW_FUSE m) (n [0, 1, 2, 3] 1)).put (BIST_MEM_REP_ROW_SOFT m) (n [0, 1, 2, 3] 2)
  let t := (t.put (BIST_MEM_REP_COL_FUSE m) (n [4, 5] 1)).put (BIST_MEM_REP_COL_SOFT m) (n [4, 5] 2)
  let bad := s.mapHalf m 6 % 2 == 1
  (t.putFlag (BIST_MEM_REP_FAILED m) bad).putFlag (mapBit BIST_MEM_FAIL m) bad

/-- Macro `m` is repaired in the four passes of R411; `still` says that it fails after repair too. -/
def repairMacro (m : Nat) (bits : Bits) (still : Bool) (s : State) : State :=
  let r := passRows m (ascending (bits.map (·.1))) bits s
  let r := passCols m (ascending (r.1.map (·.2))) r.1 r.2
  let r := passBits m (ascending (r.1.map (·.1))) r.1 r.2
  let r := passLast m (ascending (r.1.map (·.2))) r.1 r.2
  let t := r.2
  let used := t.repair != s.repair
  let bad := still || r.1 != []
  let t := if bad then setMapHalf m 6 1 t else t
  let t := showMacro m t
  let t := if used then (t.raise (BIST_MEM_REP_NEW m)).raise BIST_EVENT_MEM_REPAIR else t
  if bad then t.raise BIST_EVENT_MEM_FAIL else t

/-- Memory BIST with repair on every macro (R410, R411). A spare that fails itself is retired. -/
def memTest (r : SelfTest) (s : State) : State :=
  let t := eachDo r.spares (fun x u => setMapHalf x.1 x.2 (u.mapHalf x.1 x.2 % 16384 + 3 * 16384) u) s
  eachDo (List.range 256) (fun m u => repairMacro m (tabGet (fun _ => []) r.bits m) (r.still.contains m) u) t

/-! ## Logic BIST and the MISR checks (R407 to R409) -/

/-- The physical strands of wale `w` that fail: those found, or all 17 where its shared logic fails (R408). -/
def failedIn (r : SelfTest) (w : Nat) : List Nat :=
  (List.range 17).filter fun j => r.wales.contains w || r.strands.contains (17 * w + j)

/-- Logic BIST of wale `w`: its failing physical strands are marked, and strands are remapped where the spare may be used (R408). -/
def logicWale (r : SelfTest) (w : Nat) (s : State) : State :=
  let t := eachDo (failedIn r w) (fun j u => u.raise ⟨WAL_FAILED w, j, 1⟩) s
  let t := if (failedIn r w).contains 16 then t.put (WAL_SPARE_STATE w) 3 else t
  eachDo ((List.range 16).map fun j => 16 * w + j) remapFailed t

/-- BIST_LOGIC(g) shows group `g`'s outcome (R407, R408). -/
def logicGroup (r : SelfTest) (g : Nat) (s : State) : State :=
  let bad := (List.range 4).filter fun i => failedIn r (g + 16 * i) != []
  let t := ((s.raise (BIST_LOGIC_RAN g)).putFlag (BIST_LOGIC_PASS g) (bad == [])).put (BIST_LOGIC_FAIL_WALE g) (bad.map (2 ^ ·)).sum
  if bad = [] then t else t.raise BIST_EVENT_LOGIC_FAIL

/-- MISR check `k`: a mismatch raises FUSE with the fuse word of its golden value, whose place among words 96 to 127 the spec does not give: a free
value (R409, R430). The signature is kept for a check of this start (DESIGN CHOICE, log entry 51). -/
def misrCheck (start : Bool) (r : SelfTest) (k : Nat) (s : State) : State :=
  let x := r.misr.getD k (true, 0)
  let t := (s.putFlag (BIST_MISR_MATCH k) x.1).raise (BIST_MISR_RAN k)
  let t := if start then t.put (BIST_MISR_SIG_SIG k) x.2 else t
  if x.1 then t
  else
    let (i, u) := t.fresh
    raiseFault srcFuses .fuse none (96 + Config.freeNat i % 32) u

/-! ## Lane loopback, and the whole test (R405, R414, R426) -/

/-- Lane `p`'s loopback test: one that fails is held OFF, and one that passes is used again (R414). -/
def laneTest (r : SelfTest) (p : Nat) (s : State) : State :=
  let bad := r.lanes.contains p
  let t := s.putFlag (mapBit BIST_LANE_FAIL p) bad
  if bad then (t.put (LANE_STATUS_PHASE p) lOFF).raise BIST_EVENT_LANE_FAIL else t

/-- BIST_STATUS tells how each kind of test came out. -/
def showBist (s : State) : State :=
  let t := s.putFlag BIST_STATUS_LOGIC_OK ((List.range 16).all fun g => s.flag (BIST_LOGIC_PASS g))
  let t := t.putFlag BIST_STATUS_MISR_OK ((List.range 3).all fun k => s.flag (BIST_MISR_MATCH k))
  let t := t.putFlag BIST_STATUS_MEM_OK ((List.range 8).all fun i => s.reg (BIST_MEM_FAIL i) == 0)
  t.putFlag BIST_STATUS_LANE_OK ((List.range 4).all fun i => s.reg (BIST_LANE_FAIL i) == 0)

/-- The whole self-test with the findings `r`, at a start or at a shutdown (R405). The MISR checks come after logic BIST; a mismatch ends the test. -/
def selfTest (start : Bool) (r : SelfTest) (s : State) : State :=
  let t := eachDo (List.range 64) (logicWale r) (eachDo (List.range 16) (logicGroup r) s)
  let t := eachDo (List.range 3) (misrCheck start r) t
  if t.flag FC_STATUS_G_ACTIVE then showBist t
  else
    let t := eachDo (List.range 108) (laneTest r) (memTest r t)
    showBist ((t.setReg BIST_TIME r.time).put BIST_STATUS_ORIGIN (if start then 2 else s.get BIST_STATUS_ORIGIN))

/-! ## The repair map and the marker at a start (R391, R415, R416, R418) -/

/-- Word of four bytes at offset `o` of the cells of a slot. -/
def cellWord (l : List Host.Cell) (o : Nat) : Nat :=
  ((List.range 4).map fun i => (tabGet (fun _ => (0 : BitVec 8)) l (o + i)).toNat * 256 ^ i).sum

/-- The registers whose reset reads NVM are loaded from the repair map's body (R416): a wale's failures and spare, and the physical rim behind each
logical one. -/
def loadMap (l : List Host.Cell) (s : State) : State :=
  let t := { s with repair := l.filter fun c => decide (c.1 < 0x1000) || decide (0x1120 ≤ c.1) }
  let t := eachDo (List.range 64) (fun w u =>
    let x := cellWord l (0x1000 + 4 * w)
    let u := (u.put ⟨WAL_FAILED w, 0, 17⟩ x).put (WAL_SPARE_STATE w) (x / 2 ^ 17 % 4)
    let u := u.put (WAL_SPARE_POS w) (x / 2 ^ 19 % 16)
    if x / 2 ^ 17 % 4 = 2 then u.put (STR_STATUS_PHYS (16 * w + x / 2 ^ 19 % 16)) (sparePhys w) else u) t
  let t := eachDo (List.range 16) (fun n u => u.put (RIM_STATUS_PHYS n) ((tabGet (fun _ => (0 : BitVec 8)) l (0x1100 + n)).toNat % 32)) t
  t.put ⟨RIM_FAILED, 0, 20⟩ (cellWord l 0x1110)

/-- A physical rim is a free spare when no logical rim maps to it and it is not marked FAILED (R416). -/
def showPool (s : State) : State :=
  eachDo (List.range 20) (fun p u =>
    u.putFlag ⟨RIM_POOL, p, 1⟩ (!u.flag ⟨RIM_FAILED, p, 1⟩ && (List.range 16).all fun n => u.get (RIM_STATUS_PHYS n) != p)) s

/-- The factory repairs of the fuses: an entry with VALID in both copies takes its spare, before any soft repair of it (R413, R430). -/
def fuseRepairs (s : State) : State :=
  eachDo (List.range 192) (fun e u =>
    let w := tabGet (fun _ => (0 : Word)) u.fuses (128 + 2 * e)
    if bitsAt w 31 1 = 1 then
      setMapHalf (bitsAt w 0 8) (if bitsAt w 8 1 = 1 then 4 + bitsAt w 9 2 % 2 else bitsAt w 9 2) (bitsAt w 11 12 + 16384) u
    else u) s

/-- The first repair word of which the two copies differ (R413). -/
def State.fuseBad (s : State) : Option Nat :=
  ((List.range 192).map fun e => 128 + 2 * e).find? fun w =>
    tabGet (fun _ => (0 : Word)) s.fuses w != tabGet (fun _ => (0 : Word)) s.fuses (w + 1)

/-- The self-test results of a CLEAN marker are loaded, and applied: failed lanes are held OFF (R415). -/
def loadMarker (ws : List Word) (s : State) : State :=
  let w := fun (i : Nat) => ws.getD i 0
  let t := eachDo (List.range 16) (fun g u => u.setReg (BIST_LOGIC g) (w (2 + g))) s
  let t := eachDo (List.range 3) (fun k u => (u.put (BIST_MISR_MATCH k) (bitsAt (w 18) k 1)).put (BIST_MISR_RAN k) (bitsAt (w 18) (3 + k) 1)) t
  let t := eachDo (List.range 4) (fun i u => u.setReg (BIST_LANE_FAIL i) (w (28 + i))) (t.setReg BIST_TIME (w 19))
  let t := eachDo (List.range 8) (fun i u => u.setReg (BIST_MEM_FAIL i) (w (20 + i))) t
  let t := eachDo (List.range 108) (fun p u => if u.flag (mapBit BIST_LANE_FAIL p) then u.put (LANE_STATUS_PHASE p) lOFF else u) t
  showBist (t.put BIST_STATUS_ORIGIN 1)

end Sys2Proof.Machine
end

