-- ==== Sys2Proof/Machine/Bist.lean ====
section
/-! DEFINITION. The commands of the self-test block, and the repair map's own write (R405, R417, R426). -/

namespace Sys2Proof.Machine

/-- BIST_CMD by master `m`. -/
def bistCmd (m : Nat) (f : State → State) (s : State) : State := gateWrite m BIST_CMD true f s

/-- FULL_NEXT by master `m`: the next shutdown skips self-test and writes no CLEAN marker (R405). -/
def execFullNext (m : Nat) (s : State) : Out := done s (bistCmd m (fun s => s.raise BIST_STATUS_FULL_NEXT) s)

/-- CANCEL_FULL by master `m`: FULL_NEXT is withdrawn (BIST_CMD). -/
def execCancelFull (m : Nat) (s : State) : Out := done s (bistCmd m (fun s => s.lower BIST_STATUS_FULL_NEXT) s)

/-- The repair map is queued on the NVM writer, once (R417). -/
def queueMap (s : State) : State :=
  let t := s.raise BIST_MAP_STATUS_PENDING
  if t.nvmQueue.contains 7 then t else { t with nvmQueue := t.nvmQueue ++ [7] }

/-- STORE_MAP by master `m` (R417). -/
def execStoreMap (m : Nat) (s : State) : Out := settled s (bistCmd m queueMap s)

/-- REPAIR_MAP_WRITE_START: within 1 s after a change of the strand or rim map, its write is queued (R417). -/
def execRepairMapWriteStart (s : State) : Out :=
  if s.flag BIST_MAP_STATUS_PENDING then settled s (queueMap s) else .next s

end Sys2Proof.Machine
end

