-- ==== Sys2Proof/Machine/Calibration.lean ====
section
/-! DEFINITION. The calibration units at work: the ends of their stages (R208 to R224, R232). -/

namespace Sys2Proof.Machine

/-! ## Strands (R211 to R214) -/

/-- CAL_TDC_STAGE_END: the check TDC stage of wale `w`'s unit ends with the counts `bins` of its 2^22 conversions; the table is set and the sweeps begin, or
a count out of range rejects the run (R211, R221 check 0x01). Widths are shown in units of 2^-16 of a rim period, truncated (DEDUCED, log entry 36). A paused
unit does not go on (R208). -/
def execCalTdcStageEnd (w : Nat) (bins : List Nat) (s : State) : Out :=
  match (s.unit w).run with
  | some r =>
    if w < 64 ∧ r.stage = .tdc ∧ bins.length = 1024 ∧ bins.sum = 2 ^ 22 ∧ s.unitPaused w = false then
      if bins.all fun n => decide (1024 ≤ n ∧ n ≤ 16384) then
        let t := eachDo bins.zipIdx (fun p u => u.mput ⟨recTdc w + 4 * (p.2 / 2), 16 * (p.2 % 2), 16⟩ (p.1 / 64)) s
        let d : TdcTable := { taken := some s.elapsed, word := s.waleWord w, tj := s.tj (w / 16), bins := bins }
        settled s (beginSweeps w r { t with tdc := tabSet (fun _ => {}) t.tdc w d })
      else settled s (unitDone w (calReject w r 0x01 s))
    else .next s
  | none => .next s

/-- The code that firing `i` of a pass drives (R212). -/
def sweepCode (i : Nat) : Nat := 167 * i % 256

/-- The sample of a firing, in units of 2^-23 of a rim period: the check TDC's time of the cell's edge less that of the reference tap's (R211, R212). -/
def firing (bins : List Nat) (f : Nat × Nat) : Int := nearZero (tdcTime bins f.1 - tdcTime bins f.2)

/-- The sum of the samples of a pass at the codes from `lo` up to `hi` (R212). -/
def codeSum (bins : List Nat) (l : List (Nat × Nat)) (lo hi : Nat) : Int :=
  ((l.zipIdx.filter fun e => decide (lo ≤ sweepCode e.2 ∧ sweepCode e.2 ≤ hi)).map fun e => firing bins e.1).sum

/-- What the passes of a sweep sum to: codes 0 to 7 and 248 to 255 in pass 1a, 0 to 7 in pass 1b, and each code in pass 2, in units of 2^-23 of a rim
period. A step s, a 4,096th of a rim period, is 2^11 of them, so with 1,024 samples a mean is the sum over 2^21 steps, and with 4,096 over 2^23. -/
structure SweepSums where
  lowA : Int
  highA : Int
  lowB : Int
  codes : List Int
deriving DecidableEq, Repr

def sweepSums (bins : List Nat) (m : CellSweep) : SweepSums :=
  { lowA := codeSum bins m.passA 0 7, highA := codeSum bins m.passA 248 255, lowB := codeSum bins m.passB 0 7
    codes := (List.range 256).map fun c => codeSum bins m.pass2 c c }

/-- One step of a wale's LFSR, whose polynomial is x^16 + x^14 + x^13 + x^11 + 1 (R212; DESIGN CHOICE, log entry 102). -/
def lfsrStep (x : Nat) : Nat := x / 2 + 32768 * ((x + x / 4 + x / 8 + x / 32) % 2)

/-- The LFSR of wale `w`. -/
def State.lfsrOf (s : State) (w : Nat) : Nat := tabGet (fun _ => 1) s.lfsr w

/-- The rim phase of a firing: the low 4 bits of the LFSR (R212). -/
def State.firingPhase (s : State) (w : Nat) : Nat := s.lfsrOf w % 16

/-- Wale `w`'s LFSR takes a step for each of `n` firings (R212). -/
def lfsrRun (w n : Nat) (s : State) : State :=
  { s with lfsr := tabSet (fun _ => 1) s.lfsr w ((List.range n).foldl (fun x _ => lfsrStep x) (s.lfsrOf w)) }

/-- A step s in fs is `stepNum / stepDen word` at rim word `word`: 1 / (4,096 f_rim), where f_rim is the word times 1.75 GHz (R67, R212). -/
def stepNum : Int := 10 ^ 15 * 2 ^ 32
def stepDen (word : Nat) : Int := 4096 * 1750000000 * word

/-- What the three passes compute of a cell (R212): GAIN, OFFSET, 8 * eps_j / s in units of 2^-23, the breakpoints, INL_RMS in 0.1 fs, truncated, and whether
the exact INL_RMS and INL_PEAK pass. -/
structure CellValue where
  gain : Int
  offset : Int
  eps : List Int
  bp : List Int
  inl : Nat
  peakOk : Bool
  rmsOk : Bool
deriving DecidableEq, Repr

/-- The computations of R212 on a cell that holds GAIN `g` and OFFSET `o`, at rim word `word`. A span of no length has no GAIN in range. -/
def cellValue (word : Nat) (g o : Int) (m : SweepSums) : CellValue :=
  let span := m.highA - m.lowA
  let gain := if span ≤ 0 then 4096 else g + roundAway (2000 * (248 * 2 ^ 21 - span)) span.toNat
  let offset := o - roundAway (2 * m.lowB - 327 * 2 ^ 21) (2 ^ 22)
  let e := (List.range 16).map fun j => 8 * (m.codes.getD (16 * j) 0 - (160 + 16 * j) * 2 ^ 23)
  let b := e.map fun x => -(roundAway x (2 ^ 23))
  let b16 := max (-120) (min 120 (2 * b.getD 15 0 - b.getD 14 0))
  let bp := b ++ [b16]
  -- the residuals in units of s / 2^26
  let res := (List.range 256).map fun c => 8 * (m.codes.getD c 0 - (160 + c) * 2 ^ 23) + corr8 c bp * 2 ^ 23
  let sq := (res.map fun x => x * x).sum
  let u := 2 ^ 26 * stepDen word
  { gain := gain, offset := offset, eps := e, bp := bp
    inl := isqrt (sq * (10 * stepNum) ^ 2 / (256 * u ^ 2)).toNat
    peakOk := res.all fun x => decide ((x.natAbs : Int) * stepNum ≤ 15 * u)
    rmsOk := decide (sq * stepNum ^ 2 ≤ 256 * (6 * u) ^ 2) }

/-- The rim word at which the values of cell `k` were taken (R221). -/
def State.cellWord (s : State) (phys k : Nat) : Nat :=
  match s.cellCalOf phys k with
  | some c => c.word
  | none => s.mget (recFreqN (recStrand phys)) * 2 ^ 32 + s.mget (recFreqF (recStrand phys))

/-- The first check of R221 that a cell's new values fail; none where they pass. -/
def State.cellCheck (s : State) (phys k word : Nat) (v : CellValue) : Option Nat :=
  let a := cellAt phys k
  let old := s.mget (cellState a) != 0
  if v.gain < 16 ∨ 1007 < v.gain ∨ (old && !movedFive word (s.cellWord phys k) && decide (100 < (v.gain - s.mget (cellGain a)).natAbs)) then some 0x02
  else if v.offset < -120 ∨ 120 < v.offset then some 0x03
  else if v.eps.any fun x => decide (120 * 2 ^ 23 < (x.natAbs : Int)) then some 0x04
  else if !v.rmsOk then some 0x05
  else if !v.peakOk then some 0x06
  else none

/-- The new values loaded whole into a cell, which is VALID with them, with what they were taken at (R212, R221, R224, R227, R232). -/
def loadCell (phys k word : Nat) (v : CellValue) (s : State) : State :=
  let a := cellAt phys k
  let t := ((s.mput (cellGain a) v.gain.toNat).mput (cellOffset a) (unsigned 8 v.offset)).mput (cellState a) 1
  let t := eachDo v.bp.zipIdx (fun p u => u.mput (if p.2 = 16 then ⟨a + 20, 0, 8⟩ else cellBp a p.2) (unsigned 8 p.1)) t
  let t := t.mput (cellInl a) (min v.inl 16383)
  let t := setCellCal phys k (some { word := word, tj := t.tj (phys / 272), optime := t.get BIST_OPTIME_MINUTES }) t
  let t := if t.mget (cellFresh a) = 0 then
      { (t.mput (cellFresh a) v.gain.toNat) with freshWord := tabSet (fun _ => 0) t.freshWord (3 * phys + k) word }
    else t
  cellsChanged phys t

/-- The gain drift of a cell against its fresh values exceeds `thr` steps of 0.1 % (R232); 0 disables the monitor. -/
def State.drifts (s : State) (phys k word thr : Nat) : Bool :=
  let a := cellAt phys k
  let x : Int := (2000 + (s.mget (cellGain a) : Int) - 512) * word
  let y : Int := (2000 + (s.mget (cellFresh a) : Int) - 512) * tabGet (fun _ => 0) s.freshWord (3 * phys + k)
  thr != 0 && decide ((thr : Int) * y < 1000 * ((x - y).natAbs : Int))

/-- An accepted strand run: the header, the frequency word, the quality, and the wear trend; a worn spare that no strand uses is raised for its wale's first
strand (R226, R227, R232; DESIGN CHOICE, log entry 105). -/
def strandAccept (u : Nat) (r : CalRun) (s : State) : State :=
  let a := recStrand r.phys
  let word := s.waleWord u
  let t := acceptHeader a (sensorOf u 0) s
  let t := (t.mput (recFreqF a) word).mput (recFreqN a) (word / 2 ^ 32)
  let mc := t.mget (roleMain r.phys)
  let cc := t.mget (roleComp r.phys)
  let t := t.mput (recQuality a 0 16) (max (t.mget (cellInl (cellAt r.phys mc))) (t.mget (cellInl (cellAt r.phys cc))))
  let t := cellsChanged r.phys (eachDo (List.range 3) (fun c v => setCellCal r.phys c none v) t)
  let worn := t.drifts r.phys mc word t.wear.dtc || t.drifts r.phys cc word t.wear.dtc
  let was := t.mget (recWear a) == 1
  let t := t.mput (recWear a) (if worn then 1 else 0)
  if worn && !was then
    match strandOfTarget u r.target with
    | some k => wearStrand k t
    | none => raiseW (srcStrand (16 * u)) .dtcWear (t.strandBasket (16 * u)) r.phys t
  else t

/-- STALE clears on a strand unit's target, and the unit chooses again (R213). -/
def endStrandRun (u : Nat) (r : CalRun) (s : State) : State :=
  let t := match strandOfTarget u r.target with | some k => setStale k false s | none => s
  unitDone u t

/-- The cell that a run sweeps: the RELIEF cell of a strand that runs, else the cells 0, 1 and 2 in turn (R213, R214). -/
def State.sweptCell (s : State) (r : CalRun) (k : Nat) : Nat := if r.rotates then s.mget (roleRelief r.phys) else k

/-- The passes have the firings of R212: 128 times and again 128 times the 256 codes, then 4,096 times. -/
def sweepWhole (m : CellSweep) : Bool := m.passA.length == 32768 && m.passB.length == 32768 && m.pass2.length == 1048576

/-- A cell's sweep has computed `v`. Values that pass are loaded; a cell of a running strand then waits for its boundary, and without rotation the next cell
follows, or the run is accepted (R213, R214, R221, R222). -/
def cellSwept (w : Nat) (r : CalRun) (k : Nat) (v : CellValue) (s : State) : State :=
  let c := s.sweptCell r k
  let stage := fun (x : CalStage) (t : State) => setUnit w { (t.unit w) with run := some { r with stage := x } } t
  match s.cellCheck r.phys c (s.waleWord w) v with
  | some x =>
    let t := calReject w r x s
    if r.rotates then stage (.clearing false) t else spliceCalDone w false (endStrandRun w r t)
  | none =>
    let t := loadCell r.phys c (s.waleWord w) v s
    if r.rotates then stage (.handover k) t
    else if k < 2 then stage (.sweep (k + 1)) t
    else spliceCalDone w true (endStrandRun w r (strandAccept w r t))

/-- CAL_CELL_SWEEP_END: the three passes of wale `w`'s unit over a cell end with the firings `m`, for each of which the wale's LFSR has taken a step, and its
new values are computed (R212). A paused unit does not go on (R208). -/
def execCalCellSweepEnd (w : Nat) (m : CellSweep) (s : State) : Out :=
  match (s.unit w).run with
  | some r =>
    match r.stage with
    | .sweep k =>
      if w < 64 ∧ sweepWhole m = true ∧ s.unitPaused w = false then
        let a := cellAt r.phys (s.sweptCell r k)
        let v := cellValue (s.waleWord w) (s.mget (cellGain a)) (signed 8 (s.mget (cellOffset a))) (sweepSums (s.tdcBins w) m)
        settled s (cellSwept w r k v (lfsrRun w (m.passA.length + m.passB.length + m.pass2.length) s))
      else .next s
    | _ => .next s
  | none => .next s

/-- CAL_CELL_HANDOVER: a commit boundary of the running strand that wale `w`'s unit calibrates. The first swept cell takes MAIN, the second
takes COMP, and after the third STALE clears and the record is written; after a rejection STALE clears (R213; DEDUCED, log entry 38). -/
def execCalCellHandover (w : Nat) (s : State) : Out :=
  match (s.unit w).run with
  | some r =>
    let next := fun (j : Nat) (t : State) => setUnit w { (t.unit w) with run := some { r with stage := .sweep j } } t
    match r.stage with
    | .handover 0 =>
      let c := s.mget (roleRelief r.phys)
      let m := s.mget (roleMain r.phys)
      settled s (next 1 (cellsChanged r.phys ((s.mput (roleMain r.phys) c).mput (roleRelief r.phys) m)))
    | .handover 1 =>
      let c := s.mget (roleRelief r.phys)
      let m := s.mget (roleComp r.phys)
      settled s (next 2 (cellsChanged r.phys ((s.mput (roleComp r.phys) c).mput (roleRelief r.phys) m)))
    | .handover _ => settled s (endStrandRun w r (strandAccept w r s))
    | .clearing _ => settled s (endStrandRun w r s)
    | _ => .next s
  | none => .next s

/-! ## Reeds (R216) -/

/-- The cumulative counts below each bin, one more than there are bins. -/
def cumul (l : List Nat) : List Nat := (l.foldl (fun (p : Nat × List Nat) n => (p.1 + n, (p.1 + n) :: p.2)) (0, [0])).2.reverse

/-- The INL of bin `i` in units of 2^-23 of a rim period: cumulative width less the ideal (R216). -/
def inlAt (cum : List Nat) (i : Nat) : Int := (cum.getD i 0 : Int) - 4096 * i

/-- Sixty-four times the error that is left at bin `i` after interpolation between the breakpoints (R216). -/
def inlLeft (cum : List Nat) (i : Nat) : Int :=
  let j := i / 64
  let r : Int := i % 64
  64 * inlAt cum i - (inlAt cum (64 * j) * (64 - r) + inlAt cum (64 * (j + 1)) * r)

/-- A reed's nonlinearity from the counts of its bins (R216), at rim word `word` (DEDUCED, log entry 36). -/
def reedNl (word : Nat) (bins : List Nat) : ReedNl :=
  let cum := cumul bins
  let n : Int := 10 ^ 15 * 2 ^ 32
  let d : Int := 64 * 2 ^ 23 * 1750000000 * word
  let e := (List.range 2048).map (inlLeft cum)
  let sq := (e.map fun x => x * x).sum
  let peak : Int := ((e.map Int.natAbs).foldl max 0 : Nat)
  { rms := isqrt (sq * (10 * n) ^ 2 / (2048 * d ^ 2)).toNat
    peak := (peak * (10 * n) / d).toNat
    ok := decide (sq * n ^ 2 ≤ 2048 * (20 * d) ^ 2) && decide (peak * n ≤ 50 * d)
    bp := (List.range 33).map fun k => roundAway (inlAt cum (64 * k) * 64 * n) d.toNat }

/-- The INL of bin `b` between the breakpoints `bp`, in 1/64 fs (R216). -/
def inlBetween (bp : List Int) (b : Nat) : Int := bp.getD (b / 64) 0 * (64 - b % 64 : Nat) + bp.getD (b / 64 + 1) 0 * (b % 64 : Nat)

/-- The arrivals of the 4,096 samples of one direction of a cross-measurement, with the new breakpoints and no offset removed, against the windows of
REED_WIN(n) (R187, R189, R216; DESIGN CHOICE, log entry 106). -/
def State.crossSamples (s : State) (n : Nat) (bp : List Int) (d : ReedData) : List Int :=
  let r : ReedRun := { cfg := withBits (withBits (withBits (s.reg (REED_CFG n)) 0 3 1) 3 1 0) 4 1 0, winLo := s.reg (REED_WIN n), conds := [{}] }
  ((s.samplesBy (inlBetween bp) n r d).take 4096).map (·.v)

/-- OFFSET in fs from the two directions' sums of 4,096 arrivals each: half the sum of their means, less the quadrant's constant (R216). -/
def crossOffset (q word : Nat) (ae aw : List Int) : Int :=
  roundAway ((ae.sum + aw.sum) * (10 ^ 15 * 2 ^ 32)) (2 * 4096 * 65536 * 1750000000 * word) - Config.quadrantConst q

/-- The reed's run ends, and the unit chooses again. -/
def endReedRun (u n : Nat) (s : State) : State := unitDone u (s.lower (REED_STATUS_CAL_RUN n))

/-- The new values of reed `n` are loaded whole (R216, R226, R228). -/
def loadReed (q n word : Nat) (off : Int) (x : ReedNl) (s : State) : State :=
  let a := recReed n
  let t := acceptHeader a q s
  let t := ((t.mput (recFreqF a) word).mput (recFreqN a) (word / 2 ^ 32)).mput (reedOffset n) (unsigned 32 off)
  let t := ((t.mput ⟨a + 28, 0, 16⟩ x.rms).mput ⟨a + 28, 16, 16⟩ x.peak).mput (recQuality a 0 16) x.rms
  (eachDo x.bp.zipIdx (fun p v => v.mput (reedBp n p.2) (unsigned 16 p.1)) t).raise (REED_STATUS_CAL_VALID n)

/-- Reed `n`'s code density has ended with the counts `bins` (R216, R221 check 0x07, R222). -/
def densityEnd (u : Nat) (r : CalRun) (bins : List Nat) (s : State) : State :=
  let n := r.target
  let k := reedRef n (s.reg (REED_CFG n))
  if !(bins.all fun x => decide (1024 ≤ x ∧ x ≤ 16384)) then endReedRun u n (calReject u r 0x07 s)
  else if !(s.flag (STR_STATUS_RUN k) && s.flag (STR_STATUS_READY k)) then unitSelect u (calAbandon 0x26 u s)
  else setUnit u { (s.unit u) with run := some { r with stage := .cross, nl := reedNl (s.calWord u n) bins } } s

/-- Reed `n`'s cross-measurement has given the offset `off` (R216, R221 checks 0x08 and 0x09, R222). -/
def crossEnd (u q : Nat) (r : CalRun) (off : Int) (s : State) : State :=
  let n := r.target
  let old := s.mget (recState (recReed n)) != 0
  if 20000 < off.natAbs ∨ (old && decide (1000 < (off - signed 32 (s.mget (reedOffset n))).natAbs)) then endReedRun u n (calReject u r 0x08 s)
  else if !r.nl.ok then endReedRun u n (calReject u r 0x09 s)
  else endReedRun u n (loadReed q n (s.calWord u n) off r.nl s)

/-- CAL_REED_STAGE_END: a stage of quadrant `q`'s unit ends. Code density gives the counts `bins` of 2^23 samples; cross-measurement what the reed sees with
the calibration line driven from its east and from its west end (R216). A paused unit does not go on (R208). -/
def execCalReedStageEnd (q : Nat) (bins : List Nat) (east west : ReedData) (s : State) : Out :=
  let u := 64 + q
  match (s.unit u).run with
  | some r =>
    if q < 4 ∧ s.unitPaused u = false then
      match r.stage with
      | .density => if bins.length = 2048 ∧ bins.sum = 2 ^ 23 then settled s (densityEnd u r bins s) else .next s
      | .cross =>
        let ae := s.crossSamples r.target r.nl.bp east
        let aw := s.crossSamples r.target r.nl.bp west
        if ae.length = 4096 ∧ aw.length = 4096 then settled s (crossEnd u q r (crossOffset q (s.calWord u r.target) ae aw) s) else .next s
      | _ => .next s
    else .next s
  | none => .next s

/-! ## Rims (R217, R218) -/

/-- Band `b` of a sweep fails its own part of check 0x0A: LO < HI, and against the band below it LO rises and they overlap by 20 MHz (R221).
20 MHz are 49,085,196.4 units of the word's fraction. -/
def bandFails (l : List (Nat × Nat)) (b : Nat) : Bool :=
  let x := l.getD b (0, 0)
  decide (x.2 ≤ x.1) || (b != 0 && (let y := l.getD (b - 1) (0, 0)
    decide (x.1 ≤ y.1) || decide (1750 * ((y.2 : Int) - x.1) < 20 * 2 ^ 32)))

/-- The FULL bands together cover the words of R67, from the lowest upwards. -/
def bandsCover (l : List (Nat × Nat)) : Bool :=
  let top := l.foldl (fun (c : Nat) b => if b.1 ≤ c then max c b.2 else c) (6 * 2 ^ 32 + 0xDB6DB6DC)
  decide (8 * 2 ^ 32 + 0x49249249 ≤ top)

/-- CAL_RIM_SWEEP_END: the sweep of the rim unit's target ends with the words `bands`, lowest and highest of each of the 64 bands. One band
that fails alone is written UNUSABLE; more of them reject the run (R218, R221; DEDUCED, log entry 25). -/
def execCalRimSweepEnd (bands : List (Nat × Nat)) (s : State) : Out :=
  match (s.unit unitRim).run with
  | some r =>
    if r.stage = .bands ∧ s.get HRT_STATUS_STATE = 1 ∧ s.unitPaused unitRim = false then
      let bad := (List.range 64).filter (bandFails bands)
      if bands.length ≠ 64 ∨ 1 < bad.length then settled s (unitDone unitRim (calReject unitRim r 0x0A s))
      else if !bandsCover ((List.range 64).filterMap fun b => if bad.contains b then none else some (bands.getD b (0, 0))) then
        settled s (unitDone unitRim (calReject unitRim r 0x0B s))
      else
        let t := eachDo (List.range 64) (fun b u => let x := bands.getD b (0, 0); putBand r.target b x.1 x.2 (if bad.contains b then 3 else 2) u) s
        settled s (unitDone unitRim (acceptHeader (recRim r.target) 13 t))
    else .next s
  | none => .next s

/-- CAL_RIM_MARGIN_END: the 10 ms on a rim in service, LOCKED throughout, end: the least margin of its tuning code, and the peak of its phase error in steps
of 0.5 ps, give the quality figure (R218, R226). A paused unit does not go on (R208). -/
def execCalRimMarginEnd (code peak : Nat) (s : State) : Out :=
  match (s.unit unitRim).run with
  | some r =>
    match s.logicalRim r.target with
    | some n =>
      if r.stage = .margin ∧ s.get (RIM_STATUS_STATE n) = 2 ∧ s.unitPaused unitRim = false then
        let a := recRim r.target
        let t := (acceptHeader a 13 s).mput (recQuality a 0 12) (min code (4095 - code))
        settled s (unitDone unitRim (t.mput (recQuality a 12 8) (s.get (RIM_CTRL_LOCK_WIN n) - peak)))
      else .next s
    | none => .next s
  | none => .next s

/-! ## Lanes (R219, R220) -/

/-- The mismatches over 2^24 bits that an eye's scan counts in one direction, from the middle outwards to offset `lim`: it stops at the first point whose
ratio exceeds 10^-3 (R219). -/
def scanned (lim : Nat) : List Nat → List Nat
  | [] => []
  | c :: l => if 1000 * c ≤ 2 ^ 24 then (match lim with | 0 => [c] | n + 1 => c :: scanned n l) else [c]

/-- The terms of the series of the normal distribution at `x` / 2^32, in units of 2^-100: term n and the sum up to it. -/
def tailSeries (x : Nat) : Nat → Int × Int
  | 0 => let t : Int := (x : Int) * 2 ^ 68; (t, t)
  | n + 1 =>
    let p := tailSeries x n
    let t := -(p.1 * (x * x : Nat) / (2 ^ 65 * (n + 1 : Nat)))
    (t, p.2 + t / (2 * n + 3 : Nat))

/-- Half of erfc(Q / √2) at Q = `x` / 2^32, in units of 2^-100; 0.398942280401432677939946059934 is 1 / √(2π) (R219). -/
def halfErfc (x : Nat) : Int := 2 ^ 99 - (tailSeries x 120).2 * 398942280401432677939946059934 / 10 ^ 30

/-- Q of R219 for `c` mismatches in 2^24 bits, in units of 2^-32, to the unit: the largest Q whose ratio is not below the one counted (DESIGN CHOICE, log
entry 107). -/
def eyeQ (c : Nat) : Nat := (List.range 35).foldr (fun i q => if (c : Int) * 2 ^ 76 ≤ halfErfc (q + 2 ^ i) then q + 2 ^ i else q) 0

/-- The points of a direction whose ratio lies between 10^-7 and 10^-3, by offset, with their Q (R219). -/
def eyePoints (l : List Nat) : List (Int × Int) :=
  (l.zipIdx.filter fun p => decide (2 ^ 24 ≤ 10 ^ 7 * p.1 ∧ 1000 * p.1 ≤ 2 ^ 24)).map fun p => ((p.2 : Int), (eyeQ p.1 : Int))

/-- The last point of a direction with no mismatch (R219). -/
def lastClean (l : List Nat) : Nat := ((l.zipIdx.filter fun p => p.1 == 0).getLast?.map (·.2)).getD 0

/-- An edge of the eye in steps from the middle, as a fraction: where the line that fits the points by least squares reaches Q = 7.034; with fewer than two
points, or where the line is level, the last point with no mismatch (R219; DESIGN CHOICE, log entry 107). -/
def eyeEdge (lim : Nat) (counts : List Nat) : Int × Int :=
  let l := scanned lim counts
  let ps := eyePoints l
  let n : Int := ps.length
  let sx := (ps.map (·.1)).sum
  let sq := (ps.map (·.2)).sum
  let d := n * (ps.map fun p => p.1 * p.1).sum - sx * sx
  let b := n * (ps.map fun p => p.1 * p.2).sum - sx * sq
  -- 7.034 in units of 2^-32, times 1,000
  if n < 2 ∨ b = 0 then ((lastClean l : Int), 1) else (1000 * sx * b + (7034 * 2 ^ 32 * n - 1000 * sq) * d, 1000 * n * b)

/-- The distance between two opposite edges, each `k` units of the result a step, truncated (R219). -/
def eyeSpan (k : Int) (a b : Int × Int) : Nat := (k * (a.1 * b.2 + b.1 * a.2) / (a.2 * b.2)).toNat

/-- EYE_W in 1/64 UI and EYE_H in mV (R219). -/
def eyeWidth (e : EyeScan) : Nat := eyeSpan 1 (eyeEdge 32 e.left) (eyeEdge 31 e.right)
def eyeHeight (e : EyeScan) : Nat := eyeSpan 2 (eyeEdge 63 e.up) (eyeEdge 63 e.down)

/-- Tap `i` one code further in direction `d`, where its range allows it. -/
def tapMove (l : List Int) (i : Nat) (d : Int) : Option (List Int) :=
  let v := l.getD i 0 + d
  if (tapRange i).1 ≤ v ∧ v ≤ (tapRange i).2 then some (l.set i v) else none

/-- The next tap, or the second eye after the last one (R220). -/
def nextTap (x : TapRun) : TapRun × CalStage := if x.i < 8 then ({ x with i := x.i + 1, moves := 0 }, .tapHere) else (x, .eyeAfter)

/-- A metric is lower by at least one eighth (R220). -/
def eighthLower (m best : Nat) : Bool := decide (m < best) && decide (best ≤ 8 * (best - m))

/-- The better of the two moves is kept if it lowers the metric enough, and the tap goes on in its direction (R220). -/
def decideTap (x : TapRun) : TapRun × CalStage :=
  let d : Int := if x.up ≤ x.moves then 1 else -1
  let m := min x.up x.moves
  if eighthLower m x.best then
    match tapMove x.taps x.i d with
    | some l =>
      let y := { x with taps := l, best := m, dir := d, moves := 1 }
      match tapMove l x.i d with
      | some l2 => ({ y with taps := l2 }, .tapOn)
      | none => nextTap y
    | none => nextTap x
  else nextTap x

/-- A metric that no move can be better than: the move lies outside the tap's range. -/
def noMetric : Nat := 2 ^ 64

/-- The step down is tried, or none where the range forbids it. While `moves` counts no move it holds the metric of the step down. -/
def tryDown (x : TapRun) : TapRun × CalStage :=
  match tapMove x.taps x.i (-1) with
  | some l => ({ x with taps := l }, .tapDown)
  | none => decideTap { x with moves := noMetric }

/-- One evaluation of a tap ends with metric `m`; `hit` says that the lane replayed or FEC reported an uncorrectable block, which undoes the
move and freezes the tap (R220). -/
def tapStep (x : TapRun) (st : CalStage) (m : Nat) (hit : Bool) : TapRun × CalStage :=
  let undo := fun (d : Int) => x.taps.set x.i (x.taps.getD x.i 0 - d)
  match st with
  | .tapHere =>
    let y := { x with best := m, up := noMetric, moves := noMetric }
    match tapMove x.taps x.i 1 with
    | some l => ({ y with taps := l }, .tapUp)
    | none => tryDown y
  | .tapUp =>
    let y := { x with taps := undo 1 }
    if hit then nextTap y else tryDown { y with up := m }
  | .tapDown =>
    let y := { x with taps := undo (-1) }
    if hit then nextTap y else decideTap { y with moves := m }
  | .tapOn =>
    if hit ∨ !eighthLower m x.best then nextTap { x with taps := undo x.dir }
    else
      let y := { x with best := m, moves := x.moves + 1 }
      if 16 ≤ y.moves then nextTap y
      else match tapMove x.taps x.i x.dir with
        | some l => ({ y with taps := l }, .tapOn)
        | none => nextTap y
  | _ => (x, st)

/-- The record's taps (R228). -/
def putTaps (p : Nat) (l : List Int) (s : State) : State :=
  let t := s.mput ⟨recLane p + 16, 0, 4⟩ (unsigned 4 (l.getD 0 0))
  eachDo (List.range 8) (fun i u => u.mput ⟨recLane p + 20 + 4 * (i / 4), 8 * (i % 4), 8⟩ (unsigned 8 (l.getD (i + 1) 0))) t

/-- The taps of lane `p` in force. -/
def setTaps (p : Nat) (l : List Int) (s : State) : State := s.setLane p { (s.lane p) with taps := l }

/-- The trend of lane `p`'s eye, `w` by `h` now, against its fresh eye (R232). -/
def laneWear (u p w h : Nat) (s : State) : State :=
  let a := recLane p
  let dw := s.mget ⟨a + 32, 0, 8⟩ - w
  let dh := s.mget ⟨a + 32, 8, 16⟩ - h
  let worn := (s.wear.eyeW != 0 && decide (s.wear.eyeW < dw)) || (s.wear.eyeH != 0 && decide (s.wear.eyeH < dh))
  let was := s.mget (recWear a) == 1
  let t := s.mput (recWear a) (if worn then 1 else 0)
  if worn && !was then raiseW (srcLane p) .eyeWear (s.calBasket u p) (dw + 256 * dh) t else t

/-- Lane `p`'s run is accepted with an eye of `w` by `h`: its record, whose fresh eye is that of the first run at this rate, and its trend (R226, R228,
R232). -/
def laneAccept (u p w h : Nat) (taps : List Int) (s : State) : State :=
  let a := recLane p
  let t := putTaps p taps (acceptHeader a (sensorOf u p) s)
  let rate := s.get (LANE_STATUS_RATE p)
  let first := s.mget ⟨a + 32, 0, 24⟩ = 0 ∨ s.mget ⟨a + 16, 8, 2⟩ ≠ rate
  let t := ((t.mput ⟨a + 16, 8, 2⟩ rate).mput (recQuality a 0 8) w).mput (recQuality a 8 16) h
  laneWear u p w h (if first then (t.mput ⟨a + 32, 0, 8⟩ w).mput ⟨a + 32, 8, 16⟩ h else t)

/-- The eye after the moves is `w` by `h` (R220 step 4, R221 checks 0x0C and 0x0D): a run that fails returns the taps. -/
def eyeAfterEnd (u p : Nat) (r : CalRun) (w h : Nat) (s : State) : State :=
  let back := fun (check : Nat) => unitDone u (calReject u r check (setTaps p r.tap.before s))
  if w < 16 ∨ h < 20 then back 0x0C
  else if w + 2 < r.tap.eyeW ∨ h + 6 < r.tap.eyeH then back 0x0D
  else unitDone u (laneAccept u p w h r.tap.taps s)

/-- CAL_LANE_STEP_END: the eye monitor has scanned `e`, or a tap's evaluation has counted the mismatches `m` at its four points, on lane `p`; `hit` as in
`tapStep` (R219, R220). The taps move with each step. A paused unit does not go on (R208). -/
def execCalLaneStepEnd (p : Nat) (e : EyeScan) (m : List Nat) (hit : Bool) (s : State) : Out :=
  let u := unitLane p
  match (s.unit u).run with
  | some r =>
    let go := fun (x : TapRun) (st : CalStage) (t : State) =>
      setTaps p x.taps (setUnit u { (t.unit u) with run := some { r with tap := x, stage := st } } t)
    if s.unitPaused u = true then .next s
    else match r.stage with
    | .eyeBefore =>
      let a := recLane p
      let t := (s.mput ⟨a + 28, 0, 8⟩ (eyeWidth e)).mput ⟨a + 28, 8, 16⟩ (eyeHeight e)
      settled s (go { r.tap with eyeW := (eyeWidth e), eyeH := (eyeHeight e), i := 0 } .tapHere t)
    | .eyeAfter => settled s (eyeAfterEnd u p r (eyeWidth e) (eyeHeight e) s)
    | .tapHere | .tapUp | .tapDown | .tapOn =>
      let (x, st) := tapStep r.tap r.stage (m.take 4).sum hit
      settled s (go x st s)
    | _ => .next s
  | none => .next s

/-! ## Pauses, ages and conditions (R208, R224) -/

/-- CAL_PAUSE_TIMEOUT: unit `u`'s run has been paused without a break for 100 ms (R208). -/
def execCalPauseTimeout (u : Nat) (s : State) : Out :=
  if (s.unit u).run.isSome ∧ s.unitPaused u then settled s (unitSelect u (calAbandon 0x21 u s)) else .next s

/-- Every record, by unit and target, with its KIND (R226): the strands by physical number stand apart. -/
def allRecords : List (Nat × Nat × Nat × Nat) :=
  (List.range 1088).map (fun p => (recStrand p, 1, p / 17, p % 17)) ++ (List.range 256).map (fun n => (recReed n, 2, 64 + n / 64, n)) ++
    (List.range 20).map (fun p => (recRim p, 3, 68, p)) ++ (List.range 108).map (fun p => (recLane p, 4, 128 + p, p))

/-- Whether Tj is beyond 10 °C of `tj`, the rim word beyond 5 % of `word`, for a strand or a reed, and `optime` 43,200 minutes back (R224). -/
def State.expiry (s : State) (e : Nat × Nat × Nat × Nat) (c : CellCal) : Bool × Bool × Bool :=
  let (_, kind, u, x) := e
  let word := s.calWord u x
  (decide (100 < (s.tj (sensorOf u x) - c.tj).natAbs), decide (kind ≤ 2) && word != 0 && movedFive word c.word,
    decide (c.optime + 43200 ≤ s.get BIST_OPTIME_MINUTES))

/-- What a record was calibrated at (R226 to R228). -/
def State.recCal (s : State) (a : Nat) : CellCal :=
  { word := s.mget (recFreqN a) * 2 ^ 32 + s.mget (recFreqF a), tj := signed 16 (s.mget (recTj a)), optime := s.mget (recOptime a) }

/-- VALID or EXPIRED, of one that is not DEFAULT. -/
def stateOf (b : Bool) : Nat := if b then 2 else 1

/-- The EXP bits of a record, of which EXP_AGE stays once it is set, and the state that they give it (R224, R226). -/
def recheckBits (e : Nat × Nat × Nat × Nat) (s : State) : Bool × State :=
  let a := e.1
  let x := s.expiry e (s.recCal a)
  let age := x.2.2 || s.mget (recExpAge a) == 1
  let b := fun (p : Bool) => if p then 1 else 0
  (x.1 || x.2.1 || age, ((s.mput (recExpTj a) (b x.1)).mput (recExpFreq a) (b x.2.1)).mput (recExpAge a) (b age))

/-- The cells of a strand's record take the states that their conditions give: those of the record, or those of a run that was not accepted (R224). -/
def recheckCells (e : Nat × Nat × Nat × Nat) (bad : Bool) (s : State) : State :=
  let phys := 17 * e.2.2.1 + e.2.2.2
  worseCell phys (eachDo (List.range 3) (fun k u =>
    let c := cellState (cellAt phys k)
    if u.mget c = 0 then u
    else match u.cellCalOf phys k with
      | some x => let y := u.expiry e x; u.mput c (stateOf (y.1 || y.2.1 || y.2.2))
      | none => u.mput c (stateOf bad)) s)

/-- A record against the present Tj, rim word and operating time (R224); for a reed CAL_VALID follows. An entry into EXPIRED raises class W. -/
def recheckRecord (e : Nat × Nat × Nat × Nat) (s : State) : State :=
  let (a, kind, u, x) := e
  let was := (List.range 3).map fun k => s.mget (cellState (a + 24 + 24 * k))
  let t :=
    if kind = 1 then
      if s.mget (recState a) = 0 ∧ was.all (· == 0) then s
      else
        let (bad, t) := if s.mget (recSeq a) = 0 then (false, s) else recheckBits e s
        recheckCells e bad t
    else if s.mget (recState a) = 0 then s
    else
      let (bad, t) := recheckBits e s
      let t := t.mput (recState a) (stateOf bad)
      if kind = 2 then t.raise (REED_STATUS_CAL_VALID x) else t
  let enters := if kind = 1 then (List.range 3).any fun k => was.getD k 0 == 1 && t.mget (cellState (a + 24 + 24 * k)) == 2
    else s.mget (recState a) == 1 && t.mget (recState a) == 2
  if enters then raiseW (srcCal u) .calExpired (t.calBasket u x) kind t else t

/-- OPTIME_MINUTE: the operating-time counter advances by one minute, and calibrations 43,200 minutes old expire by age (R224). -/
def execOptimeMinute (s : State) : Out :=
  let t := s.incMod BIST_OPTIME_MINUTES
  let now := t.get BIST_OPTIME_MINUTES
  let old := allRecords.filter fun e =>
    (t.mget (recState e.1) != 0 && t.mget (recExpAge e.1) == 0 && decide (t.mget (recOptime e.1) + 43200 ≤ now)) ||
      (e.2.1 == 1 && (List.range 3).any fun k => match t.cellCalOf (17 * e.2.2.1 + e.2.2.2) k with | some c => decide (c.optime + 43200 ≤ now) | none => false)
  settled s (eachDo old recheckRecord t)

/-- CAL_CONDITION_CHANGE: sensor `i` reads `tj`, in 0.1 °C, or a rim word has moved; every record follows R224. -/
def execCalConditionChange (i : Nat) (tj : Int) (s : State) : Out :=
  if i < 16 then
    let t := s.put (PWR_TEMP_TJ i) (unsigned 12 tj)
    let t := if signed 12 (t.get (PWR_TEMP_MAX i)) < tj then t.put (PWR_TEMP_MAX i) (unsigned 12 tj) else t
    settled s (eachDo allRecords recheckRecord t)
  else .next s

end Sys2Proof.Machine
end

