-- ==== Sys2Proof/Machine/Commands.lean ====
section
/-! DEFINITION. Commands at parse: their checks, what is acted on at once, and what enters a ring (R30, R141 to R145, R156, R157, R206, R207,
R239 to R243). -/

namespace Sys2Proof.Machine

/-! ## What is parsed -/

/-- A command under parse: where it comes from, whether a CMD_U frame brought it, and its four words. -/
structure Parsed where
  src : CmdSrc
  urgent : Bool
  w0 : Word
  w1 : Word
  w2 : Word
  w3 : Word
deriving DecidableEq, Repr

/-- The words at the head of host ring `r` (R143, R238). -/
def State.headEntry (s : State) (r : Nat) : List Word := s.loadEntry (s.ringEntry r (s.get (RING_CONS_IDX r)))

/-- A command may be parsed on link `l`: while one waits there for a completion entry, only that one again (R239). -/
def State.ingress (s : State) (l : Nat) (u : Bool) (ws : List Word) : Bool :=
  (s.link l).stalled.isNone || (s.link l).stalled == some (u, ws)

/-- The command that comes: a lane's on arrival, while the lane carries sequenced frames towards the hub and its ingress does not wait for another
command, under the number of its link; a host ring's when it is at the head, while no command of the ring is queued already (R143, R239, R261). -/
def State.incoming (s : State) : CmdIn → Option Parsed
  | .lane p u w0 w1 w2 w3 =>
    if s.laneCarries p && p != 2 && p != 3 && s.ingress (s.linkOf p) u [w0, w1, w2, w3] then some ⟨.lane (s.linkOf p), u, w0, w1, w2, w3⟩ else none
  | .host r =>
    if s.get (RING_DESC1_KIND r) = 1 ∧ s.get (RING_PROD_IDX r) ≠ s.get (RING_CONS_IDX r) ∧ (s.ringHead? r).isNone then
      let e := s.headEntry r
      some ⟨.host r, false, e.getD 0 0, e.getD 1 0, e.getD 2 0, e.getD 3 0⟩
    else none

def Parsed.op (c : Parsed) : Nat := cmdOp c.w0
def Parsed.basket (c : Parsed) : Nat := cmdBasket c.w0
def Parsed.isHost (c : Parsed) : Bool := match c.src with | .host _ => true | .lane _ => false

/-- The source under which a lane feeds its rings: 0xF0 and 0xF1 for the warp lanes, the partner's handle for a weft lane (RING_SRC). -/
def State.feedOf (s : State) (p : Nat) : Nat := if p < 2 then 0xF0 + p else s.get (LANE_STATUS_HANDLE p)

/-! ## The checks of R144 -/

/-- A reserved bit is 1 (R141, R194, R206). -/
def reservedSet (c : Parsed) : Bool :=
  let op := cmdOp c.w0
  let t := cmdTarget c.w0
  bitsAt c.w0 7 1 != 0 || bitsAt c.w0 30 2 != 0 ||
    (op == 4 && t / 16 != 0) || ((op == 2 || op == 3) && t != 0) || ((op == 8 || op == 9 || op == 0xB) && t / 256 != 0) ||
    (op == 0xC && t / 32 != 0) || (op == 0xD && t / 128 != 0) || (op == 0xE && t / 16 != 0) ||
    ((op == 2 || op == 3 || op == 6 || op == 8 || op == 9) && cmdProfile c.w1 != 0) ||
    (decide (0xA ≤ op) && (bitsAt c.w1 3 17 != 0 || (op != 0xA && bitsAt c.w1 1 2 != 0))) ||
    (cmdClass c.w0 != 1 && (c.w2 != 0 || c.w3 != 0))

/-- DETAIL of the first part of R144's first check that fails; none where it passes. -/
def State.badCmd (s : State) (c : Parsed) : Option Nat :=
  let op := cmdOp c.w0
  if op = 0 ∨ op = 7 then some 1
  else if reservedSet c then some 2
  else if cmdSpec c.w0 ∧ op ≠ 1 ∧ op ≠ 4 then some 3
  else if 8 ≤ op ∧ cmdClass c.w0 ≠ 3 then some 4
  else match c.src with
    | .lane _ => if cmdAllChain c.w0 ∧ cmdChain c.w0 ≠ 0 then some 7 else none
    | .host r =>
      if cmdClass c.w0 ≠ s.get (RING_DESC1_CLASS r) then some 4
      else if cmdAllChain c.w0 ∨ cmdChain c.w0 ≠ 0 then some 7 else none

/-- The source is authorised for the basket that the command names (R33, R299, R319). -/
def State.authorised (s : State) (c : Parsed) : Bool :=
  let b := c.basket
  match c.src with
  | .lane p =>
    if p = 0 then s.flag (BSK_SRC0_WARP_A b) else if p = 1 then s.flag (BSK_SRC0_WARP_B b)
    else
      let h := s.get (LANE_STATUS_HANDLE p)
      decide (h < 96) && s.flag (mapBit (BSK_SRC_H b) h)
  | .host r => s.get (RING_DESC1_BASKET r) == b && (s.get (RING_DESC1_CLASS r) == 3 || s.flag (BSK_SRC0_HOST b))

/-- The command comes from a host ring whose latest doorbell the PF rang, while the PF is the keeper (R207). -/
def State.fromKeeper (s : State) (c : Parsed) : Bool :=
  match c.src with
  | .host r => s.isKeeper 0 && tabGet (fun _ => 0) s.dbFrom r == 0
  | .lane _ => false

/-- The plan gives strand `k` to basket `b`. -/
def State.ownsStrand (s : State) (b k : Nat) : Bool := (s.strand k).bound && (s.strandBasket k == some b)

/-- DETAIL of the target check that fails; none where the target may be named (R144, R195, R207). -/
def State.badTarget (s : State) (c : Parsed) : Option Nat :=
  let op := cmdOp c.w0
  let b := c.basket
  let k := cmdTarget c.w0
  let keeperOnly := !s.fromKeeper c || b != 0
  if op = 1 ∨ op = 5 ∨ op = 6 then (if s.ownsStrand b k then none else some 1)
  else if op = 4 then
    let n := bitsAt c.w0 20 4
    if s.flag (BSK_RIM_OWN_EXCL n) && (s.get (BSK_RIM_OWN_BASKET n) == b) then none else some 4
  else if op = 8 ∨ op = 9 ∨ op = 0xB then (if s.reedBasket (cmdReed c.w0) = some b then none else some 5)
  else if op = 0xA then
    if !s.ownsStrand b k then some 1
    else if bitsAt c.w1 2 1 = 1 ∧ s.get (WAL_SPARE_STATE (waleOf k)) ≠ 0 then some 8 else none
  else if op = 0xC then
    let p := cmdRim c.w0
    if 19 < p ∨ s.get ⟨RIM_FAILED, p, 1⟩ = 1 then some 0xA else if keeperOnly then some 7 else none
  else if op = 0xD then
    let p := cmdLane c.w0
    if 107 < p then some 0xA
    else if 4 ≤ p ∧ s.laneBasket p ≠ some b then some 6
    else if p < 4 ∧ keeperOnly then some 7
    else if !s.laneActive p then some 9 else none
  else if op = 0xE then (if keeperOnly then some 7 else none)
  else none

/-- The hop that holds tag `tag` in basket `b` (R155). -/
def State.tagHop (s : State) (b tag : Nat) : Option Hop := s.hops.find? fun h => h.spec && h.basket == b && h.tag == tag

/-- A CMD_U frame carries neither an URGENT command nor a COMMIT or SQUASH (R267). -/
def wrongFrame (c : Parsed) : Bool := c.urgent && cmdClass c.w0 != 0 && c.op != 2 && c.op != 3

/-- What the checks of R144, and after them that of R267, answer: the code and DETAIL of the first that fails. -/
def State.parseCheck (s : State) (c : Parsed) : Option (Nat × Nat) :=
  match s.badCmd c with
  | some d => some (cBAD_CMD, d)
  | none =>
    if !s.authorised c then some (cREJ_SOURCE, 0)
    else match s.badTarget c with
      | some d => some (cREJ_TARGET, d)
      | none =>
        if cmdSpec c.w0 && (s.tagHop c.basket (cmdTag c.w1)).isSome then some (cTAG_BUSY, 0)
        else if wrongFrame c then some (cBAD_CMD, 6) else none

/-! ## Rings and credits at parse -/

/-- The lane command ring of basket `b` and class `c` (R235). -/
def State.laneRing (s : State) (b c : Nat) : Option Nat :=
  s.rings.find? fun r => s.get (RING_DESC1_KIND r) == 2 && s.get (RING_DESC1_BASKET r) == b && s.get (RING_DESC1_CLASS r) == c

/-- Where ring `r` lists source `f`. -/
def State.srcIndex (s : State) (r f : Nat) : Option Nat := (List.range 6).find? fun j => s.get (RING_SRC_SRC r j) == f

/-- The ring of the basket and class that a lane command names, with the source's place in it, where the source holds a credit (R241). -/
def State.creditOf (s : State) (p : Nat) (c : Parsed) : Option (Nat × Nat) :=
  match s.laneRing c.basket (cmdClass c.w0) with
  | some r => match s.srcIndex r (s.feedOf p) with
    | some j => if s.get (RING_SRC_OUT_HELD r j) = 0 then none else some (r, j)
    | none => none
  | none => none

/-- The command takes a credit: ARM, RETUNE, START, STOP, MEASURE, MEASURE_STOP and CAL_* do (R241). -/
def takesCredit (c : Parsed) : Bool := [1, 4, 5, 6, 8, 9, 0xA, 0xB, 0xC, 0xD, 0xE].contains c.op

/-- A lane command rejected at parse returns the credit that it took (R241). -/
def returnCredit (p : Nat) (c : Parsed) (s : State) : State :=
  if takesCredit c then
    match s.creditOf p c with
    | some (r, j) => (s.put (RING_SRC_OUT_HELD r j) (s.get (RING_SRC_OUT_HELD r j) - 1)).addSat (RING_SRC_OUT_OWED r j) 1
    | none => s
  else s

/-- A lane's completion needs an entry of the basket's ring: REPLY names the ring, and the source is authorised for the basket (R240). -/
def State.needsEntry (s : State) (c : Parsed) (code : Nat) : Bool := cmdReply c.w0 != 1 && code != cREJ_SOURCE && s.authorised c

/-- The completion of a command that never becomes a hop: a host ring's in its own basket's ring, a lane's where REPLY names it and the source
may reach; one that REJ_SOURCE ends, or that comes from a source without authorisation, goes to its lane alone (R145, R239, R240). None where
no entry is free: the command waits (R239). -/
def answer (c : Parsed) (code detail : Nat) (s : State) : Option State :=
  let s' := if code = cREJ_SOURCE then s.incSat (BSK_REJ_CNT_REJ_SOURCE c.basket)
    else if code = cREJ_TARGET then s.incSat (BSK_REJ_CNT_REJ_TARGET c.basket) else s
  match c.src with
  | .host r =>
    let hb := s.get (RING_DESC1_BASKET r)
    if s.canReserve hb then
      let t := (s'.put (RING_CONS_IDX r) (s.get (RING_CONS_IDX r) + 1)).setReserved hb (s.reservedOf hb + 1)
      some (writeCpl c.src true c.w0 c.w1 code detail 0 t)
    else none
  | .lane p =>
    if s.needsEntry c code then
      if s.canReserve c.basket then
        some (writeCpl c.src true c.w0 c.w1 code detail 0 (s'.setReserved c.basket (s.reservedOf c.basket + 1)))
      else none
    else some (cplToLane p c.basket (cplWords c.w0 c.w1 code detail 0) s')

/-- A command answered at parse; a rejected lane command's credit returns. None where it must wait. -/
def answerOr (c : Parsed) (code detail : Nat) (s : State) : Option State :=
  (answer c code detail s).map fun t => match c.src with | .lane p => returnCredit p c t | .host _ => t

/-- A host entry that has been acted on without a completion leaves its ring. -/
def consume (c : Parsed) (s : State) : State :=
  match c.src with
  | .host r => s.put (RING_CONS_IDX r) (s.get (RING_CONS_IDX r) + 1)
  | .lane _ => s

/-! ## COMMIT and SQUASH (R156, R157) -/

/-- A COMMIT is acted on; none where its answer must wait for an entry. -/
def actCommit (c : Parsed) (s : State) : Option State :=
  match s.tagHop c.basket (cmdTag c.w1) with
  | none => answerOr c cTAG_UNKNOWN 0 s
  | some h =>
    if h.squashed then answerOr c cTAG_UNKNOWN 1 s
    else if h.released then some (consume c s)
    else if h.st = .speculative then
      let t := (consume c s).modHop h.id fun x => { x with released := true }
      some (armHop { h with released := true } t)
    else some ((consume c s).modHop h.id fun x => { x with released := true })

/-- A SQUASH is acted on; none where its answer must wait for an entry. -/
def actSquash (c : Parsed) (s : State) : Option State :=
  match s.tagHop c.basket (cmdTag c.w1) with
  | none => answerOr c cTAG_UNKNOWN 0 s
  | some h =>
    if h.squashed then some (consume c s)
    else if h.released then answerOr c cSQUASH_LATE 0 s
    else if h.st = .speculative then some (completeHop h cSQUASHED 0 0 (consume c s))
    else some ((consume c s).modHop h.id fun x => { x with squashed := true })

/-! ## Entering a ring -/

/-- The full fire value of a TIMED command: the one within 2^15 s of the tally whose low 64 bits are W2 and W3, the later of two (R142;
DEDUCED, log entry 40). -/
def fireValue (now lo : Nat) : Nat :=
  let m := 2 ^ 64
  let d := (lo + m - now % m) % m
  let f := if d ≤ m / 2 then now + d else now + d - m
  f % 2 ^ 96

/-- The hop of a command that has passed. -/
def newHop (c : Parsed) (feed : Option Nat) (ring : Nat) (reserved : Bool) (s : State) : State :=
  let fire := if cmdClass c.w0 = 1 then fireValue s.tally (c.w2.toNat + 2 ^ 32 * c.w3.toNat) else 0
  let h : Hop := { id := s.nextId, w0 := c.w0, w1 := c.w1, src := c.src, feed := feed, ring := ring, st := .queued, released := false, squashed := false, record := [], fire := fire, armSeq := 0, heldAt := 0, reserved := reserved }
  { s with hops := s.hops ++ [h], nextId := s.nextId + 1 }

/-- A lane command without credit: BAD_CMD with DETAIL 0x05, counted and reported; a partial reweave of its basket that applies raises no
fault (R242, R312, R363). Its DETAIL names the ring; where the basket has none of the class it is a free value. -/
def noCredit (p : Nat) (c : Parsed) (s : State) : Option State :=
  (answerOr c cBAD_CMD 5 s).map fun t =>
    let b := c.basket
    let t := ((t.incSat (RING_BSK_CNT1_CREDIT_VIOL b)).raise (RING_EVENT_CREDIT_VIOL 0)).raise (RING_EVENT_CREDIT_VIOL (b + 1))
    if t.loadState == pAPPLYING && t.load.frag.isSome && t.get PLAN_STATUS_BASKET == b then t
    else
      let (i, t) := t.fresh
      raiseFault (srcLane p) .creditViol (some b) ((t.laneRing b (cmdClass c.w0)).getD (Config.freeNat i)) t

/-- A command that has passed R144 enters its ring; a host command waits at the head of its ring while no entry can be reserved (R143, R239,
R241). -/
def enterRing (c : Parsed) (s : State) : Option State :=
  match c.src with
  | .host r =>
    let b := c.basket
    if s.canReserve b then some (newHop c none r true (s.setReserved b (s.reservedOf b + 1))) else none
  | .lane p =>
    match s.creditOf p c with
    | none => noCredit p c s
    | some (r, j) =>
      let i := s.get (RING_PROD_IDX r)
      let t := storeEntry (s.ringEntry r i) [c.w0, c.w1, c.w2, c.w3] s
      let t := (t.put (RING_PROD_IDX r) (i + 1)).put (RING_SRC_OUT_HELD r j) (s.get (RING_SRC_OUT_HELD r j) - 1)
      some (newHop c (some (s.feedOf p)) r false t)

/-- Commands complete ABORTED at parse: after a class G fault, and during shutdown (R365, R403). -/
def State.abortsAll (s : State) : Bool := s.flag FC_STATUS_G_ACTIVE || s.get PWR_STATUS_STAGE == 4 || s.get PWR_STATUS_STAGE == 5

/-- A command addressed to this hub is parsed (R144); none where it must wait (DEDUCED, log entry 43). -/
def parse (c : Parsed) (s : State) : Option State :=
  match s.parseCheck c with
  | some (code, d) => answerOr c code d s
  | none =>
    if s.abortsAll then answerOr c cABORTED 0 s
    else if c.op = 2 then actCommit c s
    else if c.op = 3 then actSquash c s
    else enterRing c s

/-- A command is for this hub: a host ring's is; a lane's carries its chain position or the chain-wide address (R30). -/
def State.addressed (s : State) (c : Parsed) : Bool :=
  c.isHost || cmdAllChain c.w0 || cmdChain c.w0 == s.get TAL_STATUS_CHAIN_POS

/-- A lane's frame has been received in order, and a warp lane's command leaves on the chain port of the same letter whatever its address,
while that port carries a signal (R29, R30, R268, R282). -/
def forward (c : Parsed) (s : State) : State :=
  match c.src with
  | .lane p =>
    let x := s.link p
    let t := s.setLink p { x with rxNext := (x.rxNext + 1) % 4096, owed := x.owed + 1, nakked := false, stalled := none }
    if p < 2 ∧ t.laneActive p ∧ t.laneActive (2 + p) then sendFrame (2 + p) (.cmd c.urgent [c.w0, c.w1, c.w2, c.w3]) t else t
  | .host _ => s

/-- A command waits for a completion entry: a lane's holds the ingress of its link (R239). -/
def stall (c : Parsed) (s : State) : State :=
  match c.src with
  | .lane p => s.setLink p { (s.link p) with stalled := some (c.urgent, [c.w0, c.w1, c.w2, c.w3]) }
  | .host _ => s

/-- A command is parsed and forwarded; one that must wait for a completion entry holds its lane's ingress, or its ring, and comes again (R239;
DEDUCED, log entry 27). -/
def receive (c : Parsed) (s : State) : State :=
  if c.op = 0xF then forward c (consume c s)
  else if s.addressed c then
    match parse c s with
    | some t => forward c t
    | none => stall c s
  else forward c s

/-- Command `c` comes and is parsed, where its OP is one that `ops` admits. -/
def command (ops : Nat → Bool) (c : CmdIn) (s : State) : Out :=
  match s.incoming c with
  | some p => if ops p.op then done s (receive p s) else .next s
  | none => .next s

/-- ARM: a new setting for a strand (R141, R144, R146). -/
def execHopArm (c : CmdIn) (s : State) : Out := command (· == 1) c s

/-- COMMIT: releases a speculative hop (R156). -/
def execHopCommit (c : CmdIn) (s : State) : Out := command (· == 2) c s

/-- SQUASH: withdraws a speculative hop (R157). -/
def execHopSquash (c : CmdIn) (s : State) : Out := command (· == 3) c s

/-- RETUNE: a new frequency word for a rim (R165). -/
def execHopRetune (c : CmdIn) (s : State) : Out := command (· == 4) c s

/-- START: starts a strand (R163). -/
def execStrandStart (c : CmdIn) (s : State) : Out := command (· == 5) c s

/-- STOP: stops a strand (R164). -/
def execStrandStop (c : CmdIn) (s : State) : Out := command (· == 6) c s

/-- NOP: consumed at parse, before any check (R141). -/
def execNopCmd (c : CmdIn) (s : State) : Out := command (· == 0xF) c s

/-- INVALID_OP: an OP of 0x0 or 0x7 completes BAD_CMD with DETAIL 0x01 (R144). -/
def execInvalidOp (c : CmdIn) (s : State) : Out := command (fun o => o == 0 || o == 7) c s

/-- MEASURE: starts a run on a reed (R194, R195). -/
def execReedMeasure (c : CmdIn) (s : State) : Out := command (· == 8) c s

/-- MEASURE_STOP: ends the run in progress on a reed (R194, R195). -/
def execMeasureStop (c : CmdIn) (s : State) : Out := command (· == 9) c s

/-- CAL_STRAND: calibrates a strand, or its wale's spare (R206, R207). -/
def execCalStrand (c : CmdIn) (s : State) : Out := command (· == 0xA) c s

/-- CAL_REED: calibrates a reed (R206, R207, R216). -/
def execCalReed (c : CmdIn) (s : State) : Out := command (· == 0xB) c s

/-- CAL_RIM: sweeps a rim that is not in service, or measures the margin of one that is (R206, R207, R218). -/
def execCalRim (c : CmdIn) (s : State) : Out := command (· == 0xC) c s

/-- CAL_LANE: calibrates a lane (R206, R207, R220). -/
def execCalLane (c : CmdIn) (s : State) : Out := command (· == 0xD) c s

/-- CAL_STORE: writes calibration groups to NVM (R206, R207, R231). -/
def execCalStore (c : CmdIn) (s : State) : Out := command (· == 0xE) c s

end Sys2Proof.Machine
end

