-- ==== Sys2Proof/Machine/Hearth.lean ====
section
/-! DEFINITION. The hearth: its sources' qualification, its PLL's states and its registers' commands (R42 to R66, R78). -/

namespace Sys2Proof.Machine

/-- XREF_ACTIVITY_TRIP: no XREF transition for 500 ns; XREF becomes ABSENT (R45, R47). With XREF_PRESENT 0 its monitors are off (R44). -/
def execXrefActivityTrip (s : State) : Out :=
  if s.flag HRT_SRC_STATUS_XREF_PRESENT ∧ s.flag (HRT_SRC_STATUS_ACT 2) then
    done s (monitorTrip 2 0 qABSENT (s.lower (HRT_SRC_STATUS_ACT 2)))
  else .next s

/-- XREF_ACTIVITY_RETURN: XREF moves from ABSENT to SETTLING, and its settle delay starts (R45, R51). -/
def execXrefActivityReturn (s : State) : Out :=
  if s.flag HRT_SRC_STATUS_XREF_PRESENT ∧ s.qstate 2 = qABSENT then
    let t := (s.put (HRT_SRC_STATUS_QSTATE 2) qSETTLING).raise (HRT_SRC_STATUS_ACT 2)
    done s { t with hrt := { t.hrt with settleFrom := t.elapsed } }
  else .next s

/-- XREF_SETTLE_ELAPSED: the settle delay has run, and XREF enters CHECKING (R45, R51). -/
def execXrefSettleElapsed (s : State) : Out :=
  if s.qstate 2 = qSETTLING then done s (s.put (HRT_SRC_STATUS_QSTATE 2) qCHECKING) else .next s

/-- WARP_SOURCE_PRESENT: warp source `x` has CDR lock and block lock, and enters CHECKING (R45). -/
def execWarpSourcePresent (x : Nat) (s : State) : Out :=
  if x < 2 ∧ s.qstate x = qABSENT then
    done s ((s.put (HRT_SRC_STATUS_QSTATE x) qCHECKING).raise (HRT_SRC_STATUS_ACT x))
  else .next s

/-- QUALIFICATION_WINDOW_ELAPSED: every monitor that applies to each of the sources `xs` has passed for 1 ms, at one moment (R45, R59). -/
def execQualificationWindowElapsed (xs : List Nat) (s : State) : Out :=
  match xs.filter fun x => decide (x < 3) && s.qstate x == qCHECKING with
  | [] => .next s
  | ys => done s (sourcesQualified ys s)

/-- COARSE_FREQ_GATE_END: a 100 µs gate on source `x` measured an offset of `off` ppb; beyond ±2,000 ppm it trips (R47). HRT_FOFF shows
the offset while the monitor oscillator is the timebase (R48). -/
def execCoarseFreqGateEnd (x : Nat) (off : Int) (s : State) : Out :=
  if x < 3 ∧ (s.qstate x = qCHECKING ∨ s.qstate x = qQUALIFIED) then
    let t := if s.hearthTimebase then s else s.setReg (HRT_FOFF_A + 4 * x) (BitVec.ofInt 32 off)
    if off.natAbs ≤ 2000000 then done s (t.raise (HRT_SRC_STATUS_COARSE_OK x))
    else done s (monitorTrip x 2 qCHECKING (t.lower (HRT_SRC_STATUS_COARSE_OK x)))
  else .next s

/-- FINE_FREQ_GATE_END: a 1 ms gate on source `x`, not selected and not ABSENT, against the hearth output measured `off` ppb; beyond ±FWIN ppm it
trips, which sends a source CHECKING or QUALIFIED to CHECKING and leaves XREF SETTLING (R45, R47, R48). -/
def execFineFreqGateEnd (x : Nat) (off : Int) (s : State) : Out :=
  if x < 3 ∧ s.sel ≠ x ∧ s.hearthTimebase ∧ s.qstate x ≠ qABSENT then
    let t := s.setReg (HRT_FOFF_A + 4 * x) (BitVec.ofInt 32 off)
    if off.natAbs ≤ 1000 * s.get HRT_MON_CFG_FWIN then done s (t.raise (HRT_SRC_STATUS_FINE_OK x))
    else done s (monitorTrip x 3 (min (s.qstate x) qCHECKING) (t.lower (HRT_SRC_STATUS_FINE_OK x)))
  else .next s

/-- PHASE_HIT: the phase of source `x` against the hearth output moved by `mv` fs within 1 µs, to `ph` fs as tracked; beyond PHIT it
trips, for XREF only while selected (R47, R53, R57). -/
def execPhaseHit (x : Nat) (mv ph : Int) (s : State) : Out :=
  if x < 3 ∧ (x < 2 ∨ s.sel = 2) ∧ (s.qstate x = qCHECKING ∨ s.qstate x = qQUALIFIED) ∧ 100000 * s.get HRT_MON_CFG_PHIT < mv.natAbs then
    let t := if x < 2 then s.setReg (HRT_PHASE_A + 4 * x) (BitVec.ofInt 32 ph) else { s with hrt := { s.hrt with phaseX := ph } }
    let t := { t with hrt := { t.hrt with seen := noteSource t.hrt.seen x t.fine, hits := noteSource t.hrt.hits x t.elapsed } }
    done s (monitorTrip x 4 qCHECKING (t.raise (HRT_SRC_STATUS_PHIT x)))
  else .next s

/-- HEARTH_LOCK_DECLARE: the hearth, acquiring from a QUALIFIED source, declares lock and enters LOCKED; the staircase starts from
4 kHz, the WAIT causes clear, and at the first lock the tally and the transmitters move to the hearth (R52 to R54, R62, R82). -/
def execHearthLockDeclare (s : State) : Out :=
  if (s.hearth = hACQUIRE ∨ s.hearth = hWAIT) ∧ s.sel < 3 ∧ s.qstate s.sel = qQUALIFIED then
    let w := s.hearth == hWAIT
    let t := (s.put HRT_STATUS_STATE hLOCKED).put HRT_STATUS_LEFT 0
    let t := if t.hrt.everLocked then t else tallyHandover { t with hrt := { t.hrt with everLocked := true } }
    let t := { t with hrt := { t.hrt with bwNow := 12, frozen := false } }
    if w then
      let t := (loseHistory t).raise HRT_EVENT_WAIT_EXIT
      let t := unparkSpokes SPK_STATUS_C_HEARTH allSpokes t
      settled s (eachDo (List.range 64) (clearCause srcHearth .hearthWait) t)
    else settled s t
  else .next s

/-- HEARTH_UNLOCK: the hearth declares unlock while LOCKED, enters WAIT and reacquires from its current source (R53, R64). -/
def execHearthUnlock (s : State) : Out :=
  if s.hearth = hLOCKED then done s (enterWait 1 (s.raise HRT_EVENT_UNLOCK)) else .next s

/-- HEARTH_BW_STEP: the bandwidth steps one code towards HRT_CTRL.BW (R54). -/
def execHearthBwStep (s : State) : Out :=
  let g := s.get HRT_CTRL_BW
  let b := s.hrt.bwNow
  if s.hearth = hLOCKED then
    done s { s with hrt := { s.hrt with bwNow := if g < b then b - 1 else if b < g then b + 1 else b } }
  else .next s

/-- REVERTIVE_WTR_ELAPSED: source `x`, above the selected one in PRIO, has been QUALIFIED for WTR; with REVERTIVE set in AUTO mode the
hub switches back to it (R55). -/
def execRevertiveWtrElapsed (x : Nat) (s : State) : Out :=
  if x < 3 ∧ s.hearth = hLOCKED ∧ s.get HRT_CTRL_MODE = 0 ∧ s.flag HRT_CTRL_REVERTIVE ∧ s.qstate x = qQUALIFIED ∧ s.rank x < s.rank s.sel then
    done s (switchTo x s)
  else .next s

/-- HOLDOVER_WINDOW_EXPIRE: HOLD_WIN expires with no source qualified (R61, R63). -/
def execHoldoverWindowExpire (s : State) : Out :=
  if s.hearth = hHOLDOVER then settled s (enterLost s) else .next s

/-- WAIT_MAX_EXPIRE: WAIT_MAX expires (R62, R63). -/
def execWaitMaxExpire (s : State) : Out :=
  if s.hearth = hWAIT then settled s (enterLost s) else .next s

/-- REACQUISITION_FAIL: an attempt has not declared lock within 10 ms; a third within 1 s takes the hearth to LOST (R64). -/
def execReacquisitionFail (s : State) : Out :=
  if s.hearth = hWAIT ∧ s.sel < 3 then
    let f := s.elapsed :: s.hrt.fails.filter fun x => decide (s.elapsed < x + msec 1000)
    let t := { s with hrt := { s.hrt with fails := f } }
    if 3 ≤ f.length then settled s (enterLost t) else settled s t
  else .next s

/-- HISTORY_VALID: the hearth has been LOCKED to a QUALIFIED source for 2 s without a break (R60). -/
def execHistoryValid (s : State) : Out :=
  if s.hearth = hLOCKED then done s (s.raise HRT_STATUS_HIST_VALID) else .next s

/-- REQUALIFY_X in HRT_CMD by master `m`: XREF returns to SETTLING and its full settle delay starts again (R45, R51). -/
def execRequalifyX (m : Nat) (s : State) : Out :=
  done s <| gateWrite m HRT_CMD true (fun s =>
    if s.flag HRT_SRC_STATUS_XREF_PRESENT then
      let t := { s with hrt := { s.hrt with settleFrom := s.elapsed } }
      if s.qstate 2 = qABSENT then t else unqualify 2 qSETTLING t
    else s) s

/-- CLEAR_HISTORY in HRT_CMD by master `m` (R60). -/
def execClearHistory (m : Nat) (s : State) : Out := done s (gateWrite m HRT_CMD true loseHistory s)

/-- SWITCH_NOW in HRT_CMD by master `m`: in AUTO mode the highest-priority QUALIFIED source is selected at once; in FORCED mode it is
ignored and sets VAL_REJ (R55). -/
def execHrtSwitchNow (m : Nat) (s : State) : Out :=
  done s <| gateWrite m HRT_CMD true (fun s =>
    if s.get HRT_CTRL_MODE = 1 then s.raise HRT_EVENT_VAL_REJ
    else match s.bestSource with
      | some y => takeSource y s
      | none => s) s

/-- A value that HRT_CTRL refuses because of a field (HRT_CTRL). -/
def hrtCtrlBad (v : Word) : Bool :=
  decide (1 < bitsAt v 0 2) || bitsAt v 2 2 == 3 || decide (5 < bitsAt v 5 3) || decide (12 < bitsAt v 16 4) || decide (5 < bitsAt v 20 4)

/-- HRT_CTRL_WRITE: master `m` writes `v` to HRT_CTRL; a bad field ignores the whole write, and so does a force to a source that is not
QUALIFIED (R46, R56). A force that is accepted selects its source (R57); while acquiring, a new MODE or PRIO selects again (R52). -/
def execHrtCtrlWrite (m : Nat) (v : Word) (s : State) : Out :=
  done s <| gateWrite m HRT_CTRL true (fun s =>
    if hrtCtrlBad v then s.raise HRT_EVENT_VAL_REJ
    else
      let f := bitsAt v 2 2
      if bitsAt v 0 2 = 1 ∧ s.qstate f ≠ qQUALIFIED then s.raise HRT_EVENT_FORCE_REJ
      else
        let t := s.setReg HRT_CTRL v
        let t := if bitsAt v 20 4 = 0 then t.lower HRT_STATUS_SLEWING else t
        if bitsAt v 0 2 = 1 then takeSource f t else reselect t) s

/-- HRT_XREF_SETTLE_WRITE: master `m` writes the settle delay `v`; it applies to a count in progress, and XREF enters CHECKING at once
where the time elapsed already reaches it (R51). -/
def execHrtXrefSettleWrite (m : Nat) (v : Word) (s : State) : Out :=
  done s <| gateWrite m HRT_XREF_SETTLE true (fun s =>
    let x := bitsAt v 0 14
    if x = 0 ∨ 10000 < x then s.raise HRT_EVENT_VAL_REJ
    else
      let t := s.setReg HRT_XREF_SETTLE v
      if s.qstate 2 = qSETTLING ∧ s.hrt.settleFrom + x * 2 ^ 48 / 10000 ≤ s.elapsed then t.put (HRT_SRC_STATUS_QSTATE 2) qCHECKING else t) s

end Sys2Proof.Machine
end

