-- ==== Sys2Proof/Machine/LcOps.lean ====
section
/-! DEFINITION. The fuse array, what the life cycle shows of it, erasure, and how a plan in force is dropped (R401, R427 to R435). -/

namespace Sys2Proof.Machine

/-! ## Fuses (R428 to R430) -/

/-- Bits of fuse word `w` are blown: a blown bit stays blown (R429). -/
def blow (w : Nat) (v : Word) (s : State) : State := { s with fuses := tabSet (fun _ => (0 : Word)) s.fuses w (s.fuse w ||| v) }

/-- The words from `lo` on, `n` of them, all read `v`. -/
def State.fusesAll (s : State) (lo n : Nat) (v : Word) : Bool := (List.range n).all fun i => s.fuse (lo + i) == v

/-- A key field is neither empty nor erased (R429). -/
def State.keyField (s : State) (lo n : Nat) : Bool := !s.fusesAll lo n 0 && !s.fusesAll lo n (BitVec.ofNat 32 0xFFFFFFFF)

/-- The owner slot `k` is revoked in either copy (R430). -/
def State.revoked (s : State) (k : Nat) : Bool := (s.fuse 2).getLsbD k || (s.fuse 3).getLsbD k

/-- The blown bits of the life-cycle field, a bit counting where either copy has it (R428). -/
def State.lcBits (s : State) : Nat := bitsAt (s.fuse 0 ||| s.fuse 1) 0 5

/-- The state that the fuses name: the highest blown bit's, or BLANK (R428). -/
def State.fusedState (s : State) : Nat := if s.lcBits = 0 then 0 else Nat.log2 s.lcBits + 1

/-- Both boot slots are invalid. -/
def State.bootErased (s : State) : Bool := !(s.slot 5 0).valid 5 && !(s.slot 5 1).valid 5

/-- Every fuse and slot that the state leaves behind is erased (R435). -/
def State.erased (s : State) : Bool :=
  let ones := BitVec.ofNat 32 0xFFFFFFFF
  decide (4 ≤ s.fusedState) && s.revoked 0 && s.revoked 1 && s.fusesAll 80 8 ones && s.bootErased && (s.fusedState != 5 || s.fusesAll 8 72 ones)

/-- LC_STATUS as the fuses give it (R428, R429). -/
def lcRefresh (s : State) : State :=
  let x := s.fusedState
  let k := fun (b : Bool) (n : Nat) => if b then n else 0
  let keys := k (s.keyField 8 24) 1 + k (s.keyField 32 24 && !s.revoked 0) 2 + k (s.keyField 56 24 && !s.revoked 1) 4
  let t := ((s.put LC_STATUS_STATE x).putFlag LC_STATUS_GAP (s.lcBits + 1 != 2 ^ x)).put LC_STATUS_KEYS keys
  t.putFlag LC_STATUS_PLAN_KEY (s.keyField 80 8)

/-- The identity that the fuses hold, loaded at start-up (R2, R17, R430, R438, R454): the variant and its limits, the serial number, the identifiers, and
IDCODE. R430 does not number the fields within words 88 to 95: SERIAL is word 88, VENDOR and DEVICE word 89, and bit 0 of word 90 makes an LXG1024-H
(DESIGN CHOICE, log entry 99). Where the coverage of logic BIST lies is not stated either: it is free. -/
def loadIdentity (s : State) : State :=
  let h := bitsAt (s.fuse 90) 0 1
  let t := (s.put DEV_ID_VARIANT h).setReg DEV_LIMITS (BitVec.ofNat 32 (if h = 1 then 0x22040200 else 0x44080400))
  let t := (t.setReg DEV_SERIAL (s.fuse 88)).setReg DEV_IDENT (s.fuse 89)
  let t := t.put ⟨LC_IDCODE, 12, 16⟩ (if h = 1 then 0x1124 else 0x1024)
  eachDo (List.range 16) (fun g u => u.put ⟨BIST_LOGIC g, 0, 20⟩ (Config.coverage g)) t

/-! ## Erasure (R435) -/

/-- The stores that erasure zeroes: the profile, queue and measure stores and the staging area (R435). -/
def erasedStore (a : Nat) : Bool :=
  decide (0x04000000 ≤ a ∧ a < 0x04200000) || decide (0x08000000 ≤ a ∧ a < 0x08C00000) || decide (0x10000000 ≤ a ∧ a < 0x12000000) ||
    decide (0x14000000 ≤ a ∧ a < 0x15000000)

/-- The fuse words that erasure blows in the state reached (R435). -/
def eraseFuses (s : State) : State :=
  let ones := BitVec.ofNat 32 0xFFFFFFFF
  let t := blow 3 3 (blow 2 3 s)
  let t := eachDo ((List.range 8).map (· + 80)) (fun w u => blow w ones u) t
  if t.fusedState = 5 then eachDo ((List.range 72).map (· + 8)) (fun w u => blow w ones u) t else t

/-- Erasure: the secrets of the state left behind go, and ERASED shows it (R435). -/
def erase (s : State) : State :=
  let t := eraseFuses s
  let t := ((t.setSlot 5 0 {}).setSlot 5 1 {}).put PLAN_MIN_SEQ_MIN 0
  let t := { t with mem := t.mem.filter fun c => !erasedStore c.1 }
  let t := lcRefresh t
  if t.flag LC_STATUS_ERASED then t else (t.raise LC_STATUS_ERASED).raise LC_EVENT_ERASE_DONE

/-- An erasure that is not complete is completed (R433, R435). -/
def completeErasure (s : State) : State := if 4 ≤ s.fusedState then (if s.erased then s.raise LC_STATUS_ERASED else erase s) else s

/-! ## The plan dropped (R401 steps 2 to 5, R432) -/

/-- The plan in force is dropped: every spoke parks with C_FORCE, every hop ends, every ring is reset, every partner and warp lane is sent RET 0x0B,
every strand stops and every rim goes OFF (DEDUCED, log entry 69). -/
def dropPlan (s : State) : State :=
  let t := dropAll SPK_STATUS_C_FORCE s
  let up := (List.range 108).filter fun p => t.laneActive p && t.linkOf p == p && p != 2 && p != 3
  let t := eachDo up (fun l u => retireLink l 0x0B false u) t
  let t := { t with plan := none, moving := [], load := {} }
  let t := ((t.lower PLAN_STATUS_IN_FORCE).setReg PLAN_ID 0).setReg PLAN_SEQ 0
  let t := if t.loadState = pAPPLYING then t.put PLAN_STATUS_STATE pIDLE else t
  let t := loadAll {} t
  faultN (eachDo (List.range 64) releaseCauses t)

end Sys2Proof.Machine
end

