-- ==== Sys2Proof/Machine/LifeCycle.lean ====
section
/-! DEFINITION. The commands of the life cycle and of the fuses (R427 to R435, R441, R443). -/

namespace Sys2Proof.Machine

/-! ## What a command needs (R431, R432) -/

/-- Argument word `i` of LC_ARG. -/
def State.lcArg (s : State) (i : Nat) : Word := s.opnd (LC_ARG i)

/-- The argument words clear as a command completes or is refused (LC_ARG). -/
def clearArgs (s : State) : State := { s with opnds := s.opnds.filter fun c => c.1 < LC_ARG 0 || LC_ARG 56 ≤ c.1 }

/-- Fuse word and bits of each key word that a command writes, in ascending words (R430, R431). -/
def keyWrites (code : Nat) (arg : Nat → Word) : List (Nat × Word) :=
  if code = 1 then (List.range 24).map fun i => (8 + i, arg i)
  else if code = 2 then ((List.range 48).map fun i => (32 + i, arg i)) ++ (List.range 8).map fun i => (80 + i, arg (48 + i))
  else []

/-- Both copies of the state or revocation bit of a command, copy A first (R428, R430, R433). -/
def stateWrites (code slot : Nat) : List (Nat × Word) :=
  let two := fun (w b : Nat) => [(w, BitVec.ofNat 32 (2 ^ b)), (w + 1, BitVec.ofNat 32 (2 ^ b))]
  if code = 1 then two 0 0 else if code = 2 then two 0 1 else if code = 3 then two 0 2 else if code = 5 then two 0 3
  else if code = 6 then two 0 4 else two 2 slot

/-- The fuse words that erasure blows, in the order in which it blows them (R435). -/
def eraseWrites (code : Nat) : List (Nat × Word) :=
  let ones := BitVec.ofNat 32 0xFFFFFFFF
  let all := fun (lo n : Nat) => (List.range n).map fun i => (lo + i, ones)
  if code = 5 then [(2, 3), (3, 3)] ++ all 80 8 else if code = 6 then [(2, 3), (3, 3)] ++ all 80 8 ++ all 8 72 else []

/-- Every fuse write of a command, in the order of R433. -/
def lcWrites (j : LcJob) : List (Nat × Word) :=
  keyWrites j.code (fun i => j.args.getD i 0) ++ stateWrites j.code j.slot ++ eraseWrites j.code

/-- The move of a command starts from the present state (R431). -/
def State.moveOk (s : State) (code : Nat) : Bool :=
  let x := s.lcState
  if code = 1 then x == 0 else if code = 2 then x == 1 else if code = 3 then x == 2 else if code = 4 then true
  else if code = 5 then x == 3 else if code = 6 then x != 5 else if code = 7 then x == 2 || x == 3 else false

/-- The keeper is attached under a key that R431 takes for the command; REVOKE names the other slot. -/
def State.keeperKeyOk (s : State) (code slot : Nat) : Bool :=
  let k := s.get BSK_KEEPER_STATUS_KEY_ID
  if code = 1 then k == 3 else if code = 2 then k == 2 else if code = 3 ∨ code = 5 then k == 0 || k == 1
  else if code = 6 then (if s.lcState = 0 then k == 3 else s.keyOk k)
  else if code = 7 then (k == 0 || k == 1) && slot == 1 - k else true

/-- Why a command is refused, the first reason in the order of R432; none where it is accepted. -/
def lcReason (code slot confirm : Nat) (s : State) : Option Nat :=
  if !s.moveOk code then some 2
  else if !s.keeperKeyOk code slot then some 1
  else if code ≠ 4 ∧ confirm ≠ 0xC3 then some 3
  else if s.flag LC_STATUS_BUSY then some 7
  else if s.get PWR_STATUS_STAGE = 4 then some 8
  else if code = 5 ∧ s.lc.refuse then some 9
  else if code = 5 ∧ !s.flag LC_STATUS_NONCE_VALID then some 4
  else if (keyWrites code s.lcArg).any fun e => s.fuse e.1 &&& ~~~e.2 != 0 then some 5
  else none

/-- A refused command changes nothing but its report (R432). -/
def lcRefuse (why : Nat) (s : State) : State := clearArgs ((s.put LC_STATUS_REASON why).raise LC_EVENT_REJ)

/-- No return nonce is held: its registers read zero. -/
def dropRetNonce (s : State) : State :=
  eachDo (List.range 12) (fun i t => t.setReg (LC_NONCE i) 0) (s.lower LC_STATUS_NONCE_VALID)

/-- RET_NONCE: a fresh nonce replaces any unspent one; the Lid's random words are free values (R434). -/
def retNonce (s : State) : State :=
  let (i, t) := s.fresh
  let ws := Config.freeWords i
  let t := eachDo (List.range 12) (fun j u => u.setReg (LC_NONCE j) (ws.getD j 0)) (t.raise LC_STATUS_NONCE_VALID)
  clearArgs (t.raise LC_EVENT_DONE)

/-- A command accepted: it is BUSY with the argument words, the nonce and the token as they stand, and a transition that waits for no token ends a load in
progress (R432, R434, R441; DEDUCED, log entries 57 and 116). -/
def lcAccept (code slot : Nat) (s : State) : State :=
  if code = 4 then retNonce s
  else
    let nonce := (List.range 12).map fun i => s.reg (LC_NONCE i)
    let token := (List.range 24).map fun i => s.opnd (LC_TOKEN i)
    let t := { s.raise LC_STATUS_BUSY with lc := { s.lc with job := some ⟨code, slot, (List.range 56).map s.lcArg, nonce, token⟩ } }
    if code = 5 ∨ code = 7 then t else abortLoad 0x84 t

/-- LC_CMD with CODE `code`, SLOT and CONFIRM as the word `v` gives them (R431, R432). -/
def lcCommand (code : Nat) (v : Word) (s : State) : State :=
  let slot := bitsAt v 4 1
  match lcReason code slot (bitsAt v 8 8) s with
  | some why => lcRefuse why s
  | none => lcAccept code slot s

/-- A write of LC_CMD by master `m`: the keeper's alone. -/
def lcWrite (m code : Nat) (v : Word) (s : State) : Out := settled s (gateWrite m LC_CMD true (fun t => lcCommand code v (keepRsvl m LC_CMD v t)) s)

/-- ENTER_FACTORY by master `m`, the other fields of LC_CMD as in `v` (R431). -/
def execEnterFactory (m : Nat) (v : Word) (s : State) : Out := lcWrite m 1 v s

/-- PROVISION by master `m` (R431). -/
def execProvision (m : Nat) (v : Word) (s : State) : Out := lcWrite m 2 v s

/-- ENTER_FIELD by master `m` (R431). -/
def execEnterField (m : Nat) (v : Word) (s : State) : Out := lcWrite m 3 v s

/-- RET_NONCE by master `m` (R434). -/
def execRetNonce (m : Nat) (v : Word) (s : State) : Out := lcWrite m 4 v s

/-- RETURN by master `m`: accepted for checking (R434, R435). -/
def execLcReturn (m : Nat) (v : Word) (s : State) : Out := lcWrite m 5 v s

/-- RETIRE by master `m` (R431). -/
def execLcRetire (m : Nat) (v : Word) (s : State) : Out := lcWrite m 6 v s

/-- REVOKE by master `m` (R431). -/
def execLcRevoke (m : Nat) (v : Word) (s : State) : Out := lcWrite m 7 v s

/-! ## The end of a command (R432 to R435, R441) -/

/-- An authenticated debug session ends (R432, R440). -/
def endDebug (s : State) : State := s.put LC_DBG_STATUS_LEVEL 0

/-- What the new state brings: the credential is DETACHED, a response under verification is discarded, a load ends, and a debug session
(R432). -/
def transition (s : State) : State :=
  let t := keeperState 0 s
  endDebug (abortLoad 0x84 { t with keeper := { t.keeper with back := 0 } })

/-- The command is over: it is no longer BUSY, and its argument words clear. -/
def lcOver (s : State) : State := clearArgs { s.lower LC_STATUS_BUSY with lc := { s.lc with job := none } }

/-- A fuse word that fails its verification: some of the bits asked for are blown, which ones is not stated, and FUSE is raised (R363, R429;
DEDUCED, log entry 56). -/
def fuseFails (e : Nat × Word) (s : State) : State :=
  let (i, t) := s.fresh
  raiseFault srcFuses .fuse none e.1 ((blow e.1 (e.2 &&& BitVec.ofNat 32 (Config.freeNat i)) t).put LC_STATUS_REASON 6)

/-- The fuse writes of a command up to one that fails: its word is `bad` (R429, R433). -/
def lcFuseFail (j : LcJob) (bad : Nat) (s : State) : State :=
  let ws := lcWrites j
  let t := eachDo (ws.takeWhile fun e => e.1 != bad) (fun e u => blow e.1 e.2 u) s
  match ws.find? fun e => e.1 == bad with
  | some e =>
    let x := t.fusedState
    let t := lcRefresh (fuseFails e t)
    let t := if t.fusedState = s.fusedState ∧ x = s.fusedState then t else transition t
    lcOver (t.raise LC_EVENT_REJ)
  | none => t

/-- Every fuse write of a command succeeds, and it is done (R432, R433, R435). -/
def lcSucceeds (j : LcJob) (s : State) : State :=
  let t := eachDo (keyWrites j.code (fun i => j.args.getD i 0) ++ stateWrites j.code j.slot) (fun e u => blow e.1 e.2 u) s
  let t := lcRefresh t
  let t := if j.code = 7 then t else transition t
  let t := if j.code = 5 ∨ j.code = 6 then erase t else t
  lcOver (t.raise LC_EVENT_DONE)

/-- A token that fails: the command is refused, and RETURN for 1 s more (R432, R434). -/
def tokenFails (s : State) : State :=
  let t := lcRefuse 4 (lcOver s)
  { t with lc := { t.lc with refuse := true } }

/-- The return token of a command verifies: the vendor key's signature over the nonce, SERIAL and the byte 0x52 (R434). -/
def State.tokenOk (s : State) (j : LcJob) : Bool := s.verifies 2 (wordBytes j.nonce ++ s.serialBytes ++ [0x52]) j.token

/-- LC_COMMAND_DONE: the command in progress ends; `bad` is the fuse word that fails its verification, if one does (R429, R432 to R435). -/
def execLcCommandDone (bad : Option Nat) (s : State) : Out :=
  match s.lc.job with
  | some j =>
    let t := if j.code = 5 then dropRetNonce s else s
    if j.code = 5 ∧ !s.tokenOk j then settled s (tokenFails t)
    else
      let t := if j.code = 5 ∨ j.code = 6 then dropPlan t else t
      match bad with
      | some w => if (lcWrites j).any fun e => e.1 == w then settled s (lcFuseFail j w t) else .next s
      | none => settled s (lcSucceeds j t)
  | none => .next s

/-- RETURN_NONCE_EXPIRE: an unspent return nonce is 3,600 s old (R434). -/
def execReturnNonceExpire (s : State) : Out := done s (dropRetNonce s)

/-- TOKEN_REFUSAL_END: 1 s has passed since a token failed (R432). -/
def execTokenRefusalEnd (s : State) : Out := done s { s with lc := { s.lc with refuse := false } }

/-! ## Fuses (R413, R429, R430) -/

/-- LC_FUSE_CMD READ: the word named by LC_FUSE_ADDR; the plan key reads as zero (R430). -/
def fuseRead (s : State) : State :=
  let w := s.get LC_FUSE_ADDR_WORD
  (s.setReg LC_FUSE_DATA (if 80 ≤ w ∧ w < 88 then 0 else s.fuse w)).raise LC_EVENT_FUSE_DONE

/-- FUSE_READ by master `m` (R430). -/
def execFuseRead (m : Nat) (s : State) : Out := done s (gateWrite m LC_FUSE_CMD true fuseRead s)

/-- LC_FUSE_CMD PROGRAM: the bits of LC_FUSE_DATA are blown in FACTORY and in words 88 to 511; `ok` says whether the word verifies (R429). -/
def fuseProgram (ok : Bool) (s : State) : State :=
  let w := s.get LC_FUSE_ADDR_WORD
  if s.lcState = 1 ∧ 88 ≤ w then
    if ok then (blow w (s.reg LC_FUSE_DATA) s).raise LC_EVENT_FUSE_DONE else fuseFails (w, s.reg LC_FUSE_DATA) s
  else s.raise LC_EVENT_FUSE_REJ

/-- FUSE_PROGRAM by master `m` (R429). -/
def execFuseProgram (m : Nat) (ok : Bool) (s : State) : Out := settled s (gateWrite m LC_FUSE_CMD true (fuseProgram ok) s)

end Sys2Proof.Machine
end

