-- ==== Sys2Proof/Machine/Jtag.lean ====
section
/-! DEFINITION. The test access port and authenticated debug (R436 to R441). -/

namespace Sys2Proof.Machine

/-! ## What the state of the life cycle allows (R436, R437) -/

/-- A pin-taking instruction is allowed: at any time, or while no plan is in force in PROVISIONED and FIELD (R436). -/
def State.pinsOk (s : State) : Bool := !(s.lcState == 2 || s.lcState == 3) || s.plan.isNone

/-- Scanning the non-secret chains is allowed; in FIELD a debug session grants it (R436, R437, R440). -/
def State.scanNsOk (s : State) : Bool :=
  s.get PWR_STATUS_STAGE == 5 && (if s.lcState = 5 then false else if s.lcState = 3 then s.get LC_DBG_STATUS_LEVEL == 1 else true)

/-- Scanning the secret chains is allowed (R436, R437). -/
def State.scanSecOk (s : State) : Bool :=
  s.get PWR_STATUS_STAGE == 5 && (if s.lcState ≤ 1 then true else s.lcState == 4 && s.flag LC_STATUS_ERASED)

/-! ## The instruction register (R437, R438) -/

/-- The code is a scan instruction's. -/
def isScan (code : Nat) : Bool := code == 0x20 || code == 0x21

/-- The TAP takes instruction `code`; a scan instruction destroys the state of the core (R437). -/
def tapLoad (code : Nat) (s : State) : State :=
  { s with tap := { s.tap with ir := code, scanned := s.tap.scanned || isScan code } }.putFlag LC_DBG_STATUS_SCANNING (isScan code)

/-- The TAP takes instruction `code` where `ok` allows it, and is followed by `k`; else it takes BYPASS, and JTAG_REJ is set (R437). -/
def tapRestricted (ok : Bool) (code : Nat) (k : State → State) (s : State) : State :=
  if ok then k (tapLoad code s) else (tapLoad 0xFF s).raise LC_EVENT_JTAG_REJ

/-- A command of the TAP, which VDD_IO powers (R438; DEDUCED, log entry 59). -/
def tapDo (f : State → State) (s : State) : Out := if s.vddIoGood then done s (f s) else .next s

/-- How many cells the boundary-scan register has (R438). -/
def cellCount : Nat := 3164

/-- A pass through the boundary-scan register: what its cells capture comes out, and `cells` goes in. The order of the cells, and so what they capture,
is given outside the spec: a free value (DESIGN CHOICE, log entry 60). -/
def boundaryScan (cells : Nat) (s : State) : State :=
  let (i, t) := s.fresh
  { t with tap := { t.tap with cells := cells % 2 ^ cellCount } }.emit (.tdo cellCount (Config.freeNat i % 2 ^ cellCount))

/-! ## The instructions (R437 to R439) -/

/-- IDCODE: the identification register comes out (R438). -/
def execIdcode (s : State) : Out := tapDo (fun s => (tapLoad 0x01 s).emit (.tdo 32 (s.reg LC_IDCODE).toNat)) s

/-- SAMPLE_PRELOAD: the balls are sampled without disturbing them, and the cells preloaded with `cells` (R438). -/
def execSamplePreload (cells : Nat) (s : State) : Out := tapDo (fun s => boundaryScan cells (tapLoad 0x02 s)) s

/-- EXTEST: the cells drive and observe the balls (R437). -/
def execExtest (cells : Nat) (s : State) : Out := tapDo (fun s => tapRestricted s.pinsOk 0x03 (boundaryScan cells) s) s

/-- CLAMP: the cells hold the balls as they stand (R437). -/
def execJtagClamp (s : State) : Out := tapDo (fun s => tapRestricted s.pinsOk 0x04 id s) s

/-- HIGHZ: the balls drive nothing (R437). -/
def execHighz (s : State) : Out := tapDo (fun s => tapRestricted s.pinsOk 0x05 id s) s

/-- EXTEST_PULSE: pulses on the lanes and spokes (R437, R439). -/
def execExtestPulse (cells : Nat) (s : State) : Out := tapDo (fun s => tapRestricted s.pinsOk 0x06 (boundaryScan cells) s) s

/-- EXTEST_TRAIN: trains on the lanes and spokes (R437, R439). -/
def execExtestTrain (cells : Nat) (s : State) : Out := tapDo (fun s => tapRestricted s.pinsOk 0x07 (boundaryScan cells) s) s

/-- DBG_STATUS: the debug status word comes out (R438). -/
def execDbgStatus (s : State) : Out :=
  tapDo (fun s => let t := tapLoad 0x12 s; t.emit (.tdo 32 (t.reg LC_DBG_STATUS).toNat)) s

/-- SCAN_NS: the non-secret chains (R436, R437). -/
def execScanNs (s : State) : Out := tapDo (fun s => tapRestricted s.scanNsOk 0x20 id s) s

/-- SCAN_SEC: the secret chains (R436, R437). -/
def execScanSec (s : State) : Out := tapDo (fun s => tapRestricted s.scanSecOk 0x21 id s) s

/-- BYPASS: the one-bit bypass register (R438). -/
def execJtagBypass (s : State) : Out := tapDo (tapLoad 0xFF) s

/-- TEST_LOGIC_RESET: IDCODE is selected, and a debug session ends (R438, R440). -/
def execTestLogicReset (s : State) : Out := tapDo (fun s => endDebug (tapLoad 0x01 s)) s

/-! ## Authenticated debug (R440) -/

/-- The number that words spell, the first in the lowest bits. -/
def wordsNat : List Word → Nat
  | [] => 0
  | w :: r => w.toNat + 2 ^ 32 * wordsNat r

/-- DBG_CHAL at Capture-DR: a fresh nonce, or zeros for 1 s after a failed signature; the Lid's random words are free values (R440). -/
def dbgChal (s : State) : State :=
  let t := tapLoad 0x10 s
  if t.tap.refuse then t.emit (.tdo 384 0)
  else
    let (i, u) := t.fresh
    let ws := (List.range 12).map fun j => (Config.freeWords i).getD j 0
    { u with tap := { u.tap with nonce := some ws } }.emit (.tdo 384 (wordsNat ws))

/-- DBG_CHAL (R440). -/
def execDbgChal (s : State) : Out := tapDo dbgChal s

/-- The response `sig` opens a debug session: in FIELD, under usable owner slot `key`, with a nonce unspent, over whose bytes, SERIAL and the byte 0x44
the signature verifies (R429, R440). -/
def State.debugOk (s : State) (key : Nat) (sig : List Word) : Bool :=
  s.lcState == 3 && s.flag ⟨LC_STATUS, 13 + key % 2, 1⟩ &&
    match s.tap.nonce with
    | some ws => s.verifies (key % 2) (wordBytes ws ++ s.serialBytes ++ [0x44]) sig
    | none => false

/-- DBG_RESP at Update-DR, naming owner slot `key`, with signature `sig`: the nonce is spent, and a signature that verifies opens a session (R440). -/
def dbgResp (key : Nat) (sig : List Word) (s : State) : State :=
  let t := tapLoad 0x11 s
  let good := t.debugOk key sig
  let t := { t with tap := { t.tap with nonce := none } }
  if good then (t.put LC_DBG_STATUS_LEVEL 1).raise LC_EVENT_DBG_AUTH
  else { (t.incSat LC_DBG_STATUS_FAILS).raise LC_EVENT_DBG_FAIL with tap := { t.tap with refuse := true } }

/-- DBG_RESP under slot `key`, with the signature shifted in (R440). -/
def execDbgResp (key : Nat) (sig : List Word) (s : State) : Out := tapDo (dbgResp key sig) s

/-- DBG_NONCE_EXPIRE: an unspent debug nonce is 10 s old (R440). -/
def execDbgNonceExpire (s : State) : Out := done s { s with tap := { s.tap with nonce := none } }

/-- DBG_REFUSAL_END: 1 s has passed since a debug signature failed (R440). -/
def execDbgRefusalEnd (s : State) : Out := done s { s with tap := { s.tap with refuse := false } }

end Sys2Proof.Machine
end

