-- ==== Sys2Proof/Machine/Power.lean ====
section
/-! DEFINITION. Rails, straps, start-up, droop and the pace governor, shutdown (R366, R384 to R404). -/

namespace Sys2Proof.Machine

/-! ## Trips (R366) -/

/-- The hub is out of reset: start-up runs, or has run (DEV_SB_STATUS). -/
def State.released (s : State) : Bool := decide (2 ≤ s.get DEV_SB_STATUS_STAGE)

/-- SUPPLY_TRIP: rail `r` has stayed beyond its trip level for 1 µs, over it where `high` holds (R366). -/
def execSupplyTrip (r : Nat) (high : Bool) (s : State) : Out :=
  if r < 8 ∧ s.released then settled s (raiseFault srcSupply .supply none (r + if high then 256 else 0) s) else .next s

/-- Sensor `i` reads `tj`, in 0.1 °C; its highest reading follows (PWR_TEMP; DEDUCED, log entry 50). -/
def readTemp (i : Nat) (tj : Int) (s : State) : State :=
  let t := s.put (PWR_TEMP_TJ i) (unsigned 12 tj)
  if signed 12 (t.get (PWR_TEMP_MAX i)) < tj then t.put (PWR_TEMP_MAX i) (unsigned 12 tj) else t

/-- The DETAIL of a thermal message (R363). -/
def thermalDetail (i : Nat) (tj : Int) : Nat := i + 65536 * unsigned 16 tj

/-- THERMAL_TRIP: sensor `i` has read `tj`, at least 115 °C, for 100 µs (R366). -/
def execThermalTrip (i : Nat) (tj : Int) (s : State) : Out :=
  if i < 16 ∧ 1150 ≤ tj ∧ s.released then settled s (raiseFault srcThermal .thermal none (thermalDetail i tj) (readTemp i tj s)) else .next s

/-- THERMAL_WARN: sensor `i` reads `tj`, at least 105 °C, after it had last fallen below 100 °C (R366). -/
def execThermalWarn (i : Nat) (tj : Int) (s : State) : Out :=
  if i < 16 ∧ 1050 ≤ tj ∧ s.released then settled s (raiseFault srcThermal .thermalWarn none (thermalDetail i tj) (readTemp i tj s)) else .next s

/-! ## Rails and straps before reset release (R384 to R390) -/

/-- DEV_SB_STATUS.STAGE while the hub is held in reset. -/
def resetStage (s : State) : State := s.put DEV_SB_STATUS_STAGE (if s.railsGood then 1 else 0)

/-- The sideband's registers at VDD_IO power-up, and the sideband itself (R353, R358). -/
def sidebandUp (s : State) : State := { s with regs := s.regs.filter fun c => c.1 < 0x3F000000, sb := {}, tap := {}, pwr := {} }

/-- RAIL_GOOD: rail `r` has stayed at or above its good level for 1 ms (R384). VDD_IO's own is the power-up of the sideband. -/
def execRailGood (r : Nat) (s : State) : Out :=
  if r < 8 ∧ !s.released ∧ !s.flag ⟨DEV_SB_RAILS, r, 1⟩ then
    let g := s.get DEV_SB_RAILS_GOOD
    let t := if r = 6 then (sidebandUp s).put DEV_SB_RAILS_GOOD g else s
    done s (faultN (resetStage (t.raise ⟨DEV_SB_RAILS, r, 1⟩)))
  else .next s

/-- The settling of the straps starts again. -/
def unsettle (s : State) : State := { s with pwr := { s.pwr with steady := [] } }.lower DEV_SB_STRAP_STABLE

/-- RAIL_DROP: rail `r` falls below 98 % of its good level before reset release; the strap settling restarts with it (R384, R385, R403). -/
def execRailDrop (r : Nat) (s : State) : Out :=
  if r < 8 ∧ !s.released then done s (faultN (resetStage (unsettle (s.lower ⟨DEV_SB_RAILS, r, 1⟩)))) else .next s

/-- What the hub keeps as it re-enters reset: its NVM and fuses, what VDD_IO powers, and the model's own records. PLAN_MIN_SEQ and the operating time
are NVM's, and the fresh frequencies are kept with the cells' fresh gains (R224, R232, R308; DEDUCED, log entry 104). -/
def coldState (s : State) : State :=
  let keep := fun (a : Nat) => decide (0x3F000000 ≤ a) || a == PLAN_MIN_SEQ || a == BIST_OPTIME
  { ({} : State) with
    regs := s.regs.filter fun c => keep c.1
    pending := s.pending, sent := s.sent, freeCtr := s.freeCtr, nvm := s.nvm, fuses := s.fuses, freshWord := s.freshWord, sb := s.sb, pwr := { steady := s.pwr.steady }
    tap := { s.tap with scanned := false, nonce := none, refuse := false }
    host := { perst := s.host.perst } }

/-- BROWN_OUT: rail `r` has stayed below its brown-out level for 1 µs, and the hub re-enters reset (R385, R386). -/
def execBrownOut (r : Nat) (s : State) : Out :=
  if r < 8 then
    let t := unsettle (coldState s)
    let t := if r = 6 then sidebandUp t else t
    let t := (t.put DEV_SB_RAILS_GOOD (s.get DEV_SB_RAILS_GOOD)).lower ⟨DEV_SB_RAILS, r, 1⟩
    done s (faultN (loadIdentity (lcRefresh (resetStage t))))
  else .next s

/-- The samples of 1 ms, at one every 10 µs (R389). -/
def settleSamples : Nat := 100

/-- Strap `j` is settled (R389). -/
def State.settledStrap (s : State) (j : Nat) : Bool := decide (settleSamples ≤ tabGet (fun _ => 0) s.pwr.steady j)

/-- Strap `j` sampled at `x`: 0 low, 1 high, 2 invalid. -/
def sampleStrap (j x : Nat) (s : State) : State :=
  let f : Fld := ⟨DEV_SB_STRAP, 2 * j, 2⟩
  let n := tabGet (fun _ => 0) s.pwr.steady j
  let n' := if x = 2 then 0 else if s.get f = x then min settleSamples (n + 1) else 1
  let t := { s with pwr := { s.pwr with steady := tabSet (fun _ => 0) s.pwr.steady j n' } }.put f x
  let t := if x = 2 then t.raise DEV_SB_EVENT_STRAP_BAD else t
  if s.released ∧ x ≠ bitsAt (BitVec.ofNat 32 s.pwr.latch) (2 * j) 2 then t.raise PWR_EVENT_STRAP_MOVED else t

/-- The static address is taken once the three I3C_ADDR straps have settled, and holds (R354). -/
def takeAddress (s : State) : State :=
  if s.sb.stat.isNone && (List.range 3).all (fun i => s.settledStrap (2 + i)) then
    let a := ((List.range 3).map fun i => s.get ⟨DEV_SB_STRAP, 2 * (2 + i), 2⟩ * 2 ^ i).sum
    { s with sb := { s.sb with stat := some (0x30 + a) } }
  else s

/-- STRAP_SAMPLE: the straps are sampled, each 0 low, 1 high or 2 invalid (R357, R388 to R390). -/
def execStrapSample (levels : List Nat) (s : State) : Out :=
  if levels.length = 8 ∧ levels.all (fun x => decide (x ≤ 2)) ∧ s.vddIoGood then
    let t := eachDo levels.zipIdx (fun e u => sampleStrap e.2 e.1 u) s
    let t := t.putFlag DEV_SB_STRAP_STABLE ((List.range 8).all t.settledStrap)
    done s (faultN (takeAddress t))
  else .next s

/-! ## Start-up (R392 to R395) -/

/-- Straps as they are latched at reset release (R390, R44, R50, R306). -/
def latchStraps (s : State) : State :=
  let v := s.get DEV_SB_STRAP_LEVEL
  let b := fun (j : Nat) => v / 2 ^ (2 * j) % 2
  let t := { s with pwr := { s.pwr with latch := v } }
  let dly := b 5 + 2 * b 6
  let t := t.setReg HRT_XREF_SETTLE (BitVec.ofNat 32 (if dly = 0 then 0x14 else if dly = 1 then 0xC8 else if dly = 2 then 0x7D0 else 0x2710))
  let t := (t.put HRT_SRC_STATUS_XREF_DLY dly).put HRT_SRC_STATUS_XREF_PRESENT (b 7)
  let src := b 0 + 2 * b 1
  (t.put PLAN_BOOT_STATUS_SRC src).putFlag PLAN_BOOT_STATUS_STRAP_RSV (src == 3)

/-- A calibration group's newest valid slot is loaded: its records read as stored, with RESULT none; without one the group stays DEFAULT, and one
class W fault is raised (R230, R231). -/
def loadGroup (g : Nat) (s : State) : State :=
  match s.newestSlot g with
  | some i =>
    let r := groupRange g
    let t := { s with mem := (s.slot g i).cells.foldl (fun m c => tabSet memDefault m c.1 c.2) (s.mem.filter fun c => c.1 < r.1 || r.1 + r.2 ≤ c.1) }
    eachDo (groupRecords g) (fun a u => (u.mput (recResult a) 0).mput (recStored a) 1) t
  | none => raiseFault srcNvm .nvmSlot none g s

/-- The kind of start (R392, R418): 1 clean, 2 unclean after RUNNING or without a repair map, 3 without a valid marker
(DEDUCED, log entry 52). -/
def State.startKind (s : State) : Nat :=
  match s.newestSlot 6 with
  | none => 3
  | some i => if bitsAt ((s.slot 6 i).words.getD 0 0) 0 2 = 2 ∧ (s.newestSlot 7).isSome then 1 else 2

/-- The repair map, the fuses' repairs, and the results that a clean start trusts or a self-test that any other runs (R393 steps 5 and 6, R405,
R413 to R418). -/
def startTest (r : SelfTest) (s : State) : State :=
  let t := match s.newestSlot 7 with
    | some i => (loadMap (s.slot 7 i).cells (s.raise BIST_MAP_STATUS_VALID)).put BIST_MAP_STATUS_SEQ (s.slot 7 i).seq.toNat
    | none => s
  let t := showPool (eachDo (List.range 256) showMacro (fuseRepairs t))
  if t.get PWR_START_KIND = 1 then
    match s.newestSlot 6 with
    | some i => loadMarker (s.slot 6 i).words t
    | none => t
  else selfTest true r t

/-- The boot slots are examined, and with BOOT_SRC 0b01 or 0b10 the newer valid one goes to VERIFY (R306, R307). -/
def bootLoad (s : State) : State :=
  let t := (s.putFlag PLAN_BOOT_STATUS_VALID_A ((s.slot 5 0).valid 5)).putFlag PLAN_BOOT_STATUS_VALID_B ((s.slot 5 1).valid 5)
  let src := t.get PLAN_BOOT_STATUS_SRC
  if src = 1 ∨ src = 2 then
    match t.newestSlot 5 with
    | some i => { t.put PLAN_STATUS_STATE pVERIFYING with load := { words := (t.slot 5 i).words, boot := true } }
    | none => bootFail 0 t
  else t

/-- The fuse array's integrity check at start-up (R393, R428). -/
def checkFuses (s : State) : State :=
  match s.fuseBad with
  | some w => raiseFault srcFuses .fuse none w s
  | none => s

/-- The NVM's integrity check at start-up, which fails at byte address `nvm` (R393). -/
def checkNvm (nvm : Option Nat) (s : State) : State :=
  match nvm with
  | some a => if s.flag FC_STATUS_G_ACTIVE then s else raiseFault srcNvm .nvm none a s
  | none => s

/-- In a life-cycle state other than BLANK the keeper starts detached; in BLANK the PF starts attached, which is the register's value (R328, R330). -/
def startKeeper (s : State) : State := if s.lcState = 0 then s else s.setReg BSK_KEEPER_STATUS 0

/-- The hub as start-up finds it: its state cold, the straps latched, the life cycle read, and the integrity of fuses and NVM checked (R386, R390, R393). -/
def startChecks (nvm : Option Nat) (s : State) : State :=
  checkNvm nvm (checkFuses (startKeeper (loadIdentity (lcRefresh ((latchStraps (coldState s)).put DEV_SB_STATUS_STAGE 2)))))

/-- Every lane that no plan uses is OFF (R271); the warp and chain lanes are in DETECT (DEDUCED, log entry 70). -/
def restLanes (s : State) : State := eachDo (List.range 108) laneRests s

/-- The stores are cleared, the calibration groups and a boot plan loaded, and the RUNNING marker's write asked for (R393 steps 7 to 9, R417). -/
def loadStores (s : State) : State :=
  faultN { bootLoad (eachDo [1, 2, 3, 4] loadGroup (restLanes { s with mem := [], eccBad := [] })) with nvmQueue := [6] }

/-- Start-up up to the boot plan (R393). A class G fault on the way ends it. -/
def startUp (r : SelfTest) (nvm : Option Nat) (s : State) : State :=
  let t := startChecks nvm s
  if t.flag FC_STATUS_G_ACTIVE then t
  else
    let t := startTest r (t.put PWR_START_KIND t.startKind)
    if t.flag FC_STATUS_G_ACTIVE then t else loadStores t

/-- RESET_RELEASE: every rail is good and every strap settled. Start-up runs with the findings of its self-test `r`, which a clean start does not make;
`nvm` is the byte address at which the NVM's integrity check fails, if it does (R384, R392 to R395). What follows, the boot plan's verification and the
RUNNING marker's write, comes about in commands of its own. -/
def execResetRelease (r : SelfTest) (nvm : Option Nat) (s : State) : Out :=
  if !s.released ∧ s.railsGood ∧ s.flag DEV_SB_STRAP_STABLE ∧ (List.range 8).all s.settledStrap then settled s (startUp r nvm s) else .next s

/-- PLAN_READY: the RUNNING marker is committed and the boot plan dealt with. `time` is the start-up's length in 0.1 ms, and `paused` says whether the
governor paused its self-test (R342, R393, R417, R435). -/
def execPlanReady (time : Nat) (paused : Bool) (s : State) : Out :=
  if s.get DEV_SB_STATUS_STAGE = 2 ∧ s.nvmRun.isNone ∧ s.nvmQueue = [] ∧ s.loadState ≠ pVERIFYING ∧ s.loadState ≠ pAPPLYING then
    let t := ((s.put DEV_SB_STATUS_STAGE 3).raise DEV_SB_EVENT_READY).put PWR_STATUS_STAGE 3
    let t := (t.put PWR_START_TIME (min time 65535)).putFlag PWR_START_PAUSED paused
    let t := { t with host := { t.host with ready := true } }
    let t := eachDo allRecords recheckRecord (completeErasure t)
    settled s (if t.get PWR_START_KIND = 1 then t else queueMap t)
  else .next s

/-! ## Droop and the pace governor (R397 to R399) -/

/-- Units of 10 ns in an elapsed time. -/
def tens (x : Nat) : Nat := x * 100000000 / 2 ^ 48

/-- The level in force: the higher of the measured and the forced one, with what follows from a change of it. `sensor` is the sensor that set it
(DEDUCED, log entry 49). -/
def paceTo (sensor : Nat) (s : State) : State :=
  let old := s.get PWR_STATUS_LEVEL
  let new := max s.pwr.pace (s.get PWR_PACE_FORCE_LEVEL)
  let t := (s.put PWR_STATUS_LEVEL new).put RING_CAP_PACE new
  let t := t.putFlag PWR_STATUS_FORCED (decide (s.pwr.pace < s.get PWR_PACE_FORCE_LEVEL))
  let t := if old = 0 ∧ 1 ≤ new then t.incMod PWR_PACE_CNT_L1 else t
  let t := if old < 2 ∧ 2 ≤ new then { t.incSat PWR_PACE_CNT_L2 with pwr := { t.pwr with since := some t.elapsed } } else t
  let t := match t.pwr.since with
    | some a => if new < 2 then { t.put PWR_PACE_TIME_TIME (t.get PWR_PACE_TIME_TIME + tens (t.elapsed - a)) with pwr := { t.pwr with since := none } } else t
    | none => t
  let t := if old < new then t.raise PWR_EVENT_LEVEL_UP else t
  let t := if old < 3 ∧ new = 3 then raiseFault srcPace .paceL3 none sensor ((t.incSat PWR_PACE_CNT_L3).raise PWR_EVENT_LEVEL3) else t
  eachDo (t.units.map (·.1)) showUnit t

/-- The highest level whose threshold the largest droop reaches, the droop being in 0.5 mV (R398). -/
def State.droopLevel (s : State) (d : Nat) : Nat :=
  if 2 * s.get PWR_PACE_CFG_T3 ≤ d then 3 else if 2 * s.get PWR_PACE_CFG_T2 ≤ d then 2 else if 2 * s.get PWR_PACE_CFG_T1 ≤ d then 1 else 0

/-- DROOP_CROSSING: sensor `i` reports the largest droop, `d` in 0.5 mV, over a baseline of `base` mV; the level rises where a threshold is crossed
(R397, R398). The governor begins to act at plan-ready. -/
def execDroopCrossing (i d base : Nat) (s : State) : Out :=
  if i < 64 ∧ d < 256 ∧ base < 4096 ∧ 3 ≤ s.get DEV_SB_STATUS_STAGE then
    let t := (s.put (PWR_DROOP_NOW i) d).put (PWR_DROOP_BASE i) base
    let t := t.put (PWR_DROOP_PEAK i) (max d (t.get (PWR_DROOP_PEAK i)))
    settled s (paceTo i { t with pwr := { t.pwr with pace := max t.pwr.pace (t.droopLevel d) } })
  else .next s

/-- PACE_STEP_DOWN: the largest droop has stayed below the level's threshold less HYST for HOLD (R398). -/
def execPaceStepDown (s : State) : Out :=
  if s.pwr.pace = 0 then .next s else settled s (paceTo 0 { s with pwr := { s.pwr with pace := s.pwr.pace - 1 } })

/-- PWR_PACE_FORCE written with `v`: the least level. Which sensor a forced level 3 names is not stated: a free value (R398, R399). -/
def paceForce (m : Nat) (v : Word) (s : State) : State :=
  let (i, t) := (storeRw m PWR_PACE_FORCE v s).fresh
  paceTo (Config.freeNat i % 64) t

/-- PWR_PACE_FORCE_WRITE: master `m` writes `v` (R398). -/
def execPwrPaceForceWrite (m : Nat) (v : Word) (s : State) : Out := settled s (gateWrite m PWR_PACE_FORCE true (paceForce m v) s)

/-! ## Shutdown and peaks (R400 to R404) -/

/-- SHUTDOWN with the findings `r` of its self-test: the plan is dropped, the self-test runs unless FULL_NEXT skips it, and the repair map and the CLEAN
marker are to be written (R400 to R402, R405). -/
def shutdown (r : SelfTest) (s : State) : State :=
  if s.get PWR_STATUS_STAGE = 3 ∧ s.loadState = pIDLE ∧ !s.flag FC_STATUS_G_ACTIVE then
    let t := dropPlan (s.put PWR_STATUS_STAGE 4)
    let full := t.flag BIST_STATUS_FULL_NEXT
    let t := if full then t else selfTest false r t
    if t.flag FC_STATUS_G_ACTIVE then t
    else { t.raise BIST_MAP_STATUS_PENDING with nvmQueue := t.nvmQueue.filter (fun g => g != 7) ++ [7] ++ if full then [] else [6] }
  else s.raise PWR_EVENT_CMD_REJ

/-- SHUTDOWN by master `m` (R400). -/
def execShutdown (m : Nat) (r : SelfTest) (s : State) : Out := settled s (gateWrite m PWR_CMD true (shutdown r) s)

/-- SHUTDOWN_HALT: the writes of step 8 are committed, and the hub enters HALTED (R401 step 9; DEDUCED, log entry 55). -/
def execShutdownHalt (s : State) : Out :=
  if s.get PWR_STATUS_STAGE = 4 ∧ !s.flag FC_STATUS_G_ACTIVE ∧ s.nvmRun.isNone ∧ s.nvmQueue = [] then
    done s ((s.put PWR_STATUS_STAGE 5).raise PWR_EVENT_SHUT_DONE)
  else .next s

/-- CLEAR_PEAK: every MIN, MAX and PEAK takes its present reading (R404). -/
def clearPeak (s : State) : State :=
  let t := eachDo (List.range 8) (fun r u => u.put (PWR_RAIL_MIN r) (u.get (PWR_RAIL_NOW r))) s
  let t := eachDo (List.range 16) (fun i u => u.put (PWR_TEMP_MAX i) (u.get (PWR_TEMP_TJ i))) t
  eachDo (List.range 64) (fun i u => u.put (PWR_DROOP_PEAK i) (u.get (PWR_DROOP_NOW i))) t

/-- CLEAR_PEAK by master `m` (R404). -/
def execClearPeak (m : Nat) (s : State) : Out := done s (gateWrite m PWR_CMD true clearPeak s)

end Sys2Proof.Machine
end

