-- ==== Sys2Proof/Machine/Strands.lean ====
section
/-! DEFINITION. The strands' residual checks and commands (R123, R130, R131, R134). -/

namespace Sys2Proof.Machine

/-- The logical strand that a wale's check TDC visits at position `pos`: the spare's after position 15 once it is in use (R130). -/
def State.visited (s : State) (w pos : Nat) : Option Nat :=
  if pos = 16 then
    (if s.get (WAL_SPARE_STATE w) = 2 then some (16 * w + s.get (WAL_SPARE_POS w)) else none)
  else if s.get (STR_STATUS_PHYS (16 * w + pos)) = 17 * w + 16 then none
  else some (16 * w + pos)

/-- The unit of strand `k`'s wale calibrates the strand now (R215). -/
def State.underCal (s : State) (k : Nat) : Bool :=
  match (s.unit (waleOf k)).run with | some r => strandOfTarget (waleOf k) r.target == some k | none => false

/-- A strand can be visited: it runs, is not STALE nor under calibration, and is ready or waits for its check after a rebind (R130, R215, R72 step
6). -/
def State.visitable (s : State) (k : Nat) : Bool :=
  s.flag (STR_STATUS_RUN k) && !s.flag (STR_STATUS_STALE k) && !s.underCal k && (s.flag (STR_STATUS_READY k) || (s.strand k).awaitVisit)

/-- The strand that the spare of wale `w` shadows, from its shadow start up to its handover (R422). -/
def State.shadowed (s : State) (w : Nat) : Option Nat :=
  match s.splice? w with
  | some x => if x.phase = .shadow ∨ x.phase = .verify ∨ x.phase = .handover then some x.strand else none
  | none => none

/-- Position `p` of wale `w` can be visited. -/
def State.posVisitable (s : State) (w p : Nat) : Bool :=
  match s.visited w p with | some k => s.visitable k | none => p == 16 && (s.shadowed w).isSome

/-- The first position from `pos` on, in ascending order and round, that can be visited; `pos` where none can (R130). -/
def State.posFrom (s : State) (w pos : Nat) : Nat :=
  (((List.range 17).map fun i => (pos + i) % 17).find? (s.posVisitable w)).getD (pos % 17)

/-- The position after `pos` that can be visited next (R130). -/
def State.nextPos (s : State) (w pos : Nat) : Nat := s.posFrom w (pos + 1)

/-- The residuals of a visit of strand `k` that measures consecutive rising edges from number `j` on, in the bins `bins` of its wale's check TDC, at most EDGES
of them: each the time measured less the position that the model intended, in units of 2^-23 of a rim period (R130, R211). -/
def State.residuals (s : State) (k j : Nat) (bins : List Nat) : List Int :=
  let qs := (s.strand k).qs
  let b := s.tdcBins (waleOf k)
  (bins.take (s.get WAL_CHECK_CFG_EDGES)).zipIdx.filterMap fun e =>
    (edgeAt qs (j + e.2)).map fun q => nearZero (tdcTime b e.1 - q % 4096 * 2 ^ 11)

/-- A visit with these residuals passes (R130). -/
def State.visitPasses (s : State) (k : Nat) (l : List Int) : Bool :=
  let w := s.waleWord (waleOf k)
  meanWithin w l.length l.sum (10 * s.get WAL_CHECK_CFG_MEAN_LIM) && rmsWithin w l (10 * s.get WAL_CHECK_CFG_RMS_LIM)

/-- What every visit of strand `k` shows (STR_RES, STR_RES_CNT, WAL_CHECK). -/
def noteVisit (k : Nat) (l : List Int) (s : State) : State :=
  let word := s.waleWord (waleOf k)
  let pass := s.visitPasses k l
  let mean := meanFs word l
  let t := (s.put (STR_RES_MEAN k) (unsigned 16 mean)).put (STR_RES_RMS k) (min (rmsFs word l) 4095)
  let t := ((t.putFlag (STR_RES_PASS k) pass).incMod (STR_RES_CNT_VISITS k)).incMod (WAL_CHECK_VISITS (waleOf k))
  if pass then t
  else
    let t := (t.incSat (STR_RES_CNT_FAILS k)).raise (WAL_EVENT_RES_FAIL (waleOf k))
    raiseW (srcStrand k) .resVisit (s.strandBasket k) (unsigned 32 mean) t

/-- A strand's consecutive failed visits have reached FAILS: it is not ready, its spokes park, its basket has a class B fault, and the spare is
spliced in where that may be (R131). -/
def residualFault (k : Nat) (s : State) : State :=
  let t := setReason STR_STATUS_NR_RES true k s
  let t := parkSpokes SPK_STATUS_C_RES (t.strandSpokes k) t
  let t := raiseFault (srcStrand k) .resFault (t.strandBasket k) (t.get (STR_STATUS_PHYS k)) (t.raise (WAL_EVENT_NOT_READY (waleOf k)))
  if t.splicing k then spliceParked k t else if t.flag WAL_POLICY_AUTO_SPLICE then spliceIfFree k t else t

/-- A visit has passed: the run of failures ends, C_RES and the class B cause of an earlier one clear, and a strand that waited for it after a
rebind is ready again (R131, R174, R72 step 6, R75). -/
def visitPassed (k : Nat) (s : State) : State :=
  let w := (s.strand k).awaitVisit
  let t := s.modStrand k fun x => { x with failRun := 0, awaitVisit := false }
  let t := unparkSpokes SPK_STATUS_C_RES (t.strandSpokes k) t
  let t := match t.strandBasket k with | some b => clearCause (srcStrand k) .resFault b t | none => t
  if w then
    let t := setReason STR_STATUS_NR_RIM false k t
    match t.waleRim (waleOf k) with
    | some n => rimChecksDone n (settleStrand k t)
    | none => t
  else t

/-- The wale's check TDC turns to the position after `pos`. -/
def visitNext (w pos : Nat) (s : State) : State := s.put (WAL_CHECK_NEXT w) (s.nextPos w pos)

/-- A visit of strand `k` at position `pos` has passed or failed: after a failure the same position comes again, until the strand is not ready (R130,
R131). -/
def visitStrand (w pos k : Nat) (l : List Int) (s : State) : State :=
  let t := noteVisit k l s
  if s.visitPasses k l then visitNext w pos (visitPassed k t)
  else
    let t := t.modStrand k fun x => { x with failRun := x.failRun + 1 }
    if t.get WAL_POLICY_FAILS + 1 ≤ (t.strand k).failRun then visitNext w pos (residualFault k t) else t.put (WAL_CHECK_NEXT w) pos

/-- A visit of the spare that shadows strand `k`: one that fails is reported as the strand's and ends the splice (R131, R423). -/
def visitSpare (w k : Nat) (l : List Int) (s : State) : State :=
  let t := s.incMod (WAL_CHECK_VISITS w)
  if s.visitPasses k l then visitNext w 16 t
  else
    let t := raiseW (srcStrand k) .resVisit (t.strandBasket k) (unsigned 32 (meanFs (s.waleWord w) l)) (t.raise (WAL_EVENT_RES_FAIL w))
    visitNext w 16 (spliceFail w t)

/-- RESIDUAL_VISIT_END: wale `w`'s check TDC ends a visit at position `pos`, 16 being the spare's, of the edges from number `j` on, which fell in `bins`: the
first position from WAL_CHECK.NEXT on that can be visited (R130, R131). A spare that shadows a strand places the same edges, and one that fails ends its
splice (R422, R423). -/
def execResidualVisitEnd (w pos j : Nat) (bins : List Nat) (s : State) : Out :=
  if w < 64 ∧ pos < 17 ∧ s.enabled 5 ∧ pos = s.posFrom w (s.get (WAL_CHECK_NEXT w)) ∧ s.posVisitable w pos then
    match s.visited w pos, s.shadowed w with
    | some k, _ => if s.residuals k j bins = [] then .next s else settled s (visitStrand w pos k (s.residuals k j bins) s)
    | none, some k => if s.residuals k j bins = [] then .next s else settled s (visitSpare w k (s.residuals k j bins) s)
    | none, none => .next s
  else .next s

/-- RESIDUAL_RETRY_VISIT: strand `k`, not ready through its residual, is visited again, unless it is STALE or under calibration; one pass makes it
ready, and its class B cause clears (R129, R131). -/
def execResidualRetryVisit (k j : Nat) (bins : List Nat) (s : State) : Out :=
  if k < 1024 ∧ s.flag (STR_STATUS_NR_RES k) ∧ s.flag (STR_STATUS_RUN k) ∧ !s.flag (STR_STATUS_STALE k) ∧ !s.underCal k ∧ s.enabled 5 then
    let l := s.residuals k j bins
    let t := noteVisit k l s
    if l = [] then .next s
    else if s.visitPasses k l then settled s (settleStrand k (setReason STR_STATUS_NR_RES false k (visitPassed k t)))
    else settled s t
  else .next s

/-- A STR_CMD by master `m` for strand `k`: a virtual function that names another basket's strand is counted, and a command that is taken shows
DONE (R134, R326). -/
def strCmd (m k : Nat) (f : State → State) (s : State) : State :=
  gateWrite m STR_CMD false (fun s =>
    if 1 ≤ m ∧ m ≤ 64 ∧ s.strandBasket k ≠ some (m - 1) then countForeign m s
    else (f s).raise STR_CMD_STATUS_DONE) s

/-- SLOT_CLEAR: master `m` clears slot `j` of strand `k`, or all four (R123). -/
def execSlotClear (m k j : Nat) (all : Bool) (s : State) : Out :=
  if k < 1024 ∧ j < 4 then
    done s (strCmd m k (fun s => s.modStrand k fun x => if all then clearSlots x else { x with slots := x.slots.set j {} }) s)
  else .next s

/-- RECHECK: master `m` makes strand `k` the one that its wale visits next (STR_CMD). -/
def execRecheck (m k : Nat) (s : State) : Out :=
  if k < 1024 then
    done s (strCmd m k (fun s =>
      let w := waleOf k
      s.put (WAL_CHECK_NEXT w) (if s.get (STR_STATUS_PHYS k) = 17 * w + 16 then 16 else k % 16)) s)
  else .next s

/-- The smallest grid point of a slot above `e` (STR_SLOT_POS0). -/
def gridAbove (c : Slot) (e : Int) : Int :=
  let t : Int := c.n * c.p
  if t = 0 then c.anchor else c.anchor + ((e - c.anchor) / t + 1) * t

/-- The per-strand registers of strand `k` latched at its latest edge (R134). A slot that is not valid has POS 0 (DESIGN CHOICE, log entry 96). -/
def latchStrand (k : Nat) (s : State) : State :=
  let x := s.strand k
  let w := fun (n : Nat) => BitVec.ofNat 32 n
  let e := unsigned 64 x.e
  let l : List (Nat × Word) :=
    [ (STR_ACC0 k, w e), (STR_ACC1 k, w (e / 2 ^ 32)), (STR_EDGES0 k, w x.edges), (STR_EDGES1 k, w (x.edges / 2 ^ 32)),
      (STR_SHAPE0 k, w x.s), (STR_SHAPE1 k, w (x.s / 2 ^ 32 % 256 + 65536 * (x.sf / 2 ^ 32 % 256))), (STR_FSHAPE0 k, w x.sf),
      (STR_PER0 k, w x.p), (STR_PER1 k, w (x.p / 2 ^ 32)), (STR_DIV k, w (x.n % 8192 + 65536 * (x.d % 256))),
      (STR_PHASE k, w (unsigned 32 x.phi)), (STR_SLEW_TGT k, w (unsigned 32 x.target)),
      (STR_SLEW k, w (x.sigma % 65536 + (if x.slewing then 65536 else 0) + (if x.held then 131072 else 0))) ]
  let t := eachDo l (fun p t => t.setReg p.1 p.2) s
  eachDo (List.range 4) (fun j t =>
    let c := x.slot j
    let g := unsigned 64 (gridAbove c x.e)
    let r : List (Nat × Word) :=
      [ (STR_SLOT_CTRL k j, w (c.prof % 2 ^ 20 + (if c.valid then 2 ^ 31 else 0))), (STR_SLOT_PER0 k j, w c.p), (STR_SLOT_PER1 k j, w (c.p / 2 ^ 32)),
        (STR_SLOT_DIV k j, w (c.n % 8192)), (STR_SLOT_POS0 k j, w (if c.valid then g else 0)), (STR_SLOT_POS1 k j, w (if c.valid then g / 2 ^ 32 else 0)) ]
    eachDo r (fun p t => t.setReg p.1 p.2) t) t

/-- STR_ACC0_READ: master `m` reads STR_ACC0 of strand `k` (R134, R349). -/
def execStrAcc0Read (m k : Nat) (s : State) : Out :=
  if k < 1024 then done s (gateRead m (STR_ACC0 k) (latchStrand k) s) else .next s

end Sys2Proof.Machine
end

