-- ==== Sys2Proof/Machine/Bus.lean ====
section
/-! DEFINITION. Where an access lands: the layouts of the BARs and of the indirect space, what a master reaches of the stores, and what a read
returns (R3, R14, R337, R338, R348 to R352, R444 to R453). -/

namespace Sys2Proof.Machine

/-! ## Layouts (R336, R337, R444 to R452) -/

/-- What an address names. -/
inductive Loc where
  /-- register `a`, through an alias where `op` is 1 (SET), 2 (CLEAR) or 3 (TOGGLE) (R348) -/
  | reg (op a : Nat)
  /-- a word of an MSI-X table, by its own key -/
  | msix (a : Nat)
  /-- word `i` of the PBA of function `f` -/
  | pba (f i : Nat)
  /-- the port of the indirect window, with its alias (DEV_IND_DATA, DEV_IND_DATA2) -/
  | port (op : Nat)
  /-- a word of a store -/
  | mem (a : Nat)
  /-- no register and no store -/
  | none
deriving DecidableEq, Repr

/-- The address holds a register of the tables; DEV_IRQ_MAP has none for sources 16 to 63. -/
def isReg (a : Nat) : Bool := (regRow? a).isSome && !decide (DEV_IRQ_MAP 16 ≤ a ∧ a < DEV_IRQ_MAP 64)

/-- The register at offset `q` of the normal region of page `k`, as master `m` meets it: its own copy of one that each master or function has
(R452). -/
def pageReg (m k q : Nat) : Option Nat :=
  let own := if k = 0 then 0x30000000 + 0x1000 * m + q else 0x38000000 + 0x1000 * copyOf m + 0x100 * k + q
  if q < 0x1000 ∧ (k = 0 ∨ q < 0x100) ∧ isReg own then some own
  else if isReg (0x10000 * k + q) then some (0x10000 * k + q)
  else none

/-- Offset `o` of page `k`, aliases included (R445, R348). -/
def pageLoc (m k o : Nat) : Loc :=
  let op := o / 0x4000
  let q := o % 0x4000
  let f := copyOf m
  if k = 0 ∧ 0x2000 ≤ q then
    if op = 0 ∧ q < 0x2000 + (if f = 0 then 4096 else 128) then .msix (0x20000000 + 0x2000 * f + (q - 0x2000))
    else if op = 0 ∧ 0x3000 ≤ q ∧ q < 0x3000 + (if f = 0 then 32 else 4) then .pba f ((q - 0x3000) / 4)
    else .none
  else if k = 0 ∧ (q = 0x30 ∨ q = 0x34) then .port op
  else match pageReg m k q with
    | some a => .reg op a
    | none => .none

/-- Offset `off` of the register BAR of master `m`: BAR0 of the PF, which the sideband reaches too, or the register region of a VF, with its views
of three pages (R444, R447). -/
def barLoc (m off : Nat) : Loc :=
  let k := off / 0x10000
  if off % 4 ≠ 0 then .none
  else if 1 ≤ m ∧ m ≤ 64 then
    if k = 0 then pageLoc m 0 (off % 0x10000) else if k = 1 then pageLoc m 8 (off % 0x10000) else if k = 2 then pageLoc m 6 (off % 0x10000)
    else if k = 3 then pageLoc m 7 (off % 0x10000) else .none
  else if k < 16 then pageLoc m k (off % 0x10000) else .none

/-- The stores of the indirect space, without the locations of the calibration workspace that hold nothing (R225, R450). -/
def isStore (a : Nat) : Bool :=
  decide (0x04000000 ≤ a ∧ a < 0x04219800) || decide (0x0421A000 ≤ a ∧ a < 0x04242000) || decide (0x04242000 ≤ a ∧ a < 0x04247500) ||
    decide (0x04248000 ≤ a ∧ a < 0x04249B00) || decide (0x0424A000 ≤ a ∧ a < 0x0424B000) || decide (0x05000000 ≤ a ∧ a < 0x05040000) ||
    decide (0x08000000 ≤ a ∧ a < 0x08C00000) || decide (0x10000000 ≤ a ∧ a < 0x12000000) || decide (0x14000000 ≤ a ∧ a < 0x15000000)

/-- Address `a` of the indirect space (R450, R451). -/
def indLoc (m a : Nat) : Loc :=
  if a < 0x10000 then .none
  else if a < 0x100000 then pageLoc m (a / 0x10000) (a % 0x10000)
  else if 0x01000000 ≤ a ∧ a < 0x02200000 then (if isReg a then .reg 0 a else .none)
  else if isStore a then .mem a
  else .none

/-! ## What a master reaches of the stores (R32, R136, R196, R225, R302, R379, R450) -/

/-- Master `m` reaches location `a` of a store. -/
def State.storeReach (s : State) (m a : Nat) : Bool :=
  !s.fusedOff a && (if 1 ≤ m ∧ m ≤ 64 then s.storeBasket a == some (m - 1) else true)

/-! ## Views: the registers that show what the hub holds elsewhere -/

/-- The word `i` of a bitmap whose bit is set where `p` holds of its unit. -/
def mapWord (p : Nat → Bool) (i : Nat) : Word := BitVec.ofNat 32 (((List.range 32).filter fun j => p (32 * i + j)).map fun j => 2 ^ j).sum

/-- Whole milliseconds in an elapsed time. -/
def millis (x : Nat) : Nat := x * 1000 / 2 ^ 48

/-- What register `a` shows, before the rules of who may read it (R134, R176, R204, R358, R369, R404, R454; DESIGN CHOICE, log entry 11). -/
def State.view (s : State) (m a : Nat) : Word :=
  if a = DEV_BLK_VIEW then s.reg DEV_BLK_EN &&& BitVec.ofNat 32 0xFFFF
  else if a = DEV_FUNC m then
    BitVec.ofNat 32 (m + (if 1 ≤ m ∧ m ≤ 64 then 256 * (m - 1) else 0) + if s.isKeeper m then 32768 else 0)
  else if a = HRT_STATUS then withBits (s.reg a) 16 16 (s.get HRT_STATUS_LEFT - millis (s.elapsed - s.hrt.leftFrom))
  else if a = TAL_STATUS then
    withBits (s.reg a) 16 16 (if s.get TAL_STATUS_STATE = 3 then min 65535 (millis (s.elapsed - s.tal.holdSince) / 1000) else 0)
  else if a = HRT_SRC_STATUS then s.srcStatus
  else if a = HRT_PHASE_A ∧ s.qstate 0 ≠ qABSENT then BitVec.ofInt 32 (s.trackedPhase 0)
  else if a = HRT_PHASE_B ∧ s.qstate 1 ≠ qABSENT then BitVec.ofInt 32 (s.trackedPhase 1)
  else if a = BSK_KEEPER_STATUS then
    withBits (s.reg a) 16 16 (if s.get BSK_KEEPER_STATUS_STATE = 2 then min 65535 (millis (s.elapsed - s.keeper.orphanAt) / 1000) else 0)
  else if a = PWR_PACE_TIME then
    match s.pwr.since with
    | some x => BitVec.ofNat 32 (s.get PWR_PACE_TIME_TIME + tens (s.elapsed - x))
    | none => s.reg a
  else match regIndex (STR_READY 0) 4 96 a, regIndex (SPK_PARKED 0) 4 8 a, regIndex (REED_BUSY 0) 4 8 a, regIndex (FC_BSK_STATE 0) 0x20 64 a with
    | some i, _, _, _ =>
      mapWord (fun k => decide (k < 1024) && s.flag (if i < 32 then STR_STATUS_READY k else if i < 64 then STR_STATUS_STALE k else STR_STATUS_RUN k)) (i % 32)
    | _, some i, _, _ => mapWord s.spokeParked i
    | _, _, some i, _ => mapWord (fun n => s.get (REED_STATUS_STATE n) != eIDLE) i
    | _, _, _, some b =>
      let gone := millis (s.elapsed - tabGet (fun _ => 0) s.col.quietAt b)
      if s.col.quiet.contains b then withBits (s.reg a) 16 16 (s.get (FC_BSK_STATE_QUIET_LEFT b) - gone) else s.reg a
    | _, _, _, _ => if REED_CFG 0 ≤ a ∧ a < REED_CFG 256 ∧ !s.flag (REED_CFG_ASSIGNED ((a - REED_CFG 0) / 0x20)) then 0 else s.reg a

/-- What register `a` holds for the reads of master `m`: its snapshot's copy, the word that a read of a wide value has latched, or what it shows (R349,
R352; DEDUCED, log entry 76). -/
def State.shown (s : State) (m a : Nat) : Word :=
  match (tabGet (fun _ => ({} : Snap)) s.snaps m).copies.find? fun e => e.1 == a with
  | some e => if (regIndex (SPK_STATUS 0) 0x10 256 a).isSome then withBits (s.view m a) 24 8 (bitsAt e.2 24 8) else e.2
  | none =>
    match s.latched.find? fun e => e.1 == a with
    | some e => e.2
    | none => s.view m a

/-- What register `a` reads as for master `m`: zero where its block is gated but for the RWS values that wait, and zero in each field that `m` does not
reach, that is write-only, or that is the keeper's (R3, R14, R326, R351, R452). -/
def State.readReg (s : State) (m a : Nat) : Word :=
  match regRow? a with
  | none => 0
  | some (row, _, _) =>
    let w := fun (x : Nat) => BitVec.ofNat 32 x
    let mask := s.reach m a &&& ~~~(w row.wo) &&& (if s.isKeeper m then w 0xFFFFFFFF else ~~~(w row.kp))
    if s.fusedOff a then 0
    else if s.enabledAt a then s.shown m a &&& mask
    else tabGet s.reg s.opnds a &&& w row.rws &&& mask

/-- The words above register `a` that a read of it latches (R349). -/
def wideOf (a : Nat) : List Nat :=
  if a = FC_FIRST_G0 then [FC_FIRST_G1]
  else if (regIndex (FC_BSK_LAST0 0) 0x20 64 a).isSome then [a + 4]
  else if a = DEV_SB_FAULT0 then [DEV_SB_FAULT1]
  else if (regIndex (LANE_PCTL_RX0 0) 0x1000 65 a).isSome then [a + 4]
  else if (regIndex (LANE_PCTL_TX0 0) 0x1000 65 a).isSome then [a + 4]
  else if (regIndex (DEV_SNAP_TALLY0 0) 0x1000 66 a).isSome then [a + 4, a + 8]
  else []

/-- What a read of register `a` latches: the upper words of a wide value, the tally, or a strand's set (R83, R134, R349;
DEDUCED, log entry 15). -/
def readLatch (a : Nat) (s : State) : State :=
  if a = TAL_NOW0 then
    let n := s.tally
    let t := s.setReg TAL_NOW0 (BitVec.ofNat 32 n)
    (t.setReg TAL_NOW1 (BitVec.ofNat 32 (n / 2 ^ 32))).setReg TAL_NOW2 (BitVec.ofNat 32 (n / 2 ^ 64))
  else match regIndex (STR_ACC0 0) 0x100 1024 a with
    | some k => latchStrand k s
    | none => { s with latched := (wideOf a).foldl (fun l w => (w, s.reg w) :: l.filter fun e => e.1 != w) s.latched }

/-- The value that a read returns: a free one once a scan has destroyed the core's state, and a free phase error in RIM_STATUS (R79, R437;
DESIGN CHOICE, log entry 17). -/
def readFree (a : Nat) (v : Word) (s : State) : Word × State :=
  let (i, t) := s.fresh
  if s.tap.scanned then (BitVec.ofNat 32 (Config.freeNat i), t)
  else if (regIndex (RIM_STATUS 0) 0x20 16 a).isSome ∧ v ≠ 0 ∧ bitsAt v 0 3 ≠ 0 then (withBits v 16 8 (Config.freeNat i), t)
  else (v, s)

/-- The PBA word `i` of function `f`: a bit for each vector with a message held (R341). -/
def State.pbaWord (s : State) (f i : Nat) : Word := mapWord (fun v => s.held.any fun h => h.1 == f && h.2.1 == v) i

/-- The staging area reads what was written while STAGING, and zero otherwise (R302). -/
def State.storeWord (s : State) (a : Nat) : Word := if a < 0x04200000 ∧ s.loadState ≠ pSTAGING then 0 else s.memWord a

/-- Master `m` is the VF of a basket that the plan in force does not name: it reads every location as zero (R298). -/
def State.nameless (s : State) (m : Nat) : Bool := decide (1 ≤ m) && decide (m ≤ 64) && (s.planNow.find sBASKETS (m - 1)).isNone

/-- What a read of `l` by master `m` returns, with the state it leaves; none is a poisoned completion (R298, R338, R349, R351). -/
def readLoc (m : Nat) (l : Loc) (s : State) : Option Word × State :=
  if s.nameless m then (some 0, s)
  else match l with
  | .reg _ a =>
    let t := if s.enabledAt a ∧ s.reach m a ≠ 0 ∧ !s.fusedOff a then readLatch a s else s
    let (v, u) := readFree a (t.readReg m a) t
    (some v, u)
  | .msix a => (some (s.reg a), s)
  | .pba f i => (some (s.pbaWord f i), s)
  | .mem a =>
    if !s.storeReach m a then (some 0, s)
    else if s.badEcc a then (none, raiseEcc a (s.storeBasket a) s)
    else
      let (v, u) := readFree 0 (s.storeWord a) s
      (some v, u)
  | .port _ | .none => (some 0, s)

/-- What a read sends back to master `m`. -/
def reply (m : Nat) : Option Word → Sent
  | some v => .readData m v
  | none => .poisoned m

end Sys2Proof.Machine
end

