-- ==== Sys2Proof/Machine/Reeds.lean ====
section
/-! DEFINITION. The reeds' commands and events (R186, R191 to R199, R204). -/

namespace Sys2Proof.Machine

/-- A REED_CMD by master `m` that names reed `n`: one from a virtual function for another basket's reed is ignored and counted, and another does `k`
(R204, R326). -/
def reedWrite (m n : Nat) (k : State → State) (s : State) : State :=
  gateWrite m REED_CMD false (fun s =>
    if 1 ≤ m ∧ m ≤ 64 ∧ !(s.flag (REED_CFG_ASSIGNED n) && s.get (REED_CFG_BASKET n) == m - 1) then countForeign m s
    else k s) s

/-- A command for reed `n`, which a reed that no basket has ignores (R186). -/
def reedCmd (m n : Nat) (k : State → State) (s : State) : State :=
  reedWrite m n (fun s => if s.flag (REED_CFG_ASSIGNED n) then k s else s.raise REED_EVENT_CMD_REJ) s

/-- REED_RUN: master `m` requests a run on reed `n` (R191, R193). -/
def execReedRun (m n : Nat) (s : State) : Out :=
  if n < 256 then done s (reedCmd m n (reedRequest n) s) else .next s

/-- REED_STOP: master `m` ends the run in progress on reed `n`, which had taken `d` (R191). -/
def execReedStop (m n : Nat) (d : ReedData) (s : State) : Out :=
  if n < 256 then
    done s (reedCmd m n (fun s =>
      if s.get (REED_STATUS_STATE n) = eRUNNING then reedFinish n true false false d s
      else s.put (REED_STATUS_STATE n) eIDLE) s)
  else .next s

/-- HIST_CLEAR: master `m` zeroes reed `n`'s histogram while the reed is IDLE; at any other time it is ignored (REED_CMD). -/
def execHistClear (m n : Nat) (s : State) : Out :=
  if n < 256 then
    done s (reedCmd m n (fun s => if s.get (REED_STATUS_STATE n) = eIDLE then clearHist n s else s.raise REED_EVENT_CMD_REJ) s)
  else .next s

/-- REED_RUN_START: waiting reed `n` finds a free record, reserves it and starts (R191, R198). -/
def execReedRunStart (n : Nat) (s : State) : Out := if n < 256 then done s (reedTryStart n s) else .next s

/-- REED_RUN_COMPLETE: reed `n`'s run has taken its samples from what it has seen, `d` (R191). Where its reference strand stops, the run has ended there
(`reedsStopped`). -/
def execReedRunComplete (n : Nat) (d : ReedData) (s : State) : Out :=
  if n < 256 ∧ s.get (REED_STATUS_STATE n) = eRUNNING ∧ s.reedTaken n d = true then done s (reedFinish n false false false d s) else .next s

/-- REED_RUN_MAX_EXPIRE: RUN_MAX has passed since reed `n`'s run started (R191). -/
def execReedRunMaxExpire (n : Nat) (d : ReedData) (s : State) : Out :=
  if n < 256 ∧ s.get (REED_STATUS_STATE n) = eRUNNING then done s (reedFinish n false true false d s) else .next s

/-- REED_RES_TAIL_WRITE: master `m` writes `v` to REED_RES_TAIL(n); a value past HEAD is ignored (R193, R198). -/
def execReedResTailWrite (m n : Nat) (v : Word) (s : State) : Out :=
  if n < 256 then
    done s (gateWrite m (REED_RES_TAIL n) false (fun s =>
      if (bitsAt v 0 10 + 1024 - s.get (REED_RES_TAIL_TAIL n)) % 1024 ≤ s.reedUsed n then reedFull n (storeRw m (REED_RES_TAIL n) v s)
      else s.raise REED_EVENT_VAL_REJ) s)
  else .next s

/-- REED_CFG_WRITE: master `m` writes `v` to REED_CFG(n), for the next run; a bad mode or count, or a breach of R186, ignores it whole. -/
def execReedCfgWrite (m n : Nat) (v : Word) (s : State) : Out :=
  if n < 256 then
    done s (gateWrite m (REED_CFG n) false (fun s =>
      if 4 < bitsAt v 0 3 ∨ 16 < bitsAt v 16 5 ∨ !s.reedCfgOk n v then s.raise REED_EVENT_VAL_REJ
      else storeRw m (REED_CFG n) v s) s)
  else .next s

end Sys2Proof.Machine
end

