-- ==== Sys2Proof/Machine/Rims.lean ====
section
/-! DEFINITION. The rims: lock, unlock, relock, migration, and the retune's deadline (R67 to R75, R79). -/

namespace Sys2Proof.Machine

/-- RIM_LOCK_DECLARE: the physical rim behind logical rim `n` declares lock with fine-tuning code `code`, in the band that its table holds for
its word, or else in `band`, which a search found (R68, R70, R217). A rim LOCKING is LOCKED; one in RETUNE ends its retune; one UNLOCKED has relocked (R72 step 4a). -/
def execRimLockDeclare (n code band : Nat) (s : State) : Out :=
  let st := s.get (RIM_STATUS_STATE n)
  if n < 16 ∧ (st = rLOCKING ∨ st = rRETUNE ∨ st = rUNLOCKED) then
    let t := noteLock n (s.get (RIM_STATUS_PHYS n)) code band s
    if st = rRETUNE then settled s (settleRim n (retuneDone n t))
    else if st = rUNLOCKED then settled s (settleRim n (rimRelocked n t))
    else settled s (settleRim n (rimReady n (t.put (RIM_STATUS_STATE n) rLOCKED)))
  else .next s

/-- The logical rim that is migrating to physical rim `p`. -/
def State.spareOf (s : State) (p : Nat) : Option Nat := (List.range 16).find? fun n => (s.rim n).mig.any fun g => g.spare == p

/-- RIM_UNLOCK: physical rim `p` declares unlock outside RETUNE (R72), the migration cases of R75 included: the old rim of a migration
without a hit unlocks, its spare unlocks, or the spare of an unlock-driven migration unlocks while it locks. -/
def execRimUnlock (p : Nat) (s : State) : Out :=
  match (List.range 16).find? fun n => s.rimBound n && (s.get (RIM_STATUS_PHYS n) == p) with
  | some n =>
    let st := s.get (RIM_STATUS_STATE n)
    if st = rLOCKED then settled s (rimUnlocked n false s)
    else if st = rMIGRATING then
      match (s.rim n).mig with
      | some g => if g.hitless then settled s (oldRimUnlocked n g s) else .next s
      | none => .next s
    else .next s
  | none =>
    match s.spareOf p with
    | some n =>
      match (s.rim n).mig with
      | some g => if g.hitless then settled s (migrationAbandon n g s) else settled s (spareLost n g s)
      | none => .next s
    | none => .next s

/-- RELOCK_WAIT_EXPIRE: RELOCK_WAIT has passed for rim `n`; with AUTO_MIGRATE set and a spare free the lowest-numbered one starts
locking, else the hub goes on waiting (R72 step 4b). -/
def execRelockWaitExpire (n : Nat) (s : State) : Out :=
  if n < 16 ∧ s.get (RIM_STATUS_STATE n) = rUNLOCKED ∧ (s.rim n).relockRun then
    let t := s.modRim n fun r => { r with relockRun := false }
    if t.flag RIM_POLICY_AUTO_MIGRATE then settled s (unlockMigrate n t)
    else settled s (t.modRim n fun r => { r with waitRelock := true })
  else .next s

/-- SPARE_RIM_LOCK: the spare of rim `n`'s migration declares lock with code `code` in band `band`: without a hit its wales start to
move; after an unlock every wale is rebound to it at once (R72 step 5, R74). -/
def execSpareRimLock (n code band : Nat) (s : State) : Out :=
  match (s.rim n).mig with
  | some g =>
    if g.locked then .next s
    else if g.hitless then
      let x := lockBand n g.spare band s
      let h := { g with locked := true, code := code, band := x.1.1, stored := x.1.2 }
      let t := x.2.modRim n fun r => { r with mig := some h }
      settled s (finishIfMoved n (if s.get RIM_MIG_STATUS_LOGICAL = n then showMig n h t else t))
    else settled s (spareTakesOver n code band g s)
  | none => .next s

/-- MIGRATION_WALE_MOVE: the next wale of rim `n`'s migration, in ascending number, has moved at the measured offset `delta`, in U; after
the last one the spare takes the logical number (R74, R126, R181). -/
def execMigrationWaleMove (n : Nat) (delta : Int) (s : State) : Out :=
  match (s.rim n).mig with
  | some g =>
    match g.hitless && g.locked, g.toMove with
    | true, w :: rest =>
      let t := eachDo (s.waleStrands w) (shiftStrand false delta) s
      let h := { g with toMove := rest, moved := (w, delta) :: g.moved }
      let t := t.modRim n fun r => { r with mig := some h }
      settled s (finishIfMoved n (if s.get RIM_MIG_STATUS_LOGICAL = n then showMig n h t else t))
    | _, _ => .next s
  | none => .next s

/-- RETUNE_MAX_EXPIRE: the retune of rim `n` has not locked within RETUNE_MAX: its hop completes as RETUNE_FAIL, and the rim is handled
as an unlock at the target word; a migration requested during it starts at once (R69, R71, R72, R165). A rim that a reweave has bound or given a new
word, and that has not locked within RETUNE_MAX, is handled as an unlock too; the time does not run before the hearth's first lock (R309, R394). -/
def execRetuneMaxExpire (n : Nat) (s : State) : Out :=
  if n < 16 ∧ (s.get (RIM_STATUS_STATE n) = rRETUNE ∨ (s.get (RIM_STATUS_STATE n) = rLOCKING ∧ s.hrt.everLocked)) then
    let t := s.raise (RIM_EVENT_RETUNE_TIMEOUT n)
    let t := endRetuneHop n cRETUNE_FAIL s t
    let d := (s.rim n).deferred
    let t := t.modRim n fun r => { r with retuneHop := none, deferred := none }
    let t := rimUnlocked n true t
    let t := endRetunePark n t
    match d with
    | some _ => settled s (unlockMigrate n (t.modRim n fun r => { r with relockRun := false }))
    | none => settled s t
  else .next s

/-- RIM_MIGRATE: master `m` writes `v` to RIM_MIGRATE; a GO starts a migration without a hit, is rejected with MIG_REJ, or waits
(R71, R74, R75, R305, R424). -/
def execRimMigrate (m : Nat) (v : Word) (s : State) : Out :=
  settled s <| gateWrite m RIM_MIGRATE true (fun s =>
    let s := keepRsvl m RIM_MIGRATE v s
    if bitsAt v 31 1 = 1 then migrateGo (bitsAt v 0 4) (bitsAt v 4 5) s else s) s

end Sys2Proof.Machine
end

