-- ==== Sys2Proof/Machine/Splice.lean ====
section
/-! DEFINITION. The splice's steps (R422, R423). -/

namespace Sys2Proof.Machine

/-- WAL_SPLICE_GO: master `m` writes `v` to WAL_SPLICE; GO starts a splice, is rejected with SPLICE_REJ, or waits for a load that includes the
strand (R422). -/
def execWalSpliceGo (m : Nat) (v : Word) (s : State) : Out :=
  settled s <| gateWrite m WAL_SPLICE true (fun s =>
    let s := keepRsvl m WAL_SPLICE v s
    let k := bitsAt v 0 10
    if bitsAt v 31 1 = 0 then s
    else if !(s.spliceOk k && (s.strand k).bound) then s.raise (WAL_EVENT_SPLICE_REJ (waleOf k))
    else spliceStart k s) s

/-- SPLICE_SHADOW_START: at the strand's commit boundary the spare of wale `w` takes its whole state (R422 step 2). A strand that is not
ready through its residual goes on to the handover at once. -/
def execSpliceShadowStart (w : Nat) (s : State) : Out :=
  match s.splice? w with
  | some x => if x.phase = .waitShadow then settled s (setSplice w { x with phase := if x.parked then .handover else .shadow } s) else .next s
  | none => .next s

/-- The pairs of a splice's measurement, each the spare's edge less the strand's by the check TDC of wale `w`, in units of 2^-23 of a rim period (R211,
R422 step 3). -/
def State.pairTimes (s : State) (w : Nat) (pairs : List (Nat × Nat)) : List Int := pairs.map fun p => nearZero (tdcTime (s.tdcBins w) p.1 - tdcTime (s.tdcBins w) p.2)

/-- A measurement has 4,096 pairs, or stops after 10 ms with at least 256 (R422 step 3). -/
def pairsEnough (pairs : List (Nat × Nat)) : Bool := decide (256 ≤ pairs.length ∧ pairs.length ≤ 4096)

/-- The change of position that undoes the mean of `l`, in U, ties away from zero: a rim period is 2^52 U, so a unit of `l` is 2^29 (R422 step 3; DEDUCED,
log entry 75). -/
def alignDelta (l : List Int) : Int := -(roundAway (l.sum * 2 ^ 29) l.length)

/-- SPLICE_ALIGN_END: the alignment of wale `w`'s splice ends with `pairs` (R422 step 3). -/
def execSpliceAlignEnd (w : Nat) (pairs : List (Nat × Nat)) (s : State) : Out :=
  match s.splice? w with
  | some x =>
    if x.phase = .shadow ∧ pairsEnough pairs = true then
      settled s (setSplice w { x with phase := .verify, tries := x.tries + 1, delta := x.delta + alignDelta (s.pairTimes w pairs) } s)
    else .next s
  | none => .next s

/-- The verification of R422 step 4 passes: the mean within ±20 fs, and the rms at most RMS_LIM. -/
def State.pairsPass (s : State) (w : Nat) (pairs : List (Nat × Nat)) : Bool :=
  let l := s.pairTimes w pairs
  meanWithin (s.waleWord w) l.length l.sum 20 && rmsWithin (s.waleWord w) l (10 * s.get WAL_CHECK_CFG_RMS_LIM)

/-- SPLICE_VERIFY_END: the verification of wale `w`'s splice ends with `pairs`; a first failure repeats the alignment and a second ends the splice
ABANDONED (R422 step 4, R423). -/
def execSpliceVerifyEnd (w : Nat) (pairs : List (Nat × Nat)) (s : State) : Out :=
  match s.splice? w with
  | some x =>
    if x.phase = .verify ∧ pairsEnough pairs = true then
      if s.pairsPass w pairs then settled s (setSplice w { x with phase := .handover } s)
      else if x.tries < 2 then settled s (setSplice w { x with phase := .shadow } s)
      else settled s (spliceFail w s)
    else .next s
  | none => .next s

/-- SPLICE_HANDOVER: at the next boundary the strand's spokes take their edges from the spare (R422 step 5). -/
def execSpliceHandover (w : Nat) (s : State) : Out :=
  match s.splice? w with
  | some x =>
    if x.phase = .handover then settled s (spliceDone x.strand (shiftStrand true x.delta x.strand s)) else .next s
  | none => .next s

end Sys2Proof.Machine
end

