-- ==== Sys2Proof/Machine/Tally.lean ====
section
/-! DEFINITION. The tally: its messages, delay exchanges, domains, states and commands (R80 to R106). -/

namespace Sys2Proof.Machine

/-- The offset of a domain as TAL_OFF shows it: in whole fs, rounded down, saturating (R89; DESIGN CHOICE, log entry 89). -/
def offFs (off : Int) : Word :=
  let f := off * 10 ^ 15 / 2 ^ 48
  BitVec.ofInt 32 (max (-(2 ^ 31 - 1)) (min (2 ^ 31 - 1) f))

/-- A gap in SEQ is counted and reported (R86). SEQ is followed across times when the lane is not ACTIVE (DESIGN CHOICE, log entry 92). -/
def noteSeq (x : Nat) (m : SyncMsg) (s : State) : State :=
  let t := match (s.dom x).seq with
    | some q =>
      let g := (m.seq + 2 * 65536 - q - 1) % 65536
      if g = 0 then s else (s.addSat (gaps x) g).raise TAL_EVENT_SEQ_GAP
    | none => s
  t.setDom x { (t.dom x) with seq := some (m.seq % 65536) }

/-- An accepted message of domain `x` (R85, R89, R94, R95): its offset is published, the domain's state moves, and the servo takes it
where it steers the tally. The servo's law is not in the spec beyond its bandwidth and its limit: the rate it sets is a free value within
that limit (R80, R98; DESIGN CHOICE, log entry 23), and beside it the slew that removes an offset, within its own limit (R97). JUMP_THR is not applied
while the domain is INVALID, since no prediction stands then (DESIGN CHOICE, log entry 93). -/
def acceptSync (x : Nat) (m : SyncMsg) (s : State) : State :=
  let corr := m.correction + dIn x s
  let off := (m.tIn : Int) - ((m.origin : Int) + roundAway (corr * 2 ^ 32) 1000000000)
  let d := s.dom x
  let tmo := s.get TAL_DOM_CFG_DOM_TMO * 2 ^ 48 / 10000
  let near := match d.last with | some t => decide (s.elapsed ≤ t + tmo) | none => false
  let t := s.setReg (TAL_OFF_A + 4 * x) (offFs off)
  let far := s.domState x != dINVALID && decide (100000 * s.get TAL_DOM_CFG_JUMP_THR < m.dev.natAbs)
  let d := { d with off := off, last := some s.elapsed, close := near, jumps := if far then d.jumps + 1 else 0 }
  let t := t.setDom x d
  if far then
    let t := t.incSat (refused x)
    if 3 ≤ d.jumps then domainInvalid x t else t
  else
    let t := t.incMod (accepted x)
    let t := if t.domState x = dINVALID then t.put (domFld x) dCHECKING else t
    let t := tryValid x t
    if t.get TAL_STATUS_SEL = x ∧ (t.get TAL_STATUS_STATE = tACQUIRE ∨ t.get TAL_STATUS_STATE = tTRACKING) then
      let (i, u) := t.fresh
      let (j, u) := u.fresh
      setRate (Config.freeInt i) (if u.flag TAL_STATUS_SLEWING then u.slewPart off (Config.freeNat j) else 0) u
    else t

/-- SYNC_FORWARD: the message leaves on the chain port with the ingress delay and the residence time added to CORRECTION, and HOPS one
higher; while the chain link is not ACTIVE or replays it does not (R29, R87, R88, R282). -/
def forwardSync (x : Nat) (m : SyncMsg) (s : State) : State :=
  let res := roundAway (((m.tOut : Int) - m.tIn) * 1000000000) (2 ^ 32)
  if !s.laneActive (2 + x) || (s.link (2 + x)).episode.isSome then s
  else s.emit (.sync (2 + x) { m with correction := m.correction + dIn x s + res, hops := (m.hops + 1) % 8 })

/-- SYNC_RECEIVE: message `m` arrives on warp lane `x` (R82, R84 to R89). -/
def execSyncReceive (x : Nat) (m : SyncMsg) (s : State) : Out :=
  if x < 2 ∧ s.laneActive x then
    if s.flag (LANE_STATUS_REPLAY x) then done s (s.incSat (refused x))
    else
      let t := forwardSync x m (noteSeq x m s)
      let wrong := ((m.dom = 1 ∨ m.dom = 2) ∧ m.dom ≠ x + 1) ∨ m.hops ≠ s.get TAL_STATUS_CHAIN_POS
      if wrong then
        let t := (t.incSat (refused x)).raise TAL_EVENT_WIRE_ERR
        let why := if (m.dom = 1 ∨ m.dom = 2) ∧ m.dom ≠ x + 1 then 0 else 1
        done s (raiseFault (srcTally (1 + x)) .talWire none why t)
      else if m.dom ≠ x + 1 ∨ 12 < m.logInt ∨ m.flags % 2 = 0 then done s (t.incSat (refused x))
      else done s (acceptSync x m t)
  else .next s

/-- The hub is the requester on lane `p`: a warp lane, or the lowest lane of an ACTIVE partner's bond that negotiated BEAT (R91, R275). -/
def State.requester (s : State) (p : Nat) : Bool :=
  let h := s.get (LANE_STATUS_HANDLE p)
  s.laneActive p && (p < 2 || (h < 96 && s.get (LANE_PTN_STATUS_FIRST h) == p && s.flag (LANE_PTN_STATUS_TIME h)))

/-- DELAY_REQ_SEND: a request with number `seq` leaves lane `p` at `t1` (R90, R91). -/
def execDelayReqSend (p seq t1 : Nat) (s : State) : Out :=
  if s.requester p then
    done s (({ s with tal := { s.tal with reqs := (p, seq, t1) :: s.tal.reqs } }).emit (.delayReq p seq))
  else .next s

/-- DELAY_REQ_RECEIVE: on a chain port the hub answers request `seq`, which arrived at `t2`, with the turnaround to `t3` (R90, R91). -/
def execDelayReqReceive (p seq t2 t3 : Nat) (s : State) : Out :=
  if (p = 2 ∨ p = 3) ∧ s.laneActive p then done s (s.emit (.delayResp p seq (t3 - t2))) else .next s

/-- What a lane's exchanges publish (R90, R91, R93). -/
def publishDelay (p : Nat) (s : State) : State :=
  let l := s.avgOf p
  if p < 2 then
    let t := showCount p (s.setReg (TAL_DLY_A + 4 * p) (BitVec.ofInt 32 (delayFs l (asymOf s p))))
    let t := if l.length = 4096 ∧ !s.flag ⟨TAL_DLCAL_STATUS, 13 + 16 * p, 1⟩ then t.raise ⟨TAL_EVENT, 12 + p, 1⟩ else t
    tryValid p t
  else
    let h := s.get (LANE_STATUS_HANDLE p)
    s.setReg (TAL_BEAT_DLY h) (BitVec.ofInt 32 (delayFs l (signed 32 (s.reg (TAL_BEAT_ASYM h)).toNat)))

/-- DELAY_RESP_RECEIVE: the response to request `seq` on lane `p`, with turnaround `turn`, arrives at `t4`; the exchange counts and enters
the average of the most recent 4,096 (R90, R91, R93). -/
def execDelayRespReceive (p seq turn t4 : Nat) (s : State) : Out :=
  match s.tal.reqs.find? fun r => r.1 == p && r.2.1 == seq with
  | some r =>
    if s.requester p then
      let t := { s with tal := { s.tal with reqs := s.tal.reqs.filter fun q => !(q.1 == p && q.2.1 == seq) } }
      let x : Int := (t4 : Int) - r.2.2 - turn
      done s (publishDelay p (setAvg p ((x :: t.avgOf p).take 4096) t))
    else .next s
  | none => .next s

/-- DELAY_RESP_TIMEOUT: no response within 100 µs; the exchange is not counted and not retried (R93). -/
def execDelayRespTimeout (p seq : Nat) (s : State) : Out :=
  done s { s with tal := { s.tal with reqs := s.tal.reqs.filter fun q => !(q.1 == p && q.2.1 == seq) } }

/-- DOMAIN_TIMEOUT: no message of domain `x` accepted for DOM_TMO (R94). -/
def execDomainTimeout (x : Nat) (s : State) : Out :=
  if x < 2 then done s (domainInvalid x s) else .next s

/-- TALLY_TRACK_ENTER: the offset has stayed within 10 ps for 1 s in ACQUIRE (R98). -/
def execTallyTrackEnter (s : State) : Out :=
  if s.get TAL_STATUS_STATE = tACQUIRE then done s ((s.put TAL_STATUS_STATE tTRACKING).raise TAL_EVENT_TRACK) else .next s

/-- TALLY_SLEW_DONE: the remaining offset is within 10 ps, SLEWING clears, and the servo's ordinary correction is left (R97). -/
def execTallySlewDone (s : State) : Out :=
  if s.flag TAL_STATUS_SLEWING then done s (setRate s.tal.servo 0 (s.lower TAL_STATUS_SLEWING)) else .next s

/-- DOMAIN_REVERT: the domain first in DOM_PRIO has been VALID for WTR, and with REVERTIVE set the tally returns to it (R96). -/
def execDomainRevert (s : State) : Out :=
  match domOrder s with
  | x :: _ =>
    if s.flag TAL_CTRL_REVERTIVE ∧ s.domState x = dVALID ∧ s.get TAL_STATUS_SEL ≠ x ∧ s.get TAL_STATUS_SEL < 2 ∧ s.get TAL_STATUS_STATE ≠ tFREE then
      done s (domainSwitch x s)
    else .next s
  | [] => .next s

/-- BEAT_MARKER_SEND: a marker leaves partner `h`'s lowest lane at `stamp`; ARRIVE adds TAL_BEAT_DLY(h), in tally LSBs to the nearest; none while
the bond replays or after it negotiated NONE (R102, R103, R269, R275; DESIGN CHOICE, log entry 89). -/
def execBeatMarkerSend (h stamp : Nat) (s : State) : Out :=
  let p := s.get (LANE_PTN_STATUS_FIRST h)
  if h < 96 ∧ s.flag (LANE_PTN_STATUS_PRESENT h) ∧ s.flag (LANE_PTN_STATUS_TIME h) ∧ s.laneActive p ∧ !s.flag (LANE_STATUS_REPLAY p) then
    let d := roundAway ((s.reg (TAL_BEAT_DLY h)).toNat * 2 ^ 48) (10 ^ 15)
    let q := tabGet (fun _ => 0) s.tal.beats h
    let arrive := (((stamp : Int) + d) % (2 ^ 96 : Int)).toNat
    let t := { s with tal := { s.tal with beats := tabSet (fun _ => 0) s.tal.beats h ((q + 1) % 256) } }
    done s (t.emit (.beat p q (s.get TAL_STATUS_STATE) (s.get TAL_CTRL_BEAT_EXP - 10) arrive))
  else .next s

/-- The domain that a TAL_CMD STEP or SLEW goes to: the selected one where it is VALID, else the first VALID one. -/
def cmdDomain (s : State) : Option Nat :=
  if s.get TAL_STATUS_SEL < 2 ∧ s.domState (s.get TAL_STATUS_SEL) = dVALID then some (s.get TAL_STATUS_SEL) else firstValid s

/-- TAL_CMD STEP by master `m` (R98, R100); with no VALID domain it is ignored and sets VAL_REJ. -/
def execTalStep (m : Nat) (s : State) : Out :=
  done s <| gateWrite m TAL_CMD true (fun s =>
    match cmdDomain s with
    | some x => enterAcquire x (tallyStep x s)
    | none => s.raise TAL_EVENT_VAL_REJ) s

/-- TAL_CMD SLEW by master `m`: the offset is removed at ACQ_SLEW, whatever it is (R98). -/
def execTalSlew (m : Nat) (s : State) : Out :=
  done s <| gateWrite m TAL_CMD true (fun s =>
    match cmdDomain s with
    | some x => if s.get TAL_STATUS_STATE = tFREE then s else beginSlew true (enterAcquire x s)
    | none => s.raise TAL_EVENT_VAL_REJ) s

/-- TAL_CMD SWITCH_NOW by master `m`: the first VALID domain in DOM_PRIO is selected at once (R96). -/
def execTalSwitchNow (m : Nat) (s : State) : Out :=
  done s <| gateWrite m TAL_CMD true (fun s =>
    match firstValid s with
    | some x =>
      if s.get TAL_STATUS_SEL ≠ x ∧ s.get TAL_STATUS_STATE ≠ tFREE then domainSwitch x s else s
    | none => s) s

/-- TAL_CMD RESTART_DLCAL by master `m`: both warp lanes' averages restart (R93). -/
def execRestartDlcal (m : Nat) (s : State) : Out :=
  done s (gateWrite m TAL_CMD true (fun s => restartAvg 1 (restartAvg 0 s)) s)

/-- TAL_ASYM_WRITE: master `m` declares warp link `x`'s asymmetry as `v` fs, which restarts its average (R93). -/
def execTalAsymWrite (m x : Nat) (v : Word) (s : State) : Out :=
  if x < 2 then done s (gateWrite m (TAL_ASYM_A + 4 * x) true (fun s => restartAvg x (s.setReg (TAL_ASYM_A + 4 * x) v)) s) else .next s

/-- TAL_NOW0_READ: master `m` reads TAL_NOW0, which samples the tally and latches TAL_NOW1 and TAL_NOW2 (R83, R349). -/
def execTalNow0Read (m : Nat) (s : State) : Out :=
  done s <| gateRead m TAL_NOW0 (fun s =>
    let n := s.tally
    let t := s.setReg TAL_NOW0 (BitVec.ofNat 32 n)
    (t.setReg TAL_NOW1 (BitVec.ofNat 32 (n / 2 ^ 32))).setReg TAL_NOW2 (BitVec.ofNat 32 (n / 2 ^ 64))) s

end Sys2Proof.Machine
end

