-- ==== Sys2Proof/Machine/HostWrite.lean ====
section
/-! DEFINITION. Writes of registers and stores by whatever path they come: ranges, the RWS rule, wide values, aliases, and the command registers
(R14, R15, R140, R338, R348 to R351, R449). -/

namespace Sys2Proof.Machine

/-! ## Ranges (R78, R79, R106, R135, R204, R288, R315, R383, R404) -/

/-- A value lies from `lo` to `hi`. -/
def within (lo hi x : Nat) : Bool := decide (lo ≤ x ∧ x ≤ hi)

/-- The word that a write would leave in register `a` has every field in its range; none of the spec's ranges is left out. -/
def rangeOk (a : Nat) (v : Word) : Bool :=
  let f := bitsAt v
  if a = HRT_XREF_FREQ then within 10000000 250000000 v.toNat
  else if a = HRT_MON_CFG then within 1 1000 (f 0 10) && within 1 100 (f 10 7)
  else if a = HRT_HOLD_CFG then within 0 10000 (f 0 14) && within 1 10000 (f 16 14)
  else if a = RIM_POLICY then within 1 1000 (f 0 10) && within 10 4000 (f 16 12)
  else if (regIndex (RIM_CTRL 0) 0x20 16 a).isSome then f 2 8 != 0
  else if a = TAL_CTRL then within 0 9 (f 2 4) && within 0 4 (f 6 3) && within 0 2 (f 9 3) && within 10 20 (f 16 8)
  else if a = TAL_DOM_CFG then within 1 1000 (f 0 10) && within 1 255 (f 10 8) && within 1 1000 (f 18 10)
  else if a = WAL_CHECK_CFG then within 1 64 (f 0 7) && within 1 100 (f 8 8) && within 1 255 (f 16 8) && within 1 255 (f 24 8)
  else if (regIndex (REED_GATE 0) 0x20 256 a).isSome then f 0 24 != 0
  else if (regIndex (REED_RUN_MAX 0) 0x20 256 a).isSome then f 0 16 != 0
  else if a = LANE_POLICY then within 5 100 (f 0 8) && within 1 50 (f 8 8) && within 1 100 (f 16 8) && within 1 100 (f 24 8)
  else if a = PLAN_CFG then f 0 8 != 0
  else if a = FC_CFG then within 1 1000 (f 0 10)
  else if a = PWR_PACE_CFG then
    within 1 15 (f 24 4) && decide (f 24 4 < f 0 8 ∧ f 0 8 < f 8 8 ∧ f 8 8 < f 16 8 ∧ f 16 8 ≤ 120)
  else true

/-- The event bits that report a write ignored for its value. The rim block has one for each rim and none for RIM_POLICY alone. -/
def rangeEvents (m a : Nat) : List Fld :=
  if a < 0x20000 then [HRT_EVENT_VAL_REJ]
  else match regIndex (RIM_CTRL 0) 0x20 16 a with
    | some n => [RIM_EVENT_VAL_REJ n]
    | none =>
      if a = TAL_CTRL ∨ a = TAL_DOM_CFG then [TAL_EVENT_VAL_REJ]
      else if a = WAL_CHECK_CFG then (List.range 64).map WAL_EVENT_VAL_REJ
      else if 0x70000 ≤ a ∧ a < 0x80000 then [REED_EVENT_VAL_REJ]
      else if a = LANE_POLICY then [LANE_EVENT_VAL_REJ (copyOf m)]
      else if a = PLAN_CFG then [PLAN_EVENT_VAL_REJ]
      else if a = FC_CFG then [FC_EVENT_VAL_REJ]
      else if a = PWR_PACE_CFG then [PWR_EVENT_VAL_REJ]
      else []

/-! ## Plain writes -/

/-- A write to a register that is partly or wholly one with a field of a master's own: what a write by a master that is not the keeper counts. -/
def countsKp (m a : Nat) (row : RegRow) (s : State) : Bool :=
  row.kp != 0 && !s.isKeeper m && !(decide (1 ≤ m ∧ m ≤ 64) && pageOf a == 0)

/-- The value of an RWS field of a gated block waits until the block is enabled (R39, R351). -/
def storeRws (m a : Nat) (v : Word) (row : RegRow) (s : State) : State :=
  let mask := BitVec.ofNat 32 row.rws &&& s.writeMask m a row
  let old := tabGet s.reg s.opnds a
  let new := (old &&& ~~~mask) ||| (v &&& mask)
  let rws := BitVec.ofNat 32 row.rws
  if mask = 0 then s
  else if rangeOk a ((s.reg a &&& ~~~rws) ||| (new &&& rws)) then { s with opnds := tabIns a (new &&& rws) (s.opnds.filter fun c => c.1 ≠ a) }
  else eachDo (rangeEvents m a) (fun f t => t.raise f) s

/-- The words of a write-only field wait for the command that takes them (DEDUCED, log entry 58). -/
def storeOpnd (m a : Nat) (v : Word) (row : RegRow) (s : State) : State :=
  let mask := BitVec.ofNat 32 row.wo &&& s.writeMask m a row
  if mask = 0 then s else { s with opnds := tabSet (fun _ => (0 : Word)) s.opnds a (v &&& mask) }

/-- The word whose fields a write of `v` to register `a` of an enabled block is checked for: an RWS field is not written, so it counts with the value it
has (R348, R351; DEDUCED, log entry 33). -/
def checkedWord (row : RegRow) (old v : Word) : Word := (v &&& ~~~(BitVec.ofNat 32 row.rws)) ||| (old &&& BitVec.ofNat 32 row.rws)

/-- The reserved bits of register `a` take those of a write that reaches it (R16, R348). -/
def storeRsvl (m a : Nat) (v : Word) (s : State) : State := if s.hostOk m ∧ s.enabledAt a ∧ !s.fusedOff a then keepRsvl m a v s else s

/-- Register `a` of master `m` starts commands by the code written to it. -/
def isCommandReg (m a : Nat) : Bool :=
  [HRT_CMD, TAL_CMD, STR_CMD, SPK_FORCE, REED_CMD, LANE_CMD, LANE_PCTL_RX_INFO (copyOf m), PLAN_CMD, BSK_CMD, BSK_KEEPER_CMD, FC_FORCE_CMD (copyOf m),
    PWR_CMD, BIST_CMD, LC_FUSE_CMD].contains a

/-- A write of `v` to register `a`, which acts as no command, by a master that reaches its function; `at_` is how the access named it, and `ind` whether
through IND_DATA (R14, R326, R348, R351). -/
def plainStore (m a at_ : Nat) (ind : Bool) (v : Word) (s : State) : State :=
  match regRow? a with
  | none => s
  | some (row, _, _) =>
    if s.fusedOff a then s
    else if !s.enabledAt a then storeRws m a v row s
    else if s.reach m a = 0 then (if countsKp m a row s then countKp m s else s)
    else if rangeOk a (checkedWord row (s.reg a) v) || s.writeMask m a row &&& BitVec.ofNat 32 (row.rw ||| row.rws) == 0 then storeOpnd m a v row (storeAt m a at_ ind v s)
    else eachDo (rangeEvents m a) (fun f t => t.raise f) (if countsKp m a row s then countKp m s else s)

/-- The lower word of the one wide field that is written, LANE_PCTL_TX0 and TX1, waits in the master's holding buffer for the upper one (R349;
DEDUCED, log entry 77). -/
def plainWrite (m a at_ : Nat) (ind : Bool) (v : Word) (s : State) : State :=
  let c := copyOf m
  if !s.hostOk m then s
  else if a = LANE_PCTL_TX0 c ∧ s.enabledAt a then
    { s with bufs := tabIns m ⟨if ind then at_ else at_ + 2 ^ 31, [(a, v)]⟩ (s.bufs.filter fun e => e.1 ≠ m) }
  else if a = LANE_PCTL_TX1 c ∧ s.enabledAt a then
    match s.bufs.find? fun e => e.1 == m && e.2.words.any fun w => w.1 == LANE_PCTL_TX0 c with
    | some e =>
      let t := { s with bufs := s.bufs.filter fun x => x.1 != m }
      eachDo e.2.words (fun w u => u.setReg w.1 w.2) (t.setReg a v)
    | none => dropBuf m s |>.setReg a v
  else plainStore m a at_ ind v (dropBuf m s)

/-! ## MSI-X (R341) -/

/-- A source bit of the held message's source is still set. -/
def State.sourceSet (s : State) (e : Nat × Nat) : Bool := s.regs.any fun c => (s.irqSources c.1 c.2).contains e

/-- Function `f` sends what was held and is held no longer: one message for each vector with a source bit still set; the PBA bits clear. -/
def sendHeld (f : Nat) (s : State) : State :=
  let go := s.held.filter fun h => h.1 == f && !s.msixHeld f h.2.1
  let vecs := ((go.filter fun h => s.sourceSet (f, h.2.2)).map fun h => h.2.1).dedup
  { s with held := s.held.filter fun h => !go.contains h, sent := vecs.map (Sent.msix f) ++ s.sent }

/-- Word `a` of an MSI-X table is written: an unmasked vector sends what it held. -/
def msixWrite (a : Nat) (v : Word) (s : State) : State :=
  let w := if a % 16 = 12 then v &&& 1 else if a % 16 = 0 then v &&& ~~~3 else v
  sendHeld ((a - 0x20000000) / 0x2000) (s.setReg a w)

/-! ## Stores (R140, R302, R338, R412, R449) -/

/-- Entry `j` of the queue store belongs to a lane command ring or a completion ring (DEDUCED, log entry 72). -/
def State.hubEntry (s : State) (j : Nat) : Bool :=
  match s.ringOf j with
  | some r => s.get (RING_DESC1_KIND r) != 1
  | none => false

/-- The bytes of `bs`, lowest first, are written at word `a` of a store where there is one; a word of a record other than its last makes the record
invalid (R140). -/
def putBytes (a : Nat) (bs : List (Option Nat)) (s : State) : State :=
  let t := eachDo bs.zipIdx (fun e u => match e.1 with | some x => u.setByte (a + e.2) (BitVec.ofNat 8 x) | none => u) s
  let t := if bs.all Option.isSome then { t with eccBad := t.eccBad.filter fun x => x != a } else t
  if 0x10000000 ≤ a ∧ a < 0x12000000 ∧ a % 32 ≠ 28 ∧ bs.any Option.isSome then
    let z := a - a % 32 + 28
    t.setMemWord z (t.memWord z &&& ~~~1)
  else t

/-- The four bytes of a word. -/
def bytesOf (v : Word) : List (Option Nat) := (List.range 4).map fun i => some (bitsAt v (8 * i) 8)

/-- A word of a store with the bytes of `bs` in place of its own. -/
def mergeBytes (old : Word) (bs : List (Option Nat)) : Word :=
  BitVec.ofNat 32 ((bs.zipIdx.map fun e => (e.1.getD (bitsAt old (8 * e.2) 8)) % 256 * 256 ^ e.2).sum)

/-- Master `m` writes bytes of the word at `a` of a store. It is dropped where `m` does not reach it, where the entry is the hub's own, and where its
macro has FAILED; the staging area takes words as R302 says. -/
def storeBytes (m a : Nat) (bs : List (Option Nat)) (s : State) : State :=
  if !s.storeReach m a ∨ bs.all Option.isNone then s
  else if a < 0x04200000 then (if s.enabled 10 then stagingWrite m ((a - 0x04000000) / 4) (mergeBytes (s.memWord a) bs) s else s)
  else if 0x14000000 ≤ a ∧ s.hubEntry ((a - 0x14000000) / 16) then s
  else if s.flag (mapBit BIST_MEM_FAIL (macroOf a)) then s
  else putBytes a bs s

/-! ## The command registers -/

/-- A write of a register that only reports it. -/
def rejects (m a : Nat) (kp : Bool) (f : Fld) (s : State) : Out := done s (gateWrite m a kp (fun t => t.raise f) s)

/-- A write of `v` to a register that acts as a command, or has an effect of its own beside its value; none for every other register. `r` and `ok` are the
findings of a shutdown's self-test and of a fuse word's verification, where the word written brings these about (DEDUCED, log entry 16). -/
def regCommand (r : SelfTest) (ok : Bool) (m a : Nat) (v : Word) (s : State) : Option Out :=
  let f := bitsAt v
  let c := copyOf m
  let s := if isCommandReg m a then storeRsvl m a v s else s
  let code := f 0 4
  let quiet := fun (kp : Bool) => some (done s (gateWrite m a kp id s))
  let rej := fun (kp : Bool) (e : Fld) => some (rejects m a kp e s)
  if a = HRT_CTRL then some (execHrtCtrlWrite m v s)
  else if a = HRT_XREF_SETTLE then some (execHrtXrefSettleWrite m v s)
  else if a = HRT_CMD then
    (if code = 0 then quiet true else if code = 1 then some (execRequalifyX m s) else if code = 2 then some (execClearHistory m s)
      else if code = 3 then some (execHrtSwitchNow m s) else rej true HRT_EVENT_VAL_REJ)
  else if a = RIM_MIGRATE then some (execRimMigrate m v s)
  else if a = TAL_CMD then
    (if code = 0 then quiet true else if code = 1 then some (execTalStep m s) else if code = 2 then some (execTalSlew m s)
      else if code = 3 then some (execTalSwitchNow m s) else if code = 4 then some (execRestartDlcal m s) else rej true TAL_EVENT_VAL_REJ)
  else if a = TAL_ASYM_A ∨ a = TAL_ASYM_B then some (execTalAsymWrite m ((a - TAL_ASYM_A) / 4) v s)
  else if a = STR_CMD then
    (if f 12 4 = 0 then quiet false else if f 12 4 = 1 then some (execSlotClear m (f 0 10) (f 16 2) (f 18 1 == 1) s)
      else if f 12 4 = 2 then some (execRecheck m (f 0 10) s) else rej false STR_CMD_STATUS_REJ)
  else if a = WAL_SPLICE then some (execWalSpliceGo m v s)
  else if a = SPK_FORCE then
    (if f 31 1 = 0 then quiet true else if f 9 1 = 0 then some (execSpkForcePark m (f 0 8) (f 8 1 == 1) s)
      else some (execSpkForceRelease m (f 0 8) (f 8 1 == 1) s))
  else if a = REED_CMD then
    (if f 8 4 = 0 then some (done s (reedWrite m (f 0 8) id s)) else if f 8 4 = 1 then some (execReedRun m (f 0 8) s)
      else if f 8 4 = 2 then some (done s (reedCmd m (f 0 8) (reedCut (f 0 8)) s))
      else if f 8 4 = 3 then some (execHistClear m (f 0 8) s) else some (done s (reedWrite m (f 0 8) (fun t => t.raise REED_EVENT_CMD_REJ) s)))
  else if a = RING_DB then some (execRingDoorbell m v s)
  else if a = RING_ARM_TOTAL then some (execArmPeakWrite m none (storeRsvl m a v s))
  else if a = LANE_CMD then
    (let p := f 0 7
     if f 8 4 = 0 then quiet true else if f 8 4 = 1 then some (execRetrain m p s) else if f 8 4 = 2 then some (execLaneRetire m p s)
      else if f 8 4 = 3 then some (execSubstitute m p s) else rej true (LANE_EVENT_CMD_REJ c))
  else if a = LANE_PCTL_CTRL c then some (execPctlSend m v s)
  else if a = LANE_PCTL_RX_INFO c then (if f 7 1 = 1 then some (execPctlRxRelease m s) else quiet false)
  else if a = PLAN_CMD then
    (if code = 0 then quiet true else if code = 1 then some (execPlanOpen m s) else if code = 2 then some (execPlanVerify m s)
      else if code = 3 then some (execPlanCommit m s) else if code = 4 then some (execPlanAbort m s) else if code = 5 then some (execStoreBoot m s)
      else if code = 6 then some (execSetMinSeq m s) else rej true PLAN_EVENT_CMD_REJ)
  else if a = BSK_CMD then
    (if f 8 4 = 0 then quiet true else if f 8 4 = 1 then some (execClearFaulted m (f 0 6) s) else if f 8 4 = 2 then some (execClearRecov m (f 0 6) s)
      else if f 8 4 = 3 then some (execClearViol m s) else rej true BSK_EVENT_CMD_REJ)
  else if a = BSK_KEEPER_CMD then
    (if code = 0 then quiet false else if code = 1 then some (execChallenge m s) else if code = 2 then some (execRespond m (f 4 2) s)
      else if code = 3 then some (execKeeperDetach m s) else rej false BSK_EVENT_CMD_REJ)
  else if a = FC_FORCE_CMD c then
    (if f 31 1 = 0 then quiet false else if f 0 2 = 0 then some (execFaultPulse m s) else if f 0 2 = 1 then some (execFaultHold m s)
      else if f 0 2 = 2 then some (execFcRelease m s) else some (done s (forceCmd m (forceRej m 1) s)))
  else if a = FC_LOG_TAIL then some (execFcLogTailWrite m v s)
  else if a = PWR_CMD then
    (if code = 0 then quiet true else if code = 1 then some (execShutdown m r s) else if code = 2 then some (execClearPeak m s)
      else rej true PWR_EVENT_CMD_REJ)
  else if a = PWR_PACE_FORCE then some (execPwrPaceForceWrite m v s)
  else if a = BIST_CMD then
    (if code = 0 then quiet true else if code = 1 then some (execFullNext m s) else if code = 2 then some (execCancelFull m s)
      else if code = 3 then some (execStoreMap m s) else rej true BIST_EVENT_CMD_REJ)
  else if a = LC_CMD then (if code = 0 then quiet true else some (lcWrite m code v s))
  else if a = LC_FUSE_CMD then
    (if f 0 2 = 0 then quiet true else if f 0 2 = 1 then some (execFuseRead m s) else if f 0 2 = 2 then some (execFuseProgram m ok s)
      else rej true LC_EVENT_FUSE_REJ)
  else match regIndex (SPK_CFG 0) 0x10 256 a, regIndex (REED_CFG 0) 0x20 256 a, regIndex (REED_RES_TAIL 0) 0x20 256 a, regIndex (RING_BSK_PEAK 0) 0x40 64 a with
    | some n, _, _, _ => some (execSpkCfgWrite m n v s)
    | _, some n, _, _ => some (execReedCfgWrite m n v s)
    | _, _, some n, _ => some (execReedResTailWrite m n v s)
    | _, _, _, some b => some (execArmPeakWrite m (some b) (storeRsvl m a v s))
    | _, _, _, _ => none

/-! ## Aliases (R348) -/

/-- The word that a write of `v` to an alias writes to the register that holds `old`: RW and RWS bits as the alias says, RSVL bits as written, and
nothing to any other bit. -/
def aliasWord (op : Nat) (row : RegRow) (old v : Word) : Word :=
  let rw := BitVec.ofNat 32 (row.rw ||| row.rws)
  let x := if op = 1 then old ||| v else if op = 2 then old &&& ~~~v else old ^^^ v
  (x &&& rw) ||| (v &&& BitVec.ofNat 32 row.rsvl)

/-- The word that a word of a store takes from an alias of the port: it counts as one RW field (DEV_IND_DATA). -/
def aliasStore (op : Nat) (old v : Word) : Word :=
  if op = 0 then v else if op = 1 then old ||| v else if op = 2 then old &&& ~~~v else old ^^^ v

/-- The value on which an alias of register `a` acts: for an RWS field of a gated block, the one that waits. -/
def State.aliasOld (s : State) (a : Nat) : Word :=
  if s.enabledAt a then s.reg a
  else match regRow? a with
    | some (row, _, _) => let rws := BitVec.ofNat 32 row.rws; (s.reg a &&& ~~~rws) ||| (tabGet s.reg s.opnds a &&& rws)
    | none => s.reg a

/-- A write of `v` by master `m` to what `l` names, through alias `op` of a port where there is one (R338, R348, R350, R351). -/
def writeLoc (r : SelfTest) (ok : Bool) (m : Nat) (l : Loc) (port at_ : Nat) (ind : Bool) (v : Word) (s : State) : Out :=
  match l with
  | .reg op a =>
    let x := if op = 0 then port else op
    if s.fusedOff a then (if s.hostOk m then done s (dropBuf m s) else .next s)
    else if x = 0 then (regCommand r ok m a v s).getD (settled s (plainWrite m a at_ ind v s))
    else match regRow? a with
      | some (row, _, _) =>
        let w := aliasWord x row (s.aliasOld a) v
        if row.rw ||| row.rws = 0 then settled s (plainWrite m a at_ ind w s)
        else (regCommand r ok m a w s).getD (settled s (plainWrite m a at_ ind w s))
      | none => .next s
  | .msix a => if s.hostOk m then done s (msixWrite a v (dropBuf m s)) else .next s
  | .mem a => if s.hostOk m then settled s (storeBytes m a (bytesOf (aliasStore port (s.memWord a) v)) (dropBuf m s)) else .next s
  | .pba _ _ | .port _ | .none => if s.hostOk m then done s (dropBuf m s) else .next s

end Sys2Proof.Machine
end

