-- ==== Sys2Proof/Machine/Host.lean ====
section
/-! DEFINITION. The PCIe endpoint as the hub meets it: accesses, resets of its functions, interrupts that end a hold, and snapshots (R334 to R352,
R444 to R459). -/

namespace Sys2Proof.Machine

/-! ## DEV_BLK_EN (R39, R43, R351, R459) -/

/-- The RWS bits of register `a` take the value `v` that waited. -/
def putRws (a : Nat) (v : Word) (s : State) : State :=
  match regRow? a with
  | some (row, _, _) => let rws := BitVec.ofNat 32 row.rws; s.setReg a ((s.reg a &&& ~~~rws) ||| (v &&& rws))
  | none => s

/-- The RWS values that wait for the blocks of `up` take effect; a new XREF ratio sends a selected XREF back to CHECKING (R39, HRT_XREF_FREQ). -/
def applyRws (up : Nat → Bool) (s : State) : State :=
  let go := s.opnds.filter fun c => (match regRow? c.1 with | some (row, _, _) => row.rws != 0 | none => false) && up (pageOf c.1)
  let t := eachDo go (fun c u => putRws c.1 c.2 u) { s with opnds := s.opnds.filter fun c => !go.contains c }
  if t.hrt.ratioFreq = t.get HRT_XREF_FREQ_FREQ then t
  else
    let t := { t with hrt := { t.hrt with ratioFreq := t.get HRT_XREF_FREQ_FREQ } }
    if t.sel = 2 then unqualify 2 qCHECKING t else t

/-- BLK_EN_WRITE: master `m` writes `v` to DEV_BLK_EN. Blocks are gated or enabled, and what waited for an enabled block goes on (R39, R195). -/
def blkEnWrite (v : Word) (s : State) : State :=
  let old := s.reg DEV_BLK_EN
  let new := (old &&& BitVec.ofNat 32 0xFFFF0001) ||| (v &&& BitVec.ofNat 32 0xFFFE)
  let rsvl := BitVec.ofNat 32 0xFFFF0000
  reedOpsGo (applyRws (fun k => new.getLsbD k && !old.getLsbD k) (s.setReg DEV_BLK_EN ((new &&& ~~~rsvl) ||| (v &&& rsvl))))

/-- BLK_EN_WRITE (R39, R351). -/
def execBlkEnWrite (m : Nat) (v : Word) (s : State) : Out := settled s (gateWrite m DEV_BLK_EN true (blkEnWrite v) s)

/-! ## The indirect window (R349, R350) -/

/-- A read that the hub cannot serve: one during an FLR of its function, or one of the register space that is not aligned, completes as Unsupported
Request; where the link or the function is not there, nothing answers (R338, R345). -/
def unserved (m : Nat) (s : State) : Out :=
  if m ≤ 64 ∧ s.host.ready ∧ s.host.link ∧ s.fnExists m ∧ !s.host.d3.contains m then done s (s.emit (.unsupported m)) else .next s

/-- IND_ADDR_WRITE: master `m` sets its window; a partly filled holding buffer is discarded (R349, R350, R459). -/
def execIndAddrWrite (m : Nat) (v : Word) (s : State) : Out :=
  done s (gateWrite m (DEV_IND_ADDR m) false (fun t => t.setReg (DEV_IND_ADDR m) (v &&& ~~~3)) s)

/-- The window moves on by one word, modulo 2^30 words (DEV_IND_ADDR). -/
def indAdvance (m : Nat) (s : State) : State := s.setReg (DEV_IND_ADDR m) (s.reg (DEV_IND_ADDR m) + 4)

/-- IND_DATA_ACCESS: master `m` reads the location at its window, or writes `w` to it, through alias `op` of the port (0 for none); `r` and `ok` as for
`regCommand` (R338, R350). -/
def indAccess (r : SelfTest) (ok : Bool) (m op : Nat) (w : Option Word) (s : State) : Out :=
  if s.hostOk m then
    let a := (s.reg (DEV_IND_ADDR m)).toNat
    let t := indAdvance m s
    match w with
    | some v => writeLoc r ok m (indLoc m a) op a true v t
    | none =>
      let (x, u) := readLoc m (indLoc m a) t
      settled s (u.emit (reply m x))
  else if w.isNone then unserved m s
  else .next s

/-- IND_DATA_ACCESS (R350). -/
def execIndDataAccess (m op : Nat) (w : Option Word) (r : SelfTest) (ok : Bool) (s : State) : Out :=
  if op < 4 then indAccess r ok m op w s else .next s

/-! ## Snapshots (R352, R458) -/

/-- The counters of basket `b`'s scope, or of the whole device (R458). -/
def State.counters (s : State) (scope : Option Nat) : List Nat :=
  let bs := match scope with | some b => [b] | none => List.range 64
  let mine := fun (o : Option Nat) => match scope with | some b => o == some b | none => true
  (bs.flatMap fun b => [RING_BSK_CNT0 b, RING_BSK_CNT1 b, RING_BSK_ARM b, BSK_REJ_CNT b, FC_BSK_CNT b]) ++
    ((List.range 1024).filter fun k => mine (s.strandBasket k)).map STR_RES_CNT ++
    ((List.range 256).filter fun n => mine (s.spokeBasket n)).map SPK_STATUS ++
    ((List.range 108).filter fun p => mine (if p < 4 then none else s.laneBasket p)).flatMap (fun p => [LANE_CNT0 p, LANE_CNT1 p]) ++
    ((List.range 96).filter fun h => mine (s.handleBasket h)).map LANE_PTN_CNT ++
    match scope with
    | some _ => []
    | none => [TAL_CNT_A, TAL_CNT_B, FC_CNT, PWR_PACE_CNT, PWR_PACE_TIME] ++ (List.range 66).map BSK_VIOL

/-- SNAP by master `m` with the other fields of DEV_SNAP_CMD as in `v`: the counters are copied as they stand, and what the master held goes (R352, R459;
DEDUCED, log entry 54). -/
def snapTake (m : Nat) (v : Word) (s : State) : State :=
  if (1 ≤ m ∧ m ≤ 64) ∧ bitsAt v 2 1 = 1 then s.raise (DEV_SNAP_STATUS_REJ m)
  else
    let scope := if bitsAt v 2 1 = 1 then none else some (if 1 ≤ m ∧ m ≤ 64 then m - 1 else bitsAt v 8 6)
    let job : SnapJob := ⟨scope, s.tally, (s.counters scope).map fun a => (a, s.view m a), true⟩
    let x : Snap := tabGet (fun _ => {}) s.snaps m
    let y : Snap := { copies := [], taking := x.taking ++ [job] }
    { s with snaps := tabSet (fun _ => {}) s.snaps m y }.lower (DEV_SNAP_STATUS_HOLD m)

/-- SNAP (R352). -/
def execSnapTake (m : Nat) (v : Word) (s : State) : Out :=
  done s (gateWrite m (DEV_SNAP_CMD m) false (fun t => snapTake m v (keepRsvl m (DEV_SNAP_CMD m) v t)) s)

/-- SNAP_RELEASE by master `m`: its hold ends; with none, there is no effect (R352, R459). -/
def snapRelease (m : Nat) (s : State) : State :=
  let x : Snap := tabGet (fun _ => {}) s.snaps m
  { s with snaps := tabSet (fun _ => {}) s.snaps m { x with copies := [] } }.lower (DEV_SNAP_STATUS_HOLD m)

/-- SNAP_RELEASE (R352). -/
def execSnapRelease (m : Nat) (s : State) : Out := done s (gateWrite m (DEV_SNAP_CMD m) false (snapRelease m) s)

/-- SNAP_COPY_DONE: the oldest copy that master `m` waits for is complete (R347, R352, R458, R459). -/
def execSnapCopyDone (m : Nat) (s : State) : Out :=
  let x : Snap := tabGet (fun _ => {}) s.snaps m
  match x.taking with
  | j :: rest =>
    let y : Snap := { copies := if j.hold then j.copies else x.copies, taking := rest }
    let t := { s with snaps := tabSet (fun _ => {}) s.snaps m y }.raise (DEV_SNAP_STATUS_DONE m)
    let t := eachDo [0, 1, 2] (fun i u => u.setReg (DEV_SNAP_TALLY0 m + 4 * i) (BitVec.ofNat 32 (j.tally / 2 ^ (32 * i)))) t
    let t := if j.hold then
        ((t.raise (DEV_SNAP_STATUS_HOLD m)).putFlag (DEV_SNAP_STATUS_SCOPE m) j.scope.isNone).put (DEV_SNAP_STATUS_BASKET m) (j.scope.getD 0)
      else t
    done s t
  | [] => .next s

/-! ## Register accesses (R338, R348, R349) -/

/-- A write of `v` to a register of the DEV page that acts by itself; none for every other register. -/
def devCommand (m a : Nat) (v : Word) (s : State) : Option Out :=
  if a = DEV_BLK_EN then some (execBlkEnWrite m v s)
  else if a = DEV_IND_ADDR m then some (execIndAddrWrite m v s)
  else if a = DEV_SNAP_CMD m then
    (if bitsAt v 0 2 = 1 then some (execSnapTake m v s) else if bitsAt v 0 2 = 2 then some (execSnapRelease m (storeRsvl m a v s))
      else some (done s (gateWrite m a false (keepRsvl m a v) s)))
  else none

/-- A write of `v` at offset `off` of master `m`'s register BAR (R338, R348). -/
def barWrite (r : SelfTest) (ok : Bool) (m off : Nat) (v : Word) (s : State) : Out :=
  match barLoc m off with
  | .port op => indAccess r ok m op (some v) s
  | .reg op a =>
    match regRow? a with
    | some (row, _, _) =>
      let w := if op = 0 then v else aliasWord op row (s.reg a) v
      let cmd := if op = 0 ∨ row.rw ≠ 0 then devCommand m a w s else none
      cmd.getD (writeLoc r ok m (.reg op a) 0 off false v s)
    | none => .next s
  | l => writeLoc r ok m l 0 off false v s

/-- REGISTER_WRITE: master `m` writes `v` at offset `off` of its register BAR; `r` and `ok` as for `regCommand` (R338, R351). The host alone sends it. -/
def execRegisterWrite (m off : Nat) (v : Word) (r : SelfTest) (ok : Bool) (s : State) : Out :=
  if m ≤ 64 then barWrite r ok m off v s else .next s

/-- ALIAS_WRITE: master `m` writes `v` at offset `off`, in a SET, CLEAR or TOGGLE alias (R348). -/
def execAliasWrite (m off : Nat) (v : Word) (s : State) : Out :=
  if m ≤ 64 ∧ 0x4000 ≤ off % 0x10000 then barWrite {} true m off v s else .next s

/-- A read at offset `off` of master `m`'s register BAR: what it returns and the state it leaves. -/
def barRead (m off : Nat) (s : State) : Option Word × State :=
  match barLoc m off with
  | .port _ =>
    let a := (s.reg (DEV_IND_ADDR m)).toNat
    readLoc m (indLoc m a) (indAdvance m s)
  | l => readLoc m l s

/-- WIDE_VALUE_READ: master `m` reads offset `off` of its register BAR; the lowest word of a wide value latches the others (R349). -/
def execWideValueRead (m off : Nat) (s : State) : Out :=
  if 64 < m then .next s
  else if s.hostOk m ∧ off % 4 = 0 then
    let (x, t) := barRead m off s
    settled s (t.emit (reply m x))
  else unserved m s

/-! ## Store windows and apertures (R337, R338, R446, R447) -/

/-- The store address of byte `off` of master `m`'s window: BAR2 of the PF, or the apertures of a VF, as their bases place them. -/
def State.windowAddr (s : State) (m off : Nat) : Option Nat :=
  if m = 0 then
    if off < 0x02000000 then some (0x10000000 + off)
    else if 0x04000000 ≤ off ∧ off < 0x05000000 then some (0x14000000 + (off - 0x04000000))
    else none
  else
    let b := m - 1
    if 0x40000 ≤ off ∧ off < 0x80000 then
      let o := off - 0x40000 + 4096 * s.get (DEV_VF_QAP_BASE_BASE m)
      let rs := ascending (s.basketRings b)
      let at_ := rs.foldl (fun (x : Option Nat × Nat) r =>
        let d := 16 * s.ringDepth r
        (if x.1.isNone && decide (o < x.2 + d) then some (0x14000000 + 16 * s.get (RING_DESC0_BASE r) + (o - x.2)) else x.1, x.2 + d)) (none, 0)
      at_.1
    else if 0x80000 ≤ off ∧ off < 0x100000 then
      let o := off - 0x80000 + 4096 * s.get (DEV_VF_PAP_BASE_BASE m)
      if o / 32 < s.get (BSK_PROF_QUOTA_QUOTA b) then some (0x10000000 + 32 * s.get (BSK_PROF_BASE_BASE b) + o) else none
    else none

/-- The 32-bit words that `len` bytes from `off` touch. -/
def wordsOf (off len : Nat) : List Nat := if len = 0 then [] else (List.range ((off % 4 + len + 3) / 4)).map fun i => off - off % 4 + 4 * i

/-- STORE_WINDOW_ACCESS, a write: the bytes `bs` from `off` on, none where its byte enable is clear. Pieces follow one another in ascending order. -/
def windowWrite (m off : Nat) (bs : List (Option Nat)) (s : State) : State :=
  eachDo (wordsOf off bs.length) (fun w u =>
    match u.windowAddr m w with
    | some a => storeBytes m a ((List.range 4).map fun j => if w + j < off then none else (bs.getD (w + j - off) none)) u
    | none => u) s

/-- STORE_WINDOW_ACCESS, a read of `len` bytes from `off` on: its words are sent, or a poisoned completion where one has an error beyond correction. -/
def windowRead (m off len : Nat) (s : State) : State :=
  let x := (wordsOf off len).foldl (fun (x : List Sent × State) w =>
    match x.2.windowAddr m w with
    | some a => let y := readLoc m (.mem a) x.2; (reply m y.1 :: x.1, y.2)
    | none => (Sent.readData m 0 :: x.1, x.2)) (([] : List Sent), s)
  { x.2 with sent := (if x.1.contains (.poisoned m) then [.poisoned m] else x.1) ++ x.2.sent }

/-- STORE_WINDOW_ACCESS: function `m` reads `len` bytes of its window at `off`, or writes the bytes `w`; at most 512 bytes (R337, R338, R446 to R449). -/
def execStoreWindowAccess (m off len : Nat) (w : Option (List (Option Nat))) (s : State) : Out :=
  if m ≤ 64 ∧ s.hostOk m then
    match w with
    | some bs => if bs.length ≤ 512 then settled s (windowWrite m off bs (dropBuf m s)) else .next s
    | none => if len ≤ 512 then settled s (windowRead m off len s) else .next s
  else if w.isNone then unserved m s
  else .next s

/-! ## MSI-X conditions (R334, R341) -/

/-- Configuration and table writes reach function `f`. -/
def State.cfgOk (s : State) (f : Nat) : Bool := s.host.ready && s.host.link && decide (f ≤ 64) && s.fnExists f && !s.host.flr.contains f

/-- The vectors of function `f`. -/
def vectorsOf (f : Nat) : Nat := if f = 0 then 256 else 8

/-- MSIX_CONDITION_BEGIN: what `c` names begins to hold function `f`'s messages (R341). -/
def execMsixConditionBegin (f : Nat) (c : MsixCond) (s : State) : Out :=
  if s.cfgOk f then
    let h := s.host
    match c with
    | .vector v => if v < vectorsOf f then done s (s.setReg (msixCtrl f v) 1) else .next s
    | .function => done s { s with host := { h with msix := h.msix.filter (· != f) } }
    | .busMaster => done s { s with host := { h with bme := h.bme.filter (· != f) } }
    | .d3hot => done s { s with host := { h with d3 := f :: h.d3.filter (· != f) } }
  else .next s

/-- MSIX_CONDITION_END: what `c` names no longer holds function `f`'s messages, and the held ones are sent (R341). -/
def execMsixConditionEnd (f : Nat) (c : MsixCond) (s : State) : Out :=
  if s.cfgOk f then
    let h := s.host
    match c with
    | .vector v => if v < vectorsOf f then done s (sendHeld f (s.setReg (msixCtrl f v) 0)) else .next s
    | .function => done s (sendHeld f { s with host := { h with msix := f :: h.msix.filter (· != f) } })
    | .busMaster => done s (sendHeld f { s with host := { h with bme := f :: h.bme.filter (· != f) } })
    | .d3hot => done s (sendHeld f { s with host := { h with d3 := h.d3.filter (· != f) } })
  else .next s

/-! ## Resets of the host and of its functions (R342 to R347) -/

/-- A reset of the PF and every VF takes effect once configuration has opened; before plan-ready the functions are at their reset values. -/
def hostReset (s : State) : State := if s.host.ready then pfReset s else s

/-- PERST_N_ASSERT: the PHY is held in reset, and every function is reset; while the hub is held in reset itself there is no more effect (R343, R344, R359;
DEDUCED, log entry 45). -/
def execPerstNAssert (s : State) : Out :=
  settled s (hostReset { s with host := { s.host with perst := true, link := false } })

/-- PERST_N_RELEASE: the link may train (R342, R343). -/
def execPerstNRelease (s : State) : Out := done s { s with host := { s.host with perst := false } }

/-- HOT_RESET, or DL_Down (R344). -/
def execHotReset (s : State) : Out :=
  if s.host.link then settled s (hostReset { s with host := { s.host with link := false } }) else .next s

/-- FLR_PF: every function is reset while the link stays in L0; the FLR of the PF is in progress (R344, R345). -/
def execFlrPf (s : State) : Out :=
  if s.cfgOk 0 then
    let t := pfReset s
    settled s { t with host := { t.host with flr := [0] } }
  else .next s

/-- FLR_VF: VF `k` is reset, and its FLR is in progress (R344, R345). -/
def execFlrVf (k : Nat) (s : State) : Out :=
  if 1 ≤ k ∧ s.cfgOk k then
    let t := vfReset k s
    settled s ({ t with host := { t.host with flr := k :: t.host.flr } }.raise (BSK_STATUS_FLR (k - 1)))
  else .next s

/-- FLR_COMPLETE: the FLR of function `k` is complete (R345). -/
def execFlrComplete (k : Nat) (s : State) : Out :=
  if s.host.flr.contains k then
    let t := { s with host := { s.host with flr := s.host.flr.filter (· != k) } }
    done s (if k = 0 then t else t.lower (BSK_STATUS_FLR (k - 1)))
  else .next s

/-- VF_ENABLE_CLEAR: VF Enable is cleared, or NumVFs lowered, so that `n` VFs remain; each one that disappears goes as by an FLR (R344). -/
def execVfEnableClear (n : Nat) (s : State) : Out :=
  if s.cfgOk 0 ∧ n < s.host.vfs then
    let gone := ((List.range s.host.vfs).filter fun i => n ≤ i).map (· + 1)
    let t := eachDo gone (fun k u => ((vfReset k u).lower (BSK_STATUS_VF_EN (k - 1))).lower (BSK_STATUS_FLR (k - 1))) s
    settled s { t with host := { t.host with vfs := n, flr := t.host.flr.filter fun k => !gone.contains k } }
  else .next s

/-- VF_ENABLE_SET: VF Enable is set with NumVFs `n`, and the VFs appear (R344, BSK_STATUS). -/
def execVfEnableSet (n : Nat) (s : State) : Out :=
  if s.cfgOk 0 ∧ s.host.vfs = 0 ∧ 1 ≤ n ∧ n ≤ (if s.small then 32 else 64) then
    done s (eachDo (List.range n) (fun b u => u.raise (BSK_STATUS_VF_EN b)) { s with host := { s.host with vfs := n } })
  else .next s

/-- PCIE_LINK_L0: the link reaches L0, with PERST_N released and the hub out of reset (R342, R343). -/
def execPcieLinkL0 (s : State) : Out :=
  if s.released ∧ !s.host.perst then done s { s with host := { s.host with link := true } } else .next s

end Sys2Proof.Machine
end

