-- ==== Sys2Proof/Machine/Sideband.lean ====
section
/-! DEFINITION. The sideband: an I3C target with an I2C fallback, its registers, and its window onto BAR0 (R353 to R359). -/

namespace Sys2Proof.Machine

/-! ## Addresses (R353, R354) -/

/-- The hub answers a private transfer at address `x`: an I2C one at its static address until it has a dynamic one, and then I3C ones at that (R354). -/
def State.sbAnswers (s : State) (i2c : Bool) (x : Nat) : Bool :=
  s.vddIoGood && (match s.sb.dyn with | some d => !i2c && x == d | none => i2c && s.sb.stat == some x)

/-- The hub takes a command code that is broadcast, or directed to its dynamic address (R353). -/
def State.sbTakes (s : State) (dest : Option Nat) : Bool :=
  s.vddIoGood && (match dest with | none => true | some x => s.sb.dyn == some x)

/-- The straps' part of the provisional ID: I3C_ADDR, or 0xF while the straps are not valid (R354, R359). -/
def State.idStraps (s : State) : Nat := match s.sb.stat with | some x => x - 0x30 | none => 0xF

/-- The provisional ID, 48 bits (R354). The manufacturer's identity is given outside the spec. -/
def State.provId (s : State) : Nat := Config.mipiId % 2 ^ 15 * 2 ^ 33 + 0x1024 * 2 ^ 16 + s.idStraps * 2 ^ 12

/-! ## The sideband's registers (R355, R358) -/

def sbReg (i : Nat) : Nat := 0x3F000000 + 4 * i

/-- The highest die sensor reading in °C, from 0 to 255 (DEV_SB_STATUS). -/
def State.tjMax (s : State) : Nat :=
  (List.range 16).foldl (fun m i => max m (min 255 ((signed 12 (s.get (PWR_TEMP_TJ i))).toNat / 10))) 0

/-- What the sideband register at index `i` reads as: DEV_SB_STATUS shows what other registers hold (R358). -/
def State.sbRead (s : State) (i : Nat) : Word :=
  let a := sbReg i
  if !isReg a then 0
  else if a = DEV_SB_STATUS then
    let f := fun (b : Bool) (n : Nat) => if b then n else 0
    BitVec.ofNat 32 (s.get DEV_SB_STATUS_STAGE + f (s.flag FC_STATUS_FAULT_N) 8 + f (s.flag FC_STATUS_G_ACTIVE) 16 + f (s.col.causes != []) 32 +
      f s.plan.isSome 64 + s.get HRT_STATUS_STATE * 256 + s.get BSK_KEEPER_STATUS_STATE * 4096 + s.tjMax * 65536)
  else if a = DEV_SB_WIN_CMD then s.reg a &&& ~~~3
  else match s.latched.find? fun e => e.1 == a with
    | some e => e.2
    | none => s.reg a

/-- The window's command: an access starts, or is refused before plan-ready and after a class G fault; while one runs, a command is ignored (R356). -/
def sbWindow (cmd : Nat) (s : State) : State :=
  if s.get DEV_SB_WIN_CMD_STATE = 1 ∨ (cmd ≠ 1 ∧ cmd ≠ 2) then s
  else if s.get DEV_SB_STATUS_STAGE ≠ 3 then s.put DEV_SB_WIN_CMD_STATE 3
  else
    let d := if cmd = 2 then some (s.reg DEV_SB_WIN_DATA) else none
    { s.put DEV_SB_WIN_CMD_STATE 1 with sb := { s.sb with win := some (s.get DEV_SB_WIN_ADDR_ADDR * 4, d) } }

/-- A write of DEV_SB_WIN_CMD with CMD `cmd`, its other fields as in `v`. -/
def sbWinCmd (cmd : Nat) (v : Word) (s : State) : State :=
  sbWindow cmd ((s.put DEV_SB_WIN_CMD_AUTO_INC (bitsAt v 4 1)))

/-- A write of `v` to the sideband register at index `i` (R355, R358; DEDUCED, log entry 71). -/
def sbWrite (i : Nat) (v : Word) (s : State) : State :=
  let a := sbReg i
  match regRow? a with
  | some (row, _, _) =>
    let t := s.setReg a (mergeWord row (s.reg a) v (BitVec.ofNat 32 0xFFFFFFFF) true)
    if a = DEV_SB_WIN_CMD then sbWindow (bitsAt v 0 2) t else t
  | none => s

/-- The number that bytes spell, the first the lowest (R355). -/
def bytesNat : Bytes → Nat
  | [] => 0
  | b :: r => b % 256 + 256 * bytesNat r

/-- The groups of four bytes after the index are written to successive registers; a shorter last group is discarded (R355). -/
def sbGroups : List Nat → State → State
  | b0 :: b1 :: b2 :: b3 :: r, s =>
    let t := sbWrite s.sb.ptr (BitVec.ofNat 32 (bytesNat [b0, b1, b2, b3])) s
    sbGroups r { t with sb := { t.sb with ptr := (t.sb.ptr + 1) % 256 } }
  | _, s => s

/-! ## Private transfers (R355) -/

/-- SB_PRIVATE_WRITE: a write of `bs` at address `x`, by I2C or I3C: the index, then groups of four bytes, at most as many bytes as the maximum write
length (R353, R355). -/
def execSbPrivateWrite (i2c : Bool) (x : Nat) (bs : Bytes) (s : State) : Out :=
  if s.sbAnswers i2c x then
    match bs.take s.sb.mwl with
    | [] => .next s
    | i :: r => done s (faultN (sbGroups r { s with sb := { s.sb with ptr := i % 256 } }))
  else .next s

/-- A register read through the pointer latches what a read of it latches. -/
def sbLatch (i : Nat) (s : State) : State := if sbReg i = DEV_SB_FAULT0 then readLatch DEV_SB_FAULT0 s else s

/-- `n` bytes from the pointer on, the first the lowest, as a number, and the state that the reads leave. -/
def sbBytes : Nat → State → Nat × State
  | 0, s => (0, s)
  | n + 1, s =>
    let t := sbLatch s.sb.ptr s
    let v := (t.sbRead t.sb.ptr).toNat
    let r := sbBytes n { t with sb := { t.sb with ptr := (t.sb.ptr + 1) % 256 } }
    (v + 2 ^ 32 * r.1, r.2)

/-- SB_PRIVATE_READ: a read of `n` bytes at address `x`, at most the maximum read length (R353, R355). -/
def execSbPrivateRead (i2c : Bool) (x n : Nat) (s : State) : Out :=
  if s.sbAnswers i2c x ∧ 0 < n then
    let k := min n s.sb.mrl
    let r := sbBytes (k / 4) s
    let last := if k % 4 = 0 then 0 else (r.2.sbRead r.2.sb.ptr).toNat
    let u := if k % 4 = 0 then r.2 else sbLatch r.2.sb.ptr r.2
    done s (u.emit (.sbData k ((r.1 + 2 ^ (32 * (k / 4)) * last) % 256 ^ k)))
  else .next s

/-! ## Common command codes (R353, R354, R357) -/

/-- ENTDAA: the hub, with no dynamic address, sends its identity in the arbitration and is given address `x` (R354). -/
def execEntdaa (x : Nat) (s : State) : Out :=
  if s.vddIoGood ∧ s.sb.dyn = none then
    done s ({ s with sb := { s.sb with dyn := some x } }.emit (.sbData 8 (s.provId * 2 ^ 16 + 0x0600)))
  else .next s

/-- SETDASA: the hub at static address `st`, with no dynamic one, is given address `x` (R354). -/
def execSetdasa (st x : Nat) (s : State) : Out :=
  if s.vddIoGood ∧ s.sb.dyn = none ∧ s.sb.stat = some st then done s { s with sb := { s.sb with dyn := some x } } else .next s

/-- SETNEWDA: the hub at dynamic address `old` is given address `x` (R354). -/
def execSetnewda (old x : Nat) (s : State) : Out :=
  if s.sbTakes (some old) then done s { s with sb := { s.sb with dyn := some x } } else .next s

/-- RSTDAA: the dynamic address goes, and the hub answers I2C at its static address again (R354). -/
def execRstdaa (s : State) : Out := if s.vddIoGood then done s { s with sb := { s.sb with dyn := none } } else .next s

/-- ENEC, broadcast or to `dest`, with the event byte `ev`, whose bit 0 stands for interrupts (R357). -/
def execEnec (dest : Option Nat) (ev : Nat) (s : State) : Out :=
  if s.sbTakes dest ∧ ev % 2 = 1 then done s { s with sb := { s.sb with ibi := true } } else .next s

/-- DISEC, broadcast or to `dest`, with the event byte `ev` (R357). -/
def execDisec (dest : Option Nat) (ev : Nat) (s : State) : Out :=
  if s.sbTakes dest ∧ ev % 2 = 1 then done s { s with sb := { s.sb with ibi := false } } else .next s

/-- SETMWL, broadcast or to `dest`: a length from 5 to 32 is taken (R353). -/
def execSetmwl (dest : Option Nat) (n : Nat) (s : State) : Out :=
  if s.sbTakes dest ∧ 5 ≤ n ∧ n ≤ 32 then done s { s with sb := { s.sb with mwl := n } } else .next s

/-- SETMRL, broadcast or to `dest`: a length from 5 to 32 is taken (R353). -/
def execSetmrl (dest : Option Nat) (n : Nat) (s : State) : Out :=
  if s.sbTakes dest ∧ 5 ≤ n ∧ n ≤ 32 then done s { s with sb := { s.sb with mrl := n } } else .next s

/-- A direct code to address `x` that returns `v` in `n` bytes. -/
def sbReturns (x n : Nat) (v : State → Nat) (s : State) : Out := if s.sbTakes (some x) then done s (s.emit (.sbData n (v s))) else .next s

/-- GETPID: the provisional ID (R354). -/
def execGetpid (x : Nat) (s : State) : Out := sbReturns x 6 State.provId s

/-- GETBCR: 0x06 (R354). -/
def execGetbcr (x : Nat) (s : State) : Out := sbReturns x 1 (fun _ => 0x06) s

/-- GETDCR: 0x00 (R354). -/
def execGetdcr (x : Nat) (s : State) : Out := sbReturns x 1 (fun _ => 0x00) s

/-- GETSTATUS: the target status; the spec gives no layout of it: a free value (R353). -/
def execGetstatus (x : Nat) (s : State) : Out :=
  if s.sbTakes (some x) then
    let (i, t) := s.fresh
    done s (t.emit (.sbData 2 (Config.freeNat i % 65536)))
  else .next s

/-- GETMWL: the maximum write length (R353). -/
def execGetmwl (x : Nat) (s : State) : Out := sbReturns x 2 (fun s => s.sb.mwl) s

/-- GETMRL: the maximum read length (R353). -/
def execGetmrl (x : Nat) (s : State) : Out := sbReturns x 2 (fun s => s.sb.mrl) s

/-! ## The window (R356) -/

/-- SB_WIN_READ: DEV_SB_WIN_CMD is written with READ, its other fields as in `v` (R356). -/
def execSbWinRead (v : Word) (s : State) : Out := if s.vddIoGood then done s (sbWinCmd 1 v s) else .next s

/-- SB_WIN_WRITE: DEV_SB_WIN_CMD is written with WRITE, its other fields as in `v` (R356). -/
def execSbWinWrite (v : Word) (s : State) : Out := if s.vddIoGood then done s (sbWinCmd 2 v s) else .next s

/-- The access is over: DONE, and the address moves on with AUTO_INC (R358). -/
def sbWinOver (s : State) : State :=
  let t := { s.put DEV_SB_WIN_CMD_STATE 2 with sb := { s.sb with win := none } }
  if t.flag DEV_SB_WIN_CMD_AUTO_INC then t.put DEV_SB_WIN_ADDR_ADDR (t.get DEV_SB_WIN_ADDR_ADDR + 1) else t

/-- SB_WIN_DONE: the window's access is performed as master 65 and completes (R356). A READ that meets an ECC error beyond correction has no stated result:
a free value. -/
def execSbWinDone (s : State) : Out :=
  match s.sb.win with
  | some (off, some v) => barWrite {} true 65 off v (sbWinOver s)
  | some (off, none) =>
    let (x, t) := barRead 65 off (sbWinOver s)
    let (i, u) := t.fresh
    settled s (u.setReg DEV_SB_WIN_DATA (x.getD (BitVec.ofNat 32 (Config.freeNat i))))
  | none => .next s

end Sys2Proof.Machine
end

