-- ==== Sys2Proof/Machine/Dispatch.lean ====
section
/-! DEFINITION. One arm for each command of the opcode table. -/

namespace Sys2Proof.Machine

/-- The effect of a command on everything but the queue (DESIGN CHOICE, log entry 1). -/
def exec (i : Instr) (s : State) : Host.Outcome State Fault Refusal :=
  match i with
  | .xrefActivityTrip => Sys2Proof.Machine.execXrefActivityTrip s
  | .xrefActivityReturn => Sys2Proof.Machine.execXrefActivityReturn s
  | .xrefSettleElapsed => Sys2Proof.Machine.execXrefSettleElapsed s
  | .warpSourcePresent x => Sys2Proof.Machine.execWarpSourcePresent x s
  | .qualificationWindowElapsed xs => Sys2Proof.Machine.execQualificationWindowElapsed xs s
  | .coarseFreqGateEnd x off => Sys2Proof.Machine.execCoarseFreqGateEnd x off s
  | .fineFreqGateEnd x off => Sys2Proof.Machine.execFineFreqGateEnd x off s
  | .phaseHit x mv ph => Sys2Proof.Machine.execPhaseHit x mv ph s
  | .hearthLockDeclare => Sys2Proof.Machine.execHearthLockDeclare s
  | .hearthUnlock => Sys2Proof.Machine.execHearthUnlock s
  | .hearthBwStep => Sys2Proof.Machine.execHearthBwStep s
  | .revertiveWtrElapsed x => Sys2Proof.Machine.execRevertiveWtrElapsed x s
  | .holdoverWindowExpire => Sys2Proof.Machine.execHoldoverWindowExpire s
  | .waitMaxExpire => Sys2Proof.Machine.execWaitMaxExpire s
  | .reacquisitionFail => Sys2Proof.Machine.execReacquisitionFail s
  | .historyValid => Sys2Proof.Machine.execHistoryValid s
  | .requalifyX m => Sys2Proof.Machine.execRequalifyX m s
  | .clearHistory m => Sys2Proof.Machine.execClearHistory m s
  | .hrtSwitchNow m => Sys2Proof.Machine.execHrtSwitchNow m s
  | .hrtCtrlWrite m v => Sys2Proof.Machine.execHrtCtrlWrite m v s
  | .hrtXrefSettleWrite m v => Sys2Proof.Machine.execHrtXrefSettleWrite m v s
  | .rimLockDeclare n code band => Sys2Proof.Machine.execRimLockDeclare n code band s
  | .rimUnlock p => Sys2Proof.Machine.execRimUnlock p s
  | .relockWaitExpire n => Sys2Proof.Machine.execRelockWaitExpire n s
  | .spareRimLock n code band => Sys2Proof.Machine.execSpareRimLock n code band s
  | .migrationWaleMove n delta => Sys2Proof.Machine.execMigrationWaleMove n delta s
  | .retuneMaxExpire n => Sys2Proof.Machine.execRetuneMaxExpire n s
  | .rimMigrate m v => Sys2Proof.Machine.execRimMigrate m v s
  | .syncReceive x m => Sys2Proof.Machine.execSyncReceive x m s
  | .delayReqSend p seq t1 => Sys2Proof.Machine.execDelayReqSend p seq t1 s
  | .delayReqReceive p seq t2 t3 => Sys2Proof.Machine.execDelayReqReceive p seq t2 t3 s
  | .delayRespReceive p seq turn t4 => Sys2Proof.Machine.execDelayRespReceive p seq turn t4 s
  | .delayRespTimeout p seq => Sys2Proof.Machine.execDelayRespTimeout p seq s
  | .domainTimeout x => Sys2Proof.Machine.execDomainTimeout x s
  | .tallyTrackEnter => Sys2Proof.Machine.execTallyTrackEnter s
  | .tallySlewDone => Sys2Proof.Machine.execTallySlewDone s
  | .domainRevert => Sys2Proof.Machine.execDomainRevert s
  | .beatMarkerSend h stamp => Sys2Proof.Machine.execBeatMarkerSend h stamp s
  | .talStep m => Sys2Proof.Machine.execTalStep m s
  | .talSlew m => Sys2Proof.Machine.execTalSlew m s
  | .talSwitchNow m => Sys2Proof.Machine.execTalSwitchNow m s
  | .restartDlcal m => Sys2Proof.Machine.execRestartDlcal m s
  | .talAsymWrite m x v => Sys2Proof.Machine.execTalAsymWrite m x v s
  | .talNow0Read m => Sys2Proof.Machine.execTalNow0Read m s
  | .hopArm c => Sys2Proof.Machine.execHopArm c s
  | .hopCommit c => Sys2Proof.Machine.execHopCommit c s
  | .hopSquash c => Sys2Proof.Machine.execHopSquash c s
  | .hopRetune c => Sys2Proof.Machine.execHopRetune c s
  | .strandStart c => Sys2Proof.Machine.execStrandStart c s
  | .strandStop c => Sys2Proof.Machine.execStrandStop c s
  | .nopCmd c => Sys2Proof.Machine.execNopCmd c s
  | .invalidOp c => Sys2Proof.Machine.execInvalidOp c s
  | .reedMeasure c => Sys2Proof.Machine.execReedMeasure c s
  | .measureStop c => Sys2Proof.Machine.execMeasureStop c s
  | .calStrand c => Sys2Proof.Machine.execCalStrand c s
  | .calReed c => Sys2Proof.Machine.execCalReed c s
  | .calRim c => Sys2Proof.Machine.execCalRim c s
  | .calLane c => Sys2Proof.Machine.execCalLane c s
  | .calStore c => Sys2Proof.Machine.execCalStore c s
  | .hopGrant r => Sys2Proof.Machine.execHopGrant r s
  | .profileFetchDone id => Sys2Proof.Machine.execProfileFetchDone id s
  | .hopTakeEffect rim k n at_ => Sys2Proof.Machine.execHopTakeEffect rim k n at_ s
  | .holdMaxExpire id => Sys2Proof.Machine.execHoldMaxExpire id s
  | .fireLeadReached id => Sys2Proof.Machine.execFireLeadReached id s
  | .timedMissed id => Sys2Proof.Machine.execTimedMissed id s
  | .specTimeout id => Sys2Proof.Machine.execSpecTimeout id s
  | .rampStep k n => Sys2Proof.Machine.execRampStep k n s
  | .strandBaseMove k n delta k0 => Sys2Proof.Machine.execStrandBaseMove k n delta k0 s
  | .residualVisitEnd w pos j bins => Sys2Proof.Machine.execResidualVisitEnd w pos j bins s
  | .residualRetryVisit k j bins => Sys2Proof.Machine.execResidualRetryVisit k j bins s
  | .slotClear m k j all => Sys2Proof.Machine.execSlotClear m k j all s
  | .recheck m k => Sys2Proof.Machine.execRecheck m k s
  | .strAcc0Read m k => Sys2Proof.Machine.execStrAcc0Read m k s
  | .spkCfgWrite m n v => Sys2Proof.Machine.execSpkCfgWrite m n v s
  | .lowPointApply n => Sys2Proof.Machine.execLowPointApply n s
  | .spkForcePark m n all => Sys2Proof.Machine.execSpkForcePark m n all s
  | .spkForceRelease m n all => Sys2Proof.Machine.execSpkForceRelease m n all s
  | .spokeRelease n => Sys2Proof.Machine.execSpokeRelease n s
  | .reedRun m n => Sys2Proof.Machine.execReedRun m n s
  | .reedStop m n d => Sys2Proof.Machine.execReedStop m n d s
  | .histClear m n => Sys2Proof.Machine.execHistClear m n s
  | .reedRunStart n => Sys2Proof.Machine.execReedRunStart n s
  | .reedRunComplete n d => Sys2Proof.Machine.execReedRunComplete n d s
  | .reedRunMaxExpire n d => Sys2Proof.Machine.execReedRunMaxExpire n d s
  | .reedResTailWrite m n v => Sys2Proof.Machine.execReedResTailWrite m n v s
  | .reedCfgWrite m n v => Sys2Proof.Machine.execReedCfgWrite m n v s
  | .calTdcStageEnd w bins => Sys2Proof.Machine.execCalTdcStageEnd w bins s
  | .calCellSweepEnd w m => Sys2Proof.Machine.execCalCellSweepEnd w m s
  | .calCellHandover w => Sys2Proof.Machine.execCalCellHandover w s
  | .calReedStageEnd q bins east west => Sys2Proof.Machine.execCalReedStageEnd q bins east west s
  | .calRimSweepEnd bands => Sys2Proof.Machine.execCalRimSweepEnd bands s
  | .calRimMarginEnd code peak => Sys2Proof.Machine.execCalRimMarginEnd code peak s
  | .calLaneStepEnd p e m hit => Sys2Proof.Machine.execCalLaneStepEnd p e m hit s
  | .calPauseTimeout u => Sys2Proof.Machine.execCalPauseTimeout u s
  | .optimeMinute => Sys2Proof.Machine.execOptimeMinute s
  | .calConditionChange n tj => Sys2Proof.Machine.execCalConditionChange n tj s
  | .nvmWriteComplete => Sys2Proof.Machine.execNvmWriteComplete s
  | .ringDoorbell m v => Sys2Proof.Machine.execRingDoorbell m v s
  | .creditSend r j => Sys2Proof.Machine.execCreditSend r j s
  | .capacityMeasure rates => Sys2Proof.Machine.execCapacityMeasure rates s
  | .reservationRestore => Sys2Proof.Machine.execReservationRestore s
  | .armPeakWrite m b => Sys2Proof.Machine.execArmPeakWrite m b s
  | .laneDetect p id rates => Sys2Proof.Machine.execLaneDetect p id rates s
  | .bondWaitExpire id => Sys2Proof.Machine.execBondWaitExpire id s
  | .trainReady p => Sys2Proof.Machine.execTrainReady p s
  | .trainMaxExpire p => Sys2Proof.Machine.execTrainMaxExpire p s
  | .alignComplete p rtt tx rx aseq => Sys2Proof.Machine.execAlignComplete p rtt tx rx aseq s
  | .capReceive p d1 d2 => Sys2Proof.Machine.execCapReceive p d1 d2 s
  | .agreedEcho p => Sys2Proof.Machine.execAgreedEcho p s
  | .enumEcho p => Sys2Proof.Machine.execEnumEcho p s
  | .retReceive p w => Sys2Proof.Machine.execRetReceive p w s
  | .retireComplete p => Sys2Proof.Machine.execRetireComplete p s
  | .refusalHoldExpire ps => Sys2Proof.Machine.execRefusalHoldExpire ps s
  | .ackReceive p seq nak far => Sys2Proof.Machine.execAckReceive p seq nak far s
  | .frameError p e => Sys2Proof.Machine.execFrameError p e s
  | .replayTimeout p sender => Sys2Proof.Machine.execReplayTimeout p sender s
  | .ackSend p far => Sys2Proof.Machine.execAckSend p far s
  | .replayExhaust p => Sys2Proof.Machine.execReplayExhaust p s
  | .blockLockLoss p => Sys2Proof.Machine.execBlockLockLoss p s
  | .chainUpstreamFrame q f => Sys2Proof.Machine.execChainUpstreamFrame q f s
  | .retrain m p => Sys2Proof.Machine.execRetrain m p s
  | .laneRetire m p => Sys2Proof.Machine.execLaneRetire m p s
  | .substitute m p => Sys2Proof.Machine.execSubstitute m p s
  | .pctlSend m v => Sys2Proof.Machine.execPctlSend m v s
  | .pctlAckReceive h st => Sys2Proof.Machine.execPctlAckReceive h st s
  | .pctlRx h d0 d1 => Sys2Proof.Machine.execPctlRx h d0 d1 s
  | .pctlTimeout c => Sys2Proof.Machine.execPctlTimeout c s
  | .pctlBusyEnd c => Sys2Proof.Machine.execPctlBusyEnd c s
  | .pctlRxRelease m => Sys2Proof.Machine.execPctlRxRelease m s
  | .planOpen m => Sys2Proof.Machine.execPlanOpen m s
  | .planVerify m => Sys2Proof.Machine.execPlanVerify m s
  | .planCommit m => Sys2Proof.Machine.execPlanCommit m s
  | .planAbort m => Sys2Proof.Machine.execPlanAbort m s
  | .storeBoot m => Sys2Proof.Machine.execStoreBoot m s
  | .setMinSeq m => Sys2Proof.Machine.execSetMinSeq m s
  | .planStagingWrite m k v => Sys2Proof.Machine.execPlanStagingWrite m k v s
  | .stageTimeout => Sys2Proof.Machine.execStageTimeout s
  | .planVerifyDone => Sys2Proof.Machine.execPlanVerifyDone s
  | .commitWaitEnd => Sys2Proof.Machine.execCommitWaitEnd s
  | .fullReweaveApplied => Sys2Proof.Machine.execFullReweaveApplied s
  | .partialReweaveApplied => Sys2Proof.Machine.execPartialReweaveApplied s
  | .clearFaulted m b => Sys2Proof.Machine.execClearFaulted m b s
  | .clearRecov m b => Sys2Proof.Machine.execClearRecov m b s
  | .clearViol m => Sys2Proof.Machine.execClearViol m s
  | .challenge m => Sys2Proof.Machine.execChallenge m s
  | .respond m key => Sys2Proof.Machine.execRespond m key s
  | .keeperDetach m => Sys2Proof.Machine.execKeeperDetach m s
  | .keeperVerifyDone => Sys2Proof.Machine.execKeeperVerifyDone s
  | .keeperNonceExpire => Sys2Proof.Machine.execKeeperNonceExpire s
  | .challengeRefusalEnd => Sys2Proof.Machine.execChallengeRefusalEnd s
  | .perstNAssert => Sys2Proof.Machine.execPerstNAssert s
  | .perstNRelease => Sys2Proof.Machine.execPerstNRelease s
  | .hotReset => Sys2Proof.Machine.execHotReset s
  | .flrPf => Sys2Proof.Machine.execFlrPf s
  | .flrVf k => Sys2Proof.Machine.execFlrVf k s
  | .vfEnableClear n => Sys2Proof.Machine.execVfEnableClear n s
  | .registerWrite m off v r ok => Sys2Proof.Machine.execRegisterWrite m off v r ok s
  | .aliasWrite m off v => Sys2Proof.Machine.execAliasWrite m off v s
  | .blkEnWrite m v => Sys2Proof.Machine.execBlkEnWrite m v s
  | .indDataAccess m op w r ok => Sys2Proof.Machine.execIndDataAccess m op w r ok s
  | .indAddrWrite m v => Sys2Proof.Machine.execIndAddrWrite m v s
  | .storeWindowAccess m off len w => Sys2Proof.Machine.execStoreWindowAccess m off len w s
  | .msixConditionEnd f c => Sys2Proof.Machine.execMsixConditionEnd f c s
  | .snapTake m v => Sys2Proof.Machine.execSnapTake m v s
  | .snapRelease m => Sys2Proof.Machine.execSnapRelease m s
  | .snapCopyDone m => Sys2Proof.Machine.execSnapCopyDone m s
  | .sbPrivateWrite i2c x bs => Sys2Proof.Machine.execSbPrivateWrite i2c x bs s
  | .sbPrivateRead i2c x n => Sys2Proof.Machine.execSbPrivateRead i2c x n s
  | .entdaa x => Sys2Proof.Machine.execEntdaa x s
  | .setdasa st x => Sys2Proof.Machine.execSetdasa st x s
  | .setnewda old x => Sys2Proof.Machine.execSetnewda old x s
  | .rstdaa => Sys2Proof.Machine.execRstdaa s
  | .enec dest ev => Sys2Proof.Machine.execEnec dest ev s
  | .disec dest ev => Sys2Proof.Machine.execDisec dest ev s
  | .setmwl dest n => Sys2Proof.Machine.execSetmwl dest n s
  | .setmrl dest n => Sys2Proof.Machine.execSetmrl dest n s
  | .getpid x => Sys2Proof.Machine.execGetpid x s
  | .getbcr x => Sys2Proof.Machine.execGetbcr x s
  | .getdcr x => Sys2Proof.Machine.execGetdcr x s
  | .getstatus x => Sys2Proof.Machine.execGetstatus x s
  | .getmwl x => Sys2Proof.Machine.execGetmwl x s
  | .getmrl x => Sys2Proof.Machine.execGetmrl x s
  | .sbWinRead v => Sys2Proof.Machine.execSbWinRead v s
  | .sbWinWrite v => Sys2Proof.Machine.execSbWinWrite v s
  | .sbWinDone => Sys2Proof.Machine.execSbWinDone s
  | .strapSample levels => Sys2Proof.Machine.execStrapSample levels s
  | .faultMessage src kind b detail => Sys2Proof.Machine.execFaultMessage src kind b detail s
  | .quietPeriodEnd b => Sys2Proof.Machine.execQuietPeriodEnd b s
  | .recoveryAgeOut b => Sys2Proof.Machine.execRecoveryAgeOut b s
  | .faultPulse m => Sys2Proof.Machine.execFaultPulse m s
  | .faultHold m => Sys2Proof.Machine.execFaultHold m s
  | .fcRelease m => Sys2Proof.Machine.execFcRelease m s
  | .fcLogTailWrite m v => Sys2Proof.Machine.execFcLogTailWrite m v s
  | .supplyTrip r high => Sys2Proof.Machine.execSupplyTrip r high s
  | .thermalTrip n tj => Sys2Proof.Machine.execThermalTrip n tj s
  | .thermalWarn n tj => Sys2Proof.Machine.execThermalWarn n tj s
  | .railGood r => Sys2Proof.Machine.execRailGood r s
  | .railDrop r => Sys2Proof.Machine.execRailDrop r s
  | .brownOut r => Sys2Proof.Machine.execBrownOut r s
  | .resetRelease r nvm => Sys2Proof.Machine.execResetRelease r nvm s
  | .planReady time paused => Sys2Proof.Machine.execPlanReady time paused s
  | .droopCrossing n d base => Sys2Proof.Machine.execDroopCrossing n d base s
  | .paceStepDown => Sys2Proof.Machine.execPaceStepDown s
  | .pwrPaceForceWrite m v => Sys2Proof.Machine.execPwrPaceForceWrite m v s
  | .shutdown m r => Sys2Proof.Machine.execShutdown m r s
  | .shutdownHalt => Sys2Proof.Machine.execShutdownHalt s
  | .clearPeak m => Sys2Proof.Machine.execClearPeak m s
  | .fullNext m => Sys2Proof.Machine.execFullNext m s
  | .cancelFull m => Sys2Proof.Machine.execCancelFull m s
  | .storeMap m => Sys2Proof.Machine.execStoreMap m s
  | .repairMapWriteStart => Sys2Proof.Machine.execRepairMapWriteStart s
  | .walSpliceGo m v => Sys2Proof.Machine.execWalSpliceGo m v s
  | .spliceShadowStart w => Sys2Proof.Machine.execSpliceShadowStart w s
  | .spliceAlignEnd w pairs => Sys2Proof.Machine.execSpliceAlignEnd w pairs s
  | .spliceVerifyEnd w pairs => Sys2Proof.Machine.execSpliceVerifyEnd w pairs s
  | .spliceHandover w => Sys2Proof.Machine.execSpliceHandover w s
  | .enterFactory m v => Sys2Proof.Machine.execEnterFactory m v s
  | .provision m v => Sys2Proof.Machine.execProvision m v s
  | .enterField m v => Sys2Proof.Machine.execEnterField m v s
  | .retNonce m v => Sys2Proof.Machine.execRetNonce m v s
  | .lcReturn m v => Sys2Proof.Machine.execLcReturn m v s
  | .lcRetire m v => Sys2Proof.Machine.execLcRetire m v s
  | .lcRevoke m v => Sys2Proof.Machine.execLcRevoke m v s
  | .returnNonceExpire => Sys2Proof.Machine.execReturnNonceExpire s
  | .fuseRead m => Sys2Proof.Machine.execFuseRead m s
  | .fuseProgram m ok => Sys2Proof.Machine.execFuseProgram m ok s
  | .idcode => Sys2Proof.Machine.execIdcode s
  | .samplePreload cells => Sys2Proof.Machine.execSamplePreload cells s
  | .extest cells => Sys2Proof.Machine.execExtest cells s
  | .jtagClamp => Sys2Proof.Machine.execJtagClamp s
  | .highz => Sys2Proof.Machine.execHighz s
  | .extestPulse cells => Sys2Proof.Machine.execExtestPulse cells s
  | .extestTrain cells => Sys2Proof.Machine.execExtestTrain cells s
  | .dbgChal => Sys2Proof.Machine.execDbgChal s
  | .dbgResp key sig => Sys2Proof.Machine.execDbgResp key sig s
  | .dbgStatus => Sys2Proof.Machine.execDbgStatus s
  | .scanNs => Sys2Proof.Machine.execScanNs s
  | .scanSec => Sys2Proof.Machine.execScanSec s
  | .jtagBypass => Sys2Proof.Machine.execJtagBypass s
  | .testLogicReset => Sys2Proof.Machine.execTestLogicReset s
  | .dbgNonceExpire => Sys2Proof.Machine.execDbgNonceExpire s
  | .dbgRefusalEnd => Sys2Proof.Machine.execDbgRefusalEnd s
  | .slewStep k => Sys2Proof.Machine.execSlewStep k s
  | .wideValueRead m off => Sys2Proof.Machine.execWideValueRead m off s
  | .vfEnableSet n => Sys2Proof.Machine.execVfEnableSet n s
  | .msixConditionBegin f c => Sys2Proof.Machine.execMsixConditionBegin f c s
  | .flrComplete k => Sys2Proof.Machine.execFlrComplete k s
  | .pcieLinkL0 => Sys2Proof.Machine.execPcieLinkL0 s
  | .lcCommandDone bad => Sys2Proof.Machine.execLcCommandDone bad s
  | .tokenRefusalEnd => Sys2Proof.Machine.execTokenRefusalEnd s

end Sys2Proof.Machine
end

