-- ==== Sys2Proof/Safety.lean ====
section
/-! DEFINITION. What every command keeps: the words in which the statements about all commands are said. -/

namespace Sys2Proof.Machine

/-- Registers and stores are in their one canonical form, so that equal contents are equal data. -/
def State.canon (s : State) : Prop := tabWf regReset s.regs = true ∧ Memory.wf s.mem = true

/-- Bit `i` of word `w` of the fuse array is blown (R428, R429). -/
def State.blown (s : State) (w i : Nat) : Prop := (s.fuse w).getLsbD i = true

/-- An access by master `m` to register `a` goes through: the host reaches the function, no wide write of the master waits, the block is enabled and
the register is not fused off, the master is the keeper where the register is the keeper's (`kp`), and it reaches the register (R3, R14, R39, R326, R345, R349, R448). -/
structure State.opens (s : State) (m a : Nat) (kp : Bool) : Prop where
  host : s.hostOk m = true
  buf : (s.bufs.find? fun e => e.1 == m) = none
  block : s.enabledAt a = true
  fused : s.fusedOff a = false
  keeper : kp = true → s.isKeeper m = true
  reach : s.reach m a ≠ 0

/-- Between `s` and `t` only registers differ, and of these at most those in `rs`. -/
def OnlyRegs (rs : List Nat) (s t : State) : Prop := t = { s with regs := t.regs } ∧ ∀ a, a ∉ rs → t.reg a = s.reg a

/-- What is true of `t` whenever the hub has gone from `z` to `t` within one command: the canonical form is kept, no blown fuse is unblown (R429),
the queue is as it was, what has left the hub stays recorded, and no free value is used twice. -/
structure Keeps (z t : State) : Prop where
  regs : tabWf regReset z.regs = true → tabWf regReset t.regs = true
  mem : Memory.wf z.mem = true → Memory.wf t.mem = true
  fuse : ∀ w i, z.blown w i → t.blown w i
  pend : t.pending = z.pending
  sent : z.sent <:+ t.sent
  free : z.freeCtr ≤ t.freeCtr

end Sys2Proof.Machine
end

