-- ==== Sys2Proof/Certificates/Slice0/Obligations.lean ====
section
/-! DEFINITION. The statements for the provers, each from the numbered rules that it names. -/

open Sys2Proof Sys2Proof.Machine

/-- A step runs the command at the front of the queue (95_what_each_step_holds.md, 98_reader.md): For every command c, queue rest r and state s: a step of
s with c in front of r is exec of c on s with the queue r. No row of the opcode table gives bits, so no word spells a command, and placing a word
changes nothing. That commands wait in a queue and that a step takes one is the model's own frame (DESIGN CHOICE, log entry 12). -/
def Obligations.StepRunsFront : Prop :=
  (∀ (c : Instr) (r : List Instr) (s : State), step { s with pending := c :: r } = exec c { s with pending := r }) ∧
  (∀ (n w : Nat) (s : State), s.withFetchWord n w = s)

/-- With no command waiting, the hub runs on for one hearth cycle (R57, R80, R82, R371): A step on an empty queue leaves every part of the state but the
tally's count, the fine elapsed time and the elapsed time as it was, except that, while the hearth's frequency moves towards a source just taken, two
free values tell whether it still moves and whether SLEWING reads 1, which it does only with a SLEW limit set. The count moves on by the increment
word, modulo 2^136, and so does the fine elapsed time, without a bound; the elapsed time is the fine one in whole tally LSBs. While the tally is FREE,
or the hearth has not locked yet, the increment word is 2^48 / (1.75 * 10^9) in units of 2^-40 LSB, rounded to the nearest, ties up; else the rate
adjustment is applied to it, rounded down. The model's own choices are that a step on an empty queue is one hearth cycle (DESIGN CHOICE, log entry
12), the free values of the movement (DESIGN CHOICE, log entry 22) and the rounding of the adjusted word (DESIGN CHOICE, log entry 87). -/
def Obligations.EmptyQueueTicks : Prop :=
  (∀ s : State, s.pending = [] → ∀ u, u = (if s.hrt.moving then slewOn s else s) →
    step s = .next { u with tal := { u.tal with count := (s.tal.count + s.increment) % 2 ^ 136 }, fine := s.fine + s.increment,
                            elapsed := (s.fine + s.increment) / 2 ^ 40 }) ∧
  (∀ s : State, s.hrt.moving = true →
    slewOn s = ({ s with freeCtr := s.freeCtr + 2, hrt := { s.hrt with moving := Config.freeBit s.freeCtr } } : State).put HRT_STATUS_SLEWING
      (if s.get HRT_CTRL_SLEW ≠ 0 ∧ Config.freeBit s.freeCtr = true ∧ Config.freeBit (s.freeCtr + 1) = true then 1 else 0)) ∧
  (∀ s : State, s.get TAL_STATUS_STATE = 0 ∨ s.hrt.everLocked = false → s.increment = 176848577040768611) ∧
  (∀ s : State, s.get TAL_STATUS_STATE ≠ 0 → s.hrt.everLocked = true →
    s.increment = ((176848577040768611 : Int) + 176848577040768611 * signed 32 (s.get TAL_RATE_RATE) / 10000000000).toNat)

/-- What a cold reset leaves (R17, R31, R81, R393, R445, 18_address_map.md): Every register reads the reset value of its table, and every byte of a store
what start-up leaves there. The hearth is in ACQUIRE with no source selected and its control registers at their table values, the tally counts from
zero in FREE, no plan is in force and no load runs, every basket is UNUSED, every spoke is PARKED, every lane has its role (warp in, chain out, weft
or weft spare), and vector 0 of every function's MSI-X table is masked. No command waits. -/
def Obligations.ResetLeaves : Prop :=
  (∀ a, State.reset.reg a = regReset a) ∧ (∀ a, State.reset.byte a = memDefault a) ∧ State.reset.pending = [] ∧
  State.reset.reg HRT_CTRL = 0x0A370000#32 ∧ State.reset.reg HRT_STATUS = 0x30#32 ∧ State.reset.reg HRT_HOLD_CFG = 0x05DC0000#32 ∧
  State.reset.reg HRT_MON_CFG = 0x2832#32 ∧ State.reset.reg HRT_FOFF_A = 0x80000000#32 ∧
  State.reset.tal.count = 0 ∧ State.reset.get TAL_STATUS_STATE = 0 ∧
  State.reset.flag PLAN_STATUS_IN_FORCE = false ∧ State.reset.get PLAN_STATUS_STATE = 0 ∧ State.reset.plan = none ∧
  (∀ b < 64, State.reset.get (BSK_STATUS_STATE b) = 0) ∧ (∀ n < 256, State.reset.get (SPK_STATUS_STATE n) = 0) ∧
  (∀ p < 108, State.reset.get (LANE_STATUS_ROLE p) = (if p < 2 then 2 else if p < 4 then 3 else if p % 13 = 3 then 1 else 0)) ∧
  (∀ f < 65, State.reset.flag ⟨msixCtrl f 0, 0, 1⟩ = true)

/-- Every command answers a next state, leaves the queue alone and takes back nothing it has sent (R341, 95_what_each_step_holds.md): For every command,
with any operands, and every state, exec answers a next state: it neither faults nor refuses. In that state the queue is what it was, everything that
had left the hub is still recorded as sent, in its order, and no free value is used a second time. -/
def Obligations.EveryCommandAnswers : Prop :=
  ∀ (c : Instr) (s : State), ∃ t, exec c s = .next t ∧ t.pending = s.pending ∧ s.sent <:+ t.sent ∧ s.freeCtr ≤ t.freeCtr

/-- After reset, registers and stores are in canonical form (R11, R17, R26): The reset state lists no register and no byte that reads as an unlisted one
would, and what it lists is in ascending order; so does the state with any commands in its queue. -/
def Obligations.ResetCanonical : Prop :=
  State.reset.canon ∧ ∀ l : List Instr, State.canon { State.reset with pending := l }

/-- Every step keeps registers and stores in canonical form (R11, R14, R26): For every state whose registers and stores are in canonical form, whatever
command is in front of its queue or none: where the step answers a next state, that state's registers and stores are in canonical form too, so that
equal contents of registers and stores are equal data. -/
def Obligations.StepKeepsCanon : Prop :=
  ∀ s t : State, s.canon → step s = .next t → t.canon

/-- No step unblows a fuse (R429, R430): In every state, whatever command is in front of the queue or none, a bit of the fuse array that is blown before a
step is blown after it: fuses are written only by blowing bits (R429, R430). -/
def Obligations.StepKeepsBlownFuses : Prop :=
  ∀ s t : State, step s = .next t → ∀ w i : Nat, s.blown w i → t.blown w i

/-- No step takes the life cycle back, and none gives a revoked owner slot back (R428, R429, R430): In every state, whatever command is in front of the
queue or none, the life-cycle state that the fuses name after a step (BLANK 0, FACTORY 1, up to RETIRED 5: the highest blown bit of the field whose
two copies are words 0 and 1) is the one before or a later one, and an owner slot that reads revoked in either copy before the step reads revoked
after it. -/
def Obligations.LifeCycleNeverGoesBack : Prop :=
  ∀ s t : State, step s = .next t → s.fusedState ≤ t.fusedState ∧ ∀ k : Nat, s.revoked k = true → t.revoked k = true

/-- What a command's event bits send, and what they hold (R341, R455, R456, R457): The end of every command compares the event registers before (s) and
after (t) it. It changes only what has left the hub and the messages held. Among what it sends, the MSI-X message of vector v of function f occurs
once where some source of the function that has a bit gone from 0 to 1 is routed to v and the message is not to be held, and otherwise it does not
occur. A source is added to the messages held exactly where it is due and the message of its vector is held: because the vector is masked, the
function's MSI-X is not enabled, Bus Master Enable is clear, or the function is in D3hot. -/
def Obligations.InterruptDelivery : Prop :=
  (∀ s t : State, deliver s t = { t with sent := (deliver s t).sent, held := (deliver s t).held }) ∧
  (∀ (s t : State) (f v : Nat), ∃ new, (deliver s t).sent = new ++ t.sent ∧
    ((∃ x, (f, x) ∈ dueSources s t ∧ t.vectorOf (f, x) = v) → t.msixHeld f v = false → new.count (Sent.msix f v) = 1) ∧
    (Sent.msix f v ∈ new → (∃ x, (f, x) ∈ dueSources s t ∧ t.vectorOf (f, x) = v) ∧ t.msixHeld f v = false)) ∧
  (∀ (s t : State) (f v x : Nat), (f, v, x) ∈ (deliver s t).held ↔
    (f, v, x) ∈ t.held ∨ ((f, x) ∈ dueSources s t ∧ t.vectorOf (f, x) = v ∧ t.msixHeld f v = true)) ∧
  (∀ (t : State) (f v : Nat), t.msixHeld f v = true ↔
    t.flag ⟨msixCtrl f v, 0, 1⟩ = true ∨ f ∉ t.host.msix ∨ f ∉ t.host.bme ∨ f ∈ t.host.d3)

/-- A master that is not the keeper is counted for a keeper's command, which has none of its effect (R34, R326, R327): Where a master that the hub can
reach, with no wide write of its own waiting, writes a register whose field is the keeper's, of an enabled block, and is not the keeper, the write
counts one violation in the master's KP_WR counter, which stays at its highest value, and sets the master's bit in BSK_VIOL_EVT. None of the listed
commands has any effect of its own then, whatever its operands are. After those of the second list, what had waited for something to end goes on where
it may (settleAll), as after every command that can end something. -/
def Obligations.KeeperGate : Prop :=
  ∀ (s : State) (m a : Nat), s.hostOk m = true → (s.bufs.find? fun e => e.1 == m) = none → s.enabledAt a = true → s.isKeeper m = false →
    let t := (s.put (BSK_VIOL_KP_WR m) (min (s.get (BSK_VIOL_KP_WR m) + 1) 65535)).put (mapBit BSK_VIOL_EVT m) 1
    (∀ (v : Word) (b n : Nat) (all : Bool), b < 64 → n < 256 → ∀ c, (c, a) ∈ ([(.requalifyX m, HRT_CMD), (.clearHistory m, HRT_CMD), (.hrtSwitchNow m, HRT_CMD),
        (.hrtCtrlWrite m v, HRT_CTRL), (.hrtXrefSettleWrite m v, HRT_XREF_SETTLE), (.talStep m, TAL_CMD), (.talSlew m, TAL_CMD),
        (.talSwitchNow m, TAL_CMD), (.restartDlcal m, TAL_CMD), (.spkForcePark m n all, SPK_FORCE), (.spkForceRelease m n all, SPK_FORCE),
        (.armPeakWrite m none, RING_ARM_TOTAL), (.planOpen m, PLAN_CMD), (.planVerify m, PLAN_CMD), (.storeBoot m, PLAN_CMD), (.setMinSeq m, PLAN_CMD),
        (.clearRecov m b, BSK_CMD), (.clearViol m, BSK_CMD), (.clearPeak m, PWR_CMD), (.fullNext m, BIST_CMD), (.cancelFull m, BIST_CMD),
        (.fuseRead m, LC_FUSE_CMD)] : List (Instr × Nat)) → exec c s = .next (deliver s t)) ∧
    (∀ (v : Word) (b p : Nat) (r : SelfTest) (ok : Bool), b < 64 → ∀ c, (c, a) ∈ ([(.rimMigrate m v, RIM_MIGRATE), (.walSpliceGo m v, WAL_SPLICE),
        (.retrain m p, LANE_CMD), (.laneRetire m p, LANE_CMD), (.substitute m p, LANE_CMD), (.planCommit m, PLAN_CMD), (.planAbort m, PLAN_CMD),
        (.clearFaulted m b, BSK_CMD), (.pwrPaceForceWrite m v, PWR_PACE_FORCE), (.shutdown m r, PWR_CMD), (.storeMap m, BIST_CMD),
        (.enterFactory m v, LC_CMD), (.provision m v, LC_CMD), (.enterField m v, LC_CMD), (.retNonce m v, LC_CMD), (.lcReturn m v, LC_CMD),
        (.lcRetire m v, LC_CMD), (.lcRevoke m v, LC_CMD), (.fuseProgram m ok, LC_FUSE_CMD)] : List (Instr × Nat)) →
      exec c s = .next (deliver s (settleAll t)))

/-- How a hearth source appears, settles, is checked, and trips (R44, R45, R47, R48, R51, R53, R57, R363): XREF's activity returns: SETTLING with ACT set,
its settle delay counting from now; the delay over: CHECKING. A warp source present: CHECKING with ACT. A coarse gate within 2,000,000 ppb sets
COARSE_OK and shows the offset where the monitor oscillator is the timebase; a fine gate on a source that is neither selected nor ABSENT, within FWIN
ppm, sets FINE_OK and shows it. A trip sets the source's TRIP bit, reports SRC_TRIP with the source and the monitor in its detail, and puts the source
in the state named (dropSource: a forced source that leaves QUALIFIED by it sets MODE to AUTO); then, where the source was selected, the hearth takes
its loss (afterLoss). Activity: ABSENT, ACT clear; coarse beyond: CHECKING, COARSE_OK clear; fine beyond: CHECKING, or SETTLING where XREF was
SETTLING, FINE_OK clear; phase hit beyond PHIT: CHECKING, PHIT set with the moment of the hit, the phase shown; XREF's hit counts only while it is
selected. -/
def Obligations.SourceMonitors : Prop :=
  ∀ s : State,
    (s.flag HRT_SRC_STATUS_XREF_PRESENT = true → s.flag (HRT_SRC_STATUS_ACT 2) = true →
      exec .xrefActivityTrip s = .next (deliver s (afterLoss (dropSource 2 0
        (raiseFault 0x1000 .srcTrip none 2 ((s.put (HRT_SRC_STATUS_ACT 2) 0).put ⟨HRT_EVENT, 10, 1⟩ 1)))))) ∧
    (s.flag HRT_SRC_STATUS_XREF_PRESENT = true → s.get (HRT_SRC_STATUS_QSTATE 2) = 0 →
      exec .xrefActivityReturn s = .next (deliver s
        { (s.put (HRT_SRC_STATUS_QSTATE 2) 1).put (HRT_SRC_STATUS_ACT 2) 1 with hrt := { s.hrt with settleFrom := s.elapsed } })) ∧
    (s.get (HRT_SRC_STATUS_QSTATE 2) = 1 → exec .xrefSettleElapsed s = .next (deliver s (s.put (HRT_SRC_STATUS_QSTATE 2) 2))) ∧
    (∀ x < 2, s.get (HRT_SRC_STATUS_QSTATE x) = 0 →
      exec (.warpSourcePresent x) s = .next (deliver s ((s.put (HRT_SRC_STATUS_QSTATE x) 2).put (HRT_SRC_STATUS_ACT x) 1))) ∧
    (∀ x < 3, ∀ off : Int, 2 ≤ s.get (HRT_SRC_STATUS_QSTATE x) →
      let t := if s.hearthTimebase then s else s.setReg (HRT_FOFF_A + 4 * x) (BitVec.ofInt 32 off)
      exec (.coarseFreqGateEnd x off) s = .next (deliver s (if off.natAbs ≤ 2000000 then t.put (HRT_SRC_STATUS_COARSE_OK x) 1
        else afterLoss (dropSource x 2
          (raiseFault 0x1000 .srcTrip none (x + 512) ((t.put (HRT_SRC_STATUS_COARSE_OK x) 0).put ⟨HRT_EVENT, 8 + x, 1⟩ 1)))))) ∧
    (∀ x < 3, ∀ off : Int, s.get (HRT_SRC_STATUS_QSTATE x) ≠ 0 → s.get HRT_STATUS_SEL ≠ x → s.hearthTimebase = true →
      let t := s.setReg (HRT_FOFF_A + 4 * x) (BitVec.ofInt 32 off)
      exec (.fineFreqGateEnd x off) s = .next (deliver s (if off.natAbs ≤ 1000 * s.get HRT_MON_CFG_FWIN then t.put (HRT_SRC_STATUS_FINE_OK x) 1
        else afterLoss (dropSource x (if s.get (HRT_SRC_STATUS_QSTATE x) = 1 then 1 else 2)
          (raiseFault 0x1000 .srcTrip none (x + 768) ((t.put (HRT_SRC_STATUS_FINE_OK x) 0).put ⟨HRT_EVENT, 8 + x, 1⟩ 1)))))) ∧
    (∀ x < 3, ∀ mv ph : Int, 2 ≤ s.get (HRT_SRC_STATUS_QSTATE x) → x < 2 ∨ s.get HRT_STATUS_SEL = 2 → 100000 * s.get HRT_MON_CFG_PHIT < mv.natAbs →
      let t := if x < 2 then s.setReg (HRT_PHASE_A + 4 * x) (BitVec.ofInt 32 ph) else { s with hrt := { s.hrt with phaseX := ph } }
      let u := { t with hrt := { t.hrt with seen := noteSource t.hrt.seen x t.fine, hits := noteSource t.hrt.hits x t.elapsed } }
      exec (.phaseHit x mv ph) s = .next (deliver s (afterLoss (dropSource x 2
        (raiseFault 0x1000 .srcTrip none (x + 1024) ((u.put (HRT_SRC_STATUS_PHIT x) 1).put ⟨HRT_EVENT, 8 + x, 1⟩ 1))))))

/-- What sources that qualify or are lost mean for the hearth (R45, R46, R52, R55, R56, R57, R59, R61, R62, R65): Sources CHECKING that have passed their
window at one moment are QUALIFIED, each with its QUAL bit: in ACQUIRE the forced source in FORCED mode where it is QUALIFIED, else the first
QUALIFIED source of PRIO, is then selected; in HOLDOVER the hearth takes, by phase build-out, the one of these sources that comes first in PRIO and
returns to LOCKED, its history lost; in WAIT with none selected that one is selected; otherwise nothing more. A source put below QUALIFIED
(dropSource) takes its state, and MODE goes to AUTO where it was QUALIFIED and forced. What follows (afterLoss): a selected source still QUALIFIED, or
none, changes nothing; else, while LOCKED, the hub switches to the first QUALIFIED source of PRIO, or, with none, goes to HOLDOVER where HOLD_WIN is
not 0 and the history is valid, else to WAIT with no source; while acquiring, the first QUALIFIED source, or none, is selected. A revertive wait that
has run in AUTO mode switches to the source named, if it is QUALIFIED and stands before the selected one in PRIO. -/
def Obligations.SourceSelection : Prop :=
  ∀ s : State,
    (∀ xs : List Nat, (∃ x ∈ xs, x < 3 ∧ s.get (HRT_SRC_STATUS_QSTATE x) = 2) →
      let ys := xs.filter fun x => decide (x < 3 ∧ s.get (HRT_SRC_STATUS_QSTATE x) = 2)
      let t := ys.foldl (fun u x => (u.put (HRT_SRC_STATUS_QSTATE x) 3).put ⟨HRT_EVENT, 11 + x, 1⟩ 1) s
      let o := exec (.qualificationWindowElapsed xs) s
      (t.get HRT_STATUS_STATE = 0 → t.get HRT_CTRL_MODE = 1 ∧ t.get (HRT_SRC_STATUS_QSTATE (t.get HRT_CTRL_FORCE_SRC)) = 3 →
        o = .next (deliver s (t.put HRT_STATUS_SEL (t.get HRT_CTRL_FORCE_SRC)))) ∧
      (t.get HRT_STATUS_STATE = 0 → ¬(t.get HRT_CTRL_MODE = 1 ∧ t.get (HRT_SRC_STATUS_QSTATE (t.get HRT_CTRL_FORCE_SRC)) = 3) →
        o = .next (deliver s (t.put HRT_STATUS_SEL (t.bestSource.getD 3)))) ∧
      (∀ x, (prioOrder (t.get HRT_CTRL_PRIO)).find? (fun y => ys.contains y) = some x →
        (t.get HRT_STATUS_STATE = 2 → o = .next (deliver s (raiseFault 0x1000 .srcSwitch none x
          ((((loseHistory (buildOut x t)).put HRT_STATUS_STATE 1).put HRT_STATUS_LEFT 0).put HRT_EVENT_HOLD_EXIT 1)))) ∧
        (t.get HRT_STATUS_STATE = 3 → t.get HRT_STATUS_SEL = 3 → o = .next (deliver s (t.put HRT_STATUS_SEL x)))) ∧
      (t.get HRT_STATUS_STATE = 1 ∨ t.get HRT_STATUS_STATE = 4 ∨ t.get HRT_STATUS_STATE = 3 ∧ t.get HRT_STATUS_SEL ≠ 3 → o = .next (deliver s t))) ∧
    (∀ x q, dropSource x q s = (if s.get (HRT_SRC_STATUS_QSTATE x) = 3 ∧ s.get HRT_CTRL_MODE = 1 ∧ s.get HRT_CTRL_FORCE_SRC = x then
      (s.put (HRT_SRC_STATUS_QSTATE x) q).put HRT_CTRL_MODE 0 else s.put (HRT_SRC_STATUS_QSTATE x) q)) ∧
    (s.get HRT_STATUS_SEL = 3 ∨ s.get (HRT_SRC_STATUS_QSTATE (s.get HRT_STATUS_SEL)) = 3 → afterLoss s = s) ∧
    (s.get HRT_STATUS_SEL ≠ 3 → s.get (HRT_SRC_STATUS_QSTATE (s.get HRT_STATUS_SEL)) ≠ 3 →
      (s.get HRT_STATUS_STATE = 1 →
        (∀ y, s.bestSource = some y → afterLoss s = switchTo y s) ∧
        (s.bestSource = none → s.get HRT_HOLD_CFG_HOLD_WIN ≠ 0 → s.flag HRT_STATUS_HIST_VALID = true → afterLoss s = enterHoldover s) ∧
        (s.bestSource = none → s.get HRT_HOLD_CFG_HOLD_WIN = 0 ∨ s.flag HRT_STATUS_HIST_VALID = false →
          afterLoss s = enterWait 0 (s.put HRT_STATUS_SEL 3))) ∧
      (s.get HRT_STATUS_STATE = 0 ∨ s.get HRT_STATUS_STATE = 3 → afterLoss s = s.put HRT_STATUS_SEL (s.bestSource.getD 3))) ∧
    (∀ x < 3, s.get HRT_STATUS_STATE = 1 → s.get HRT_CTRL_MODE = 0 → s.flag HRT_CTRL_REVERTIVE = true → s.get (HRT_SRC_STATUS_QSTATE x) = 3 →
      s.rank x < s.rank (s.get HRT_STATUS_SEL) → exec (.revertiveWtrElapsed x) s = .next (deliver s (switchTo x s)))

/-- An unlock sends the hearth to WAIT, and three failed reacquisitions within 1 s to LOST (R64): HEARTH_UNLOCK while LOCKED: the UNLOCK event is set and
the hearth enters WAIT (state 3), its window WAIT_MAX, its tuning frozen at the word of this moment, with what entering WAIT does to spokes, baskets
and calibrations; the selected source stays selected. While in WAIT with a source selected and QUALIFIED, a lock declared brings the state to LOCKED
with that source still selected, and the failures counted so far stay counted. REACQUISITION_FAIL (10 ms without a lock) in WAIT with a source
selected counts with the failures less than 1 s old, whatever locks lay between them: where they are three the hearth enters LOST (state 4), every
spoke parked and the class G fault raised; else it stays in WAIT. -/
def Obligations.UnlockAndReacquisition : Prop :=
  ∀ s : State,
    (s.get HRT_STATUS_STATE = 1 →
      let t := ((s.put HRT_EVENT_UNLOCK 1).put HRT_STATUS_STATE 3).put HRT_STATUS_LEFT (s.get HRT_HOLD_CFG_WAIT_MAX)
      let t := ((holdTuning s.tuningNow t).put HRT_EVENT_WAIT_ENTER 1)
      let u := parkSpokes SPK_STATUS_C_HEARTH allSpokes { t with hrt := { t.hrt with leftFrom := t.elapsed } }
      t.get HRT_STATUS_STATE = 3 ∧ t.get HRT_STATUS_SEL = s.get HRT_STATUS_SEL ∧
      exec .hearthUnlock s = .next (deliver s (abandonCalHearth (eachDo u.boundBaskets (fun b => raiseFault 0x1000 .hearthWait (some b) 1) u)))) ∧
    (s.get HRT_STATUS_STATE = 3 → s.get HRT_STATUS_SEL < 3 → s.get (HRT_SRC_STATUS_QSTATE (s.get HRT_STATUS_SEL)) = 3 → s.hrt.everLocked = true →
      let t := (s.put HRT_STATUS_STATE 1).put HRT_STATUS_LEFT 0
      let t := { t with hrt := { t.hrt with bwNow := 12, frozen := false } }
      let u := (loseHistory t).put HRT_EVENT_WAIT_EXIT 1
      t.get HRT_STATUS_STATE = 1 ∧ t.get HRT_STATUS_SEL = s.get HRT_STATUS_SEL ∧ u.hrt.fails = s.hrt.fails ∧
      exec .hearthLockDeclare s = .next (deliver s (settleAll
        (eachDo (List.range 64) (clearCause 0x1000 .hearthWait) (unparkSpokes SPK_STATUS_C_HEARTH allSpokes u))))) ∧
    (s.get HRT_STATUS_STATE = 3 → s.get HRT_STATUS_SEL < 3 →
      let f := s.elapsed :: s.hrt.fails.filter fun x => decide (s.elapsed < x + 2 ^ 48)
      let t : State := { s with hrt := { s.hrt with fails := f } }
      let u := (((t.put HRT_STATUS_STATE 4).put HRT_STATUS_LEFT 0).put HRT_EVENT_LOST 1).put HRT_STATUS_SEL 3
      let l := raiseFault 0x1000 .hearthLost none 0 (parkSpokes SPK_STATUS_C_HEARTH allSpokes (holdTuning s.tuningNow u))
      exec .reacquisitionFail s = .next (deliver s (settleAll (if 3 ≤ f.length then l else t))))

/-- The hearth's lock, its bandwidth staircase, its history and its windows (R52, R54, R60, R61, R62, R63, R82, R223): A lock declared from ACQUIRE, with
a QUALIFIED source selected, makes the hearth LOCKED with 4 kHz bandwidth (code 12) in force; at the first lock since reset the tally moves to the
hearth (tallyHandover). A bandwidth step moves the code in force by one towards HRT_CTRL.BW. The history becomes valid while LOCKED. HOLDOVER whose
window expires, and WAIT whose window expires, end in LOST: the LOST event is set, no source is selected, the tuning is frozen at the word of this
moment, every spoke parks with C_HEARTH and the class G fault HEARTH_LOST is raised. Entering HOLDOVER sets the state, no source, the window HOLD_WIN
and the HOLD_ENTER event, holds the tuning at the history value, reports HOLDOVER, class W, and ends the calibrations that need a LOCKED hearth. -/
def Obligations.HearthLockAndLoss : Prop :=
  ∀ s : State,
    (s.get HRT_STATUS_STATE = 0 → s.get HRT_STATUS_SEL < 3 → s.get (HRT_SRC_STATUS_QSTATE (s.get HRT_STATUS_SEL)) = 3 →
      let t := (s.put HRT_STATUS_STATE 1).put HRT_STATUS_LEFT 0
      let u := if s.hrt.everLocked then t else tallyHandover { t with hrt := { t.hrt with everLocked := true } }
      exec .hearthLockDeclare s = .next (deliver s (settleAll { u with hrt := { u.hrt with bwNow := 12, frozen := false } }))) ∧
    (s.get HRT_STATUS_STATE = 1 →
      (let b := s.hrt.bwNow
       let g := s.get HRT_CTRL_BW
       exec .hearthBwStep s = .next (deliver s { s with hrt := { s.hrt with bwNow := if g < b then b - 1 else if b < g then b + 1 else b } })) ∧
      exec .historyValid s = .next (deliver s (s.put HRT_STATUS_HIST_VALID 1))) ∧
    (let u := (((s.put HRT_STATUS_STATE 4).put HRT_STATUS_LEFT 0).put HRT_EVENT_LOST 1).put HRT_STATUS_SEL 3
     let l := raiseFault 0x1000 .hearthLost none 0 (parkSpokes SPK_STATUS_C_HEARTH allSpokes (holdTuning s.tuningNow u))
     (s.get HRT_STATUS_STATE = 2 → exec .holdoverWindowExpire s = .next (deliver s (settleAll l))) ∧
     (s.get HRT_STATUS_STATE = 3 → exec .waitMaxExpire s = .next (deliver s (settleAll l)))) ∧
    (∀ v : Int, holdTuning v s = ({ s with hrt := { s.hrt with frozen := true, tune := v, moving := false } } : State).put HRT_STATUS_SLEWING 0) ∧
    (let t := ((s.put HRT_STATUS_STATE 2).put HRT_STATUS_SEL 3).put HRT_STATUS_LEFT (s.get HRT_HOLD_CFG_HOLD_WIN)
     let t := (holdTuning s.historyValue t).put HRT_EVENT_HOLD_ENTER 1
     enterHoldover s = abandonCalHearth (raiseFault 0x1000 .holdover none 0 { t with hrt := { t.hrt with leftFrom := t.elapsed } }))

/-- What the keeper's writes to the hearth's registers do (R46, R51, R52, R55, R56, R57, R60, R351): By the keeper, into an enabled block: REQUALIFY_X
starts the settle delay anew and, where XREF is not ABSENT, puts XREF in SETTLING with the loss that follows if it was selected. CLEAR_HISTORY ends a
valid history. SWITCH_NOW in FORCED mode only sets VAL_REJ; in AUTO mode it takes the first QUALIFIED source of PRIO, if there is one. A value of
HRT_CTRL with a bad field, or a settle delay outside 1 to 10,000, only sets VAL_REJ, and a force to a source not QUALIFIED only FORCE_REJ. An accepted
HRT_CTRL is stored whole and, with SLEW 0, ends SLEWING; then a force takes its source, and otherwise a hearth in ACQUIRE selects the first QUALIFIED
source of its new PRIO, or none. Taking a source: LOCKED, a switch to it, unless it is selected already; in HOLDOVER, the exit by phase build-out; in
ACQUIRE or WAIT it is selected; in LOST nothing. An accepted settle delay is stored, and XREF, SETTLING for that long already, is CHECKING at once. -/
def Obligations.HearthCommands : Prop :=
  ∀ (s : State) (m : Nat),
    (s.opens m HRT_CMD true →
      (s.flag HRT_SRC_STATUS_XREF_PRESENT = true →
        let t : State := { s with hrt := { s.hrt with settleFrom := s.elapsed } }
        exec (.requalifyX m) s = .next (deliver s (if s.get (HRT_SRC_STATUS_QSTATE 2) = 0 then t else afterLoss (dropSource 2 1 t)))) ∧
      (s.flag HRT_SRC_STATUS_XREF_PRESENT = false → exec (.requalifyX m) s = .next (deliver s s)) ∧
      exec (.clearHistory m) s = .next (deliver s (if s.flag HRT_STATUS_HIST_VALID then (s.put HRT_STATUS_HIST_VALID 0).put HRT_EVENT_HIST_LOST 1 else s)) ∧
      (s.get HRT_CTRL_MODE = 1 → exec (.hrtSwitchNow m) s = .next (deliver s (s.put HRT_EVENT_VAL_REJ 1))) ∧
      (s.get HRT_CTRL_MODE ≠ 1 → (∀ y, s.bestSource = some y → exec (.hrtSwitchNow m) s = .next (deliver s (takeSource y s))) ∧
        (s.bestSource = none → exec (.hrtSwitchNow m) s = .next (deliver s s)))) ∧
    (∀ y,
      (s.get HRT_STATUS_STATE = 1 → takeSource y s = if y = s.get HRT_STATUS_SEL then s else switchTo y s) ∧
      (s.get HRT_STATUS_STATE = 2 → takeSource y s = raiseFault 0x1000 .srcSwitch none y
        ((((loseHistory (buildOut y s)).put HRT_STATUS_STATE 1).put HRT_STATUS_LEFT 0).put HRT_EVENT_HOLD_EXIT 1)) ∧
      (s.get HRT_STATUS_STATE = 0 ∨ s.get HRT_STATUS_STATE = 3 → takeSource y s = s.put HRT_STATUS_SEL y) ∧
      (4 ≤ s.get HRT_STATUS_STATE → takeSource y s = s)) ∧
    (s.opens m HRT_CTRL true → ∀ v : Word,
      let mode := v.toNat % 4
      let src := v.toNat / 4 % 4
      let bad := 1 < mode ∨ src = 3 ∨ 5 < v.toNat / 32 % 8 ∨ 12 < v.toNat / 65536 % 16 ∨ 5 < v.toNat / 1048576 % 16
      let t := if v.toNat / 1048576 % 16 = 0 then (s.setReg HRT_CTRL v).put HRT_STATUS_SLEWING 0 else s.setReg HRT_CTRL v
      (bad → exec (.hrtCtrlWrite m v) s = .next (deliver s (s.put HRT_EVENT_VAL_REJ 1))) ∧
      (¬bad → mode = 1 → s.get (HRT_SRC_STATUS_QSTATE src) ≠ 3 → exec (.hrtCtrlWrite m v) s = .next (deliver s (s.put HRT_EVENT_FORCE_REJ 1))) ∧
      (¬bad → mode = 1 → s.get (HRT_SRC_STATUS_QSTATE src) = 3 → exec (.hrtCtrlWrite m v) s = .next (deliver s (takeSource src t))) ∧
      (¬bad → mode = 0 → t.get HRT_STATUS_STATE = 0 → t.get HRT_CTRL_MODE = 0 →
        exec (.hrtCtrlWrite m v) s = .next (deliver s (t.put HRT_STATUS_SEL (t.bestSource.getD 3)))) ∧
      (¬bad → mode = 0 → t.get HRT_STATUS_STATE ≠ 0 → exec (.hrtCtrlWrite m v) s = .next (deliver s t))) ∧
    (s.opens m HRT_XREF_SETTLE true → ∀ v : Word,
      let x := v.toNat % 16384
      (x = 0 ∨ 10000 < x → exec (.hrtXrefSettleWrite m v) s = .next (deliver s (s.put HRT_EVENT_VAL_REJ 1))) ∧
      (x ≠ 0 → x ≤ 10000 → exec (.hrtXrefSettleWrite m v) s = .next (deliver s
        (if s.get (HRT_SRC_STATUS_QSTATE 2) = 1 ∧ s.hrt.settleFrom + x * 2 ^ 48 / 10000 ≤ s.elapsed then
          (s.setReg HRT_XREF_SETTLE v).put (HRT_SRC_STATUS_QSTATE 2) 2 else s.setReg HRT_XREF_SETTLE v))))

/-- A rim's lock, unlock, and the ends of its waits (R68, R69, R70, R71, R72, R75, R165, R309, R313): A lock declared for logical rim n is noted (code,
band, wear), and makes a rim LOCKING LOCKED, with NR_RIM and C_RIM cleared on its strands and spokes; one in RETUNE ends its retune; one UNLOCKED has
relocked. An unlock of a LOCKED rim's physical rim makes it UNLOCKED with the UNLOCK event; NR_RIM is set and NR_RETUNE cleared on its strands, their
spokes park with C_RIM, each basket that owns a wale on it has the class B fault RIM_UNLOCK with the physical number, and calibrations and splices on
it are abandoned. In a migration without a hit, an unlock of the old rim moves the wales not yet moved at once (oldRimUnlocked), and one of the spare
abandons it (migrationAbandon); in one driven by an unlock, an unlock of the spare retires the spare (spareLost). RELOCK_WAIT over: with AUTO_MIGRATE
the migration driven by the unlock starts, else the hub waits on. RETUNE_MAX over: the TIMEOUT event, the hop completes RETUNE_FAIL, or ABORTED where
a partial reweave of the rim waits for it, the rim is handled as unlocked (256 added to the detail, no UNLOCK event), and a migration requested during
the retune starts at once. -/
def Obligations.RimLockAndUnlock : Prop :=
  ∀ s : State,
    (∀ n < 16, ∀ code band : Nat,
      let t := noteLock n (s.get (RIM_STATUS_PHYS n)) code band s
      (s.get (RIM_STATUS_STATE n) = 1 → exec (.rimLockDeclare n code band) s = .next (deliver s (settleAll (settleRim n (rimReady n (t.put (RIM_STATUS_STATE n) 2)))))) ∧
      (s.get (RIM_STATUS_STATE n) = 3 → exec (.rimLockDeclare n code band) s = .next (deliver s (settleAll (settleRim n (retuneDone n t))))) ∧
      (s.get (RIM_STATUS_STATE n) = 4 → exec (.rimLockDeclare n code band) s = .next (deliver s (settleAll (settleRim n (rimRelocked n t)))))) ∧
    (∀ n p : Nat, s.logicalRim p = some n → s.get (RIM_STATUS_STATE n) = 2 →
      exec (.rimUnlock p) s = .next (deliver s (settleAll (rimUnlocked n false s)))) ∧
    (∀ n p : Nat, ∀ g, s.logicalRim p = some n → s.get (RIM_STATUS_STATE n) = 5 → (s.rim n).mig = some g → g.hitless = true →
      exec (.rimUnlock p) s = .next (deliver s (settleAll (oldRimUnlocked n g s)))) ∧
    (∀ n p : Nat, ∀ g, s.logicalRim p = none → s.spareOf p = some n → (s.rim n).mig = some g →
      exec (.rimUnlock p) s = .next (deliver s (settleAll (if g.hitless then migrationAbandon n g s else spareLost n g s)))) ∧
    (∀ (n : Nat) (late : Bool),
      let t := s.put (RIM_STATUS_STATE n) 4
      let t := if late then t else t.put (RIM_EVENT_UNLOCK n) 1
      let t := t.setRim n { t.rim n with relockRun := true, waitRelock := false }
      let u := eachDo (t.rimStrands n) (setReason STR_STATUS_NR_RETUNE false) t
      let v := eachDo (u.rimStrands n) (setReason STR_STATUS_NR_RIM true) u
      let w := parkSpokes SPK_STATUS_C_RIM (v.rimSpokes n) v
      rimUnlocked n late s = abandonSplicesRim n (abandonCalRim n
        (eachDo (w.rimBaskets n) (fun b => raiseFault (0x2000 + n) .rimUnlock (some b) (w.get (RIM_STATUS_PHYS n) + (if late then 256 else 0))) w))) ∧
    (∀ n < 16, s.get (RIM_STATUS_STATE n) = 4 → (s.rim n).relockRun = true →
      let t := s.setRim n { s.rim n with relockRun := false }
      exec (.relockWaitExpire n) s = .next (deliver s (settleAll (if s.flag RIM_POLICY_AUTO_MIGRATE then unlockMigrate n t
        else t.setRim n { t.rim n with waitRelock := true })))) ∧
    (∀ n < 16, s.get (RIM_STATUS_STATE n) = 3 ∨ (s.get (RIM_STATUS_STATE n) = 1 ∧ s.hrt.everLocked = true) →
      let t := endRetuneHop n 9 s (s.put (RIM_EVENT_RETUNE_TIMEOUT n) 1)
      let d := (s.rim n).deferred
      let u := endRetunePark n (rimUnlocked n true (t.modRim n fun r => { r with retuneHop := none, deferred := none }))
      exec (.retuneMaxExpire n) s = .next (deliver s (settleAll (if d.isSome then unlockMigrate n (u.modRim n fun r => { r with relockRun := false }) else u))))

/-- When a rim's migration starts, waits, moves its wales and ends (R71, R72, R73, R74, R75, R305, R424): RIM_MIGRATE keeps the values of its RSVL bits. A
GO in it for rim n with target p (0x1F: the lowest free spare) that finds no free spare, or a migration in progress, sets MIG_REJ; a rim in RETUNE, or
LOCKED with a splice past its calibration in one of its wales or with a load that includes it, keeps the request for later; a rim neither LOCKED nor
in RETUNE sets MIG_REJ; else calibrations on the rim are abandoned and the spare starts locking. Without GO nothing happens. The spare's lock: for a
migration without a hit its wales start to move, and where it has none the spare takes over at once; for one after an unlock the spare takes over. A
wale that moves carries each of its bound strands by the offset measured and is counted in MOVED; after the last one the spare takes the logical
number with the code and band of its lock, the old rim is a free spare again, and what waited on the rim goes on. RIM_MIG_STATUS shows the state, the
rim, the spare and the count of the migration that it shows. -/
def Obligations.RimMigrations : Prop :=
  ∀ s : State,
    (∀ (m : Nat) (v : Word), s.opens m RIM_MIGRATE true →
      let n := v.toNat % 16
      let p := v.toNat / 16 % 32
            let k := keepRsvl m RIM_MIGRATE v s
      let target := if p = 31 then k.lowestFreeRim else if k.rimFree p then some p else none
      let o := exec (.rimMigrate m v) s
      let rej := Host.Outcome.next (deliver s (settleAll (k.put (RIM_EVENT_MIG_REJ n) 1)))
      (v.toNat < 2 ^ 31 → o = .next (deliver s (settleAll k))) ∧
      (2 ^ 31 ≤ v.toNat → target = none ∨ k.anyMigration = true → o = rej) ∧
      (2 ^ 31 ≤ v.toNat → target ≠ none → k.anyMigration = false → k.get (RIM_STATUS_STATE n) ≠ 2 → k.get (RIM_STATUS_STATE n) ≠ 3 → o = rej) ∧
      (2 ^ 31 ≤ v.toNat → target ≠ none → k.anyMigration = false →
        k.get (RIM_STATUS_STATE n) = 3 ∨ k.get (RIM_STATUS_STATE n) = 2 ∧ (k.rimSplicing n = true ∨ k.loadIncludesRim n = true) →
        o = .next (deliver s (settleAll (k.setRim n { k.rim n with deferred := some p })))) ∧
      (∀ q, 2 ^ 31 ≤ v.toNat → target = some q → k.anyMigration = false → k.get (RIM_STATUS_STATE n) = 2 → k.rimSplicing n = false →
        k.loadIncludesRim n = false → o = .next (deliver s (settleAll (beginMigration n q true (abandonCalRim n k)))))) ∧
    (∀ n code band : Nat, ∀ g, (s.rim n).mig = some g → g.locked = false →
      (g.hitless = false → exec (.spareRimLock n code band) s = .next (deliver s (settleAll (spareTakesOver n code band g s)))) ∧
      (g.hitless = true →
        let x := lockBand n g.spare band s
        let h := { g with locked := true, code := code, band := x.1.1, stored := x.1.2 }
        let t := x.2.setRim n { x.2.rim n with mig := some h }
        exec (.spareRimLock n code band) s = .next (deliver s (settleAll
          (finishIfMoved n (if s.get RIM_MIG_STATUS_LOGICAL = n then showMig n h t else t)))))) ∧
    (∀ (n : Nat) (delta : Int), ∀ g w rest, (s.rim n).mig = some g → g.hitless = true → g.locked = true → g.toMove = w :: rest →
      let t := eachDo (s.waleStrands w) (shiftStrand false delta) s
      let h := { g with toMove := rest, moved := (w, delta) :: g.moved }
      let u := t.setRim n { t.rim n with mig := some h }
      exec (.migrationWaleMove n delta) s = .next (deliver s (settleAll
        (finishIfMoved n (if s.get RIM_MIG_STATUS_LOGICAL = n then showMig n h u else u))))) ∧
    (∀ n g, (s.rim n).mig = some g → g.hitless = true → g.locked = true → g.toMove = [] →
      let t := showLock n g.code g.band g.stored ((s.put (RIM_STATUS_PHYS n) g.spare).put (RIM_STATUS_STATE n) 2)
      let t := (t.put ⟨RIM_POOL, s.get (RIM_STATUS_PHYS n), 1⟩ 1).put (RIM_EVENT_MIGRATED n) 1
      finishIfMoved n s = settleRim n (queueRepairMap (dischargeRimWear n (endMig n 0 g.moved.length t)))) ∧
    (∀ n g, showMig n g s = (((s.put RIM_MIG_STATUS_STATE (if g.locked then 2 else 1)).put RIM_MIG_STATUS_LOGICAL n).put
      RIM_MIG_STATUS_TARGET g.spare).put RIM_MIG_STATUS_MOVED g.moved.length)

/-- What the hub does with a SYNC message (R29, R82, R84, R85, R86, R87, R88, R89, R94, R95, R269, R282): On an ACTIVE warp lane x. While the lane
replays, the message only counts as refused. Otherwise its SEQ is checked for a gap, and it is forwarded down the chain unless the chain lane is not
ACTIVE or replays, with the ingress delay and residence added to CORRECTION and HOPS one higher. A message that names the other domain, or whose HOPS
is not the chain position, is refused, sets WIRE_ERR and reports TAL_WIRE; one of no domain, of an interval beyond 12 or without the flag is refused;
any other is accepted. An accepted one publishes its offset; in a domain not INVALID, a rate beyond JUMP_THR refuses it, and the third in a row makes
the domain INVALID; else it is counted, a domain INVALID is CHECKING, and one that meets the conditions becomes VALID; where it steers the tally, the
rate is set, to free values within the limits (DESIGN CHOICE, log entry 23). A gap adds its size to the counter and sets SEQ_GAP. -/
def Obligations.SyncMessages : Prop :=
  ∀ (s : State) (x : Nat) (m : SyncMsg), x < 2 → s.laneActive x = true →
    (s.flag (LANE_STATUS_REPLAY x) = true → exec (.syncReceive x m) s = .next (deliver s (s.incSat (refused x)))) ∧
    (s.flag (LANE_STATUS_REPLAY x) = false →
      let t := forwardSync x m (noteSeq x m s)
      let other := (m.dom = 1 ∨ m.dom = 2) ∧ m.dom ≠ x + 1
      (other → exec (.syncReceive x m) s = .next (deliver s (raiseFault (0x9001 + x) .talWire none 0 ((t.incSat (refused x)).put TAL_EVENT_WIRE_ERR 1)))) ∧
      (¬other → m.hops ≠ s.get TAL_STATUS_CHAIN_POS →
        exec (.syncReceive x m) s = .next (deliver s (raiseFault (0x9001 + x) .talWire none 1 ((t.incSat (refused x)).put TAL_EVENT_WIRE_ERR 1)))) ∧
      (¬other → m.hops = s.get TAL_STATUS_CHAIN_POS → m.dom ≠ x + 1 ∨ 12 < m.logInt ∨ m.flags % 2 = 0 →
        exec (.syncReceive x m) s = .next (deliver s (t.incSat (refused x)))) ∧
      (m.dom = x + 1 → m.hops = s.get TAL_STATUS_CHAIN_POS → m.logInt ≤ 12 → m.flags % 2 = 1 →
        exec (.syncReceive x m) s = .next (deliver s (acceptSync x m t)))) ∧
    ((s.laneActive (2 + x) = false ∨ (s.link (2 + x)).episode.isSome = true) → forwardSync x m s = s) ∧
    (s.laneActive (2 + x) = true → (s.link (2 + x)).episode = none →
      forwardSync x m s = { s with sent := .sync (2 + x) { m with
        correction := m.correction + dIn x s + roundAway (((m.tOut : Int) - m.tIn) * 1000000000) (2 ^ 32), hops := (m.hops + 1) % 8 } :: s.sent }) ∧
    (∀ q g, (s.dom x).seq = some q → q < 65536 → m.seq = (q + 1 + g) % 65536 → 0 < g → g < 65536 →
      noteSeq x m s = (((s.addSat (gaps x) g).put TAL_EVENT_SEQ_GAP 1).setDom x { s.dom x with seq := some m.seq })) ∧
    (let off := (m.tIn : Int) - ((m.origin : Int) + roundAway ((m.correction + dIn x s) * 2 ^ 32) 1000000000)
     let near := match (s.dom x).last with | some t => decide (s.elapsed ≤ t + s.get TAL_DOM_CFG_DOM_TMO * 2 ^ 48 / 10000) | none => false
     let j := (s.dom x).jumps + 1
     let p := s.setReg (TAL_OFF_A + 4 * x) (offFs off)
     (s.domState x ≠ 0 → 100000 * s.get TAL_DOM_CFG_JUMP_THR < m.dev.natAbs →
       let t := (p.setDom x { s.dom x with off := off, last := some s.elapsed, close := near, jumps := j }).incSat (refused x)
       acceptSync x m s = if 3 ≤ j then domainInvalid x t else t) ∧
     ((s.domState x = 0 ∨ m.dev.natAbs ≤ 100000 * s.get TAL_DOM_CFG_JUMP_THR) →
       let t := (p.setDom x { s.dom x with off := off, last := some s.elapsed, close := near, jumps := 0 }).incMod (accepted x)
       let u := tryValid x (if t.domState x = 0 then t.put (domFld x) 1 else t)
       (u.get TAL_STATUS_STATE = 0 ∨ u.get TAL_STATUS_STATE = 3 ∨ u.get TAL_STATUS_SEL ≠ x → acceptSync x m s = u) ∧
       (u.get TAL_STATUS_STATE = 1 ∨ u.get TAL_STATUS_STATE = 2 → u.get TAL_STATUS_SEL = x →
         ∃ w : Int, w.natAbs ≤ u.slewLimit ∧ acceptSync x m s = setRate (Config.freeInt u.freeCtr) w { u with freeCtr := u.freeCtr + 2 })))

/-- Delay requests, responses and averages, and beat markers (R90, R91, R93, R102, R103, R269, R275): A requester lane sends a request and keeps its
number and t1; a chain port on an ACTIVE lane answers a request with its turnaround; a request without a response in time is forgotten. A response to
a request kept, on a requester lane, forgets it and puts (t4 - t1) - turnaround in front of the lane's average, of the latest 4,096, and publishes it.
RESTART_DLCAL and a write of an asymmetry restart the averages from zero: both warp lanes', or the one named, with the value stored; what was
published reads 0. A marker on a bound, present, timed partner's ACTIVE lane that does not replay carries the partner's next number modulo 256, the
tally's state, BEAT_EXP less 10, and the stamp plus TAL_BEAT_DLY in tally LSBs to the nearest; the number moves on. -/
def Obligations.DelayExchanges : Prop :=
  ∀ s : State,
    (∀ p seq t1, s.requester p = true →
      exec (.delayReqSend p seq t1) s = .next (deliver s { s with tal := { s.tal with reqs := (p, seq, t1) :: s.tal.reqs }, sent := .delayReq p seq :: s.sent })) ∧
    (∀ p seq t2 t3, p = 2 ∨ p = 3 → s.laneActive p = true →
      exec (.delayReqReceive p seq t2 t3) s = .next (deliver s { s with sent := .delayResp p seq (t3 - t2) :: s.sent })) ∧
    (∀ p seq, exec (.delayRespTimeout p seq) s =
      .next (deliver s { s with tal := { s.tal with reqs := s.tal.reqs.filter fun q => !(q.1 == p && q.2.1 == seq) } })) ∧
    (∀ p seq turn t4 : Nat, ∀ t1, (s.tal.reqs.find? fun r => r.1 == p && r.2.1 == seq) = some (p, seq, t1) → s.requester p = true →
      let l := (((t4 : Int) - t1 - turn) :: s.avgOf p).take 4096
      let t : State := { s with tal := { s.tal with reqs := s.tal.reqs.filter fun q => !(q.1 == p && q.2.1 == seq),
                                                    avg := tabSet (fun _ => []) s.tal.avg p l } }
      exec (.delayRespReceive p seq turn t4) s = .next (deliver s (publishDelay p t))) ∧
    (∀ p, 2 ≤ p → let h := s.get (LANE_STATUS_HANDLE p)
      publishDelay p s = s.setReg (TAL_BEAT_DLY h) (BitVec.ofInt 32 (delayFs (s.avgOf p) (signed 32 (s.reg (TAL_BEAT_ASYM h)).toNat)))) ∧
    (∀ m, s.opens m TAL_CMD true → exec (.restartDlcal m) s = .next (deliver s (restartAvg 1 (restartAvg 0 s)))) ∧
    (∀ m x v, x < 2 → s.opens m (TAL_ASYM_A + 4 * x) true →
      exec (.talAsymWrite m x v) s = .next (deliver s (restartAvg x (s.setReg (TAL_ASYM_A + 4 * x) v)))) ∧
    (restartAvg 0 s = (({ s with tal := { s.tal with avg := tabSet (fun _ => []) s.tal.avg 0 [] } } : State).put TAL_DLCAL_STATUS_COUNT_A 0
      |>.put TAL_DLCAL_STATUS_DONE_A 0 |>.setReg TAL_DLY_A 0)) ∧
    (∀ h stamp, let p := s.get (LANE_PTN_STATUS_FIRST h)
      h < 96 → s.flag (LANE_PTN_STATUS_PRESENT h) = true → s.flag (LANE_PTN_STATUS_TIME h) = true → s.laneActive p = true →
      s.flag (LANE_STATUS_REPLAY p) = false →
      let q := tabGet (fun _ => 0) s.tal.beats h
      exec (.beatMarkerSend h stamp) s = .next (deliver s { s with
        tal := { s.tal with beats := tabSet (fun _ => 0) s.tal.beats h ((q + 1) % 256) },
        sent := .beat p q (s.get TAL_STATUS_STATE) (s.get TAL_CTRL_BEAT_EXP - 10)
          (((stamp : Int) + roundAway ((s.reg (TAL_BEAT_DLY h)).toNat * 2 ^ 48) (10 ^ 15)) % (2 ^ 96 : Int)).toNat :: s.sent }))

/-- The tally's domains, its states and its commands (R81, R83, R94, R96, R97, R98, R99, R100, R101): A domain that times out, where it was not INVALID,
is INVALID with its event; a selected one gives way to the other domain if that is VALID (domainSwitch), else, in ACQUIRE or TRACKING, to HOLDOVER,
the rate held at its mean over 10 s with no slew, with HOLD_ENTER and a report. A switch sets SEL and the SWITCH event, reports, and, outside
HOLDOVER, starts a slew at SWSLEW. A domain that becomes VALID ends FREE with a step into ACQUIRE, and ends HOLDOVER, where its offset is within
STEP_THR, with a slew at ACQ_SLEW. TRACK_ENTER takes ACQUIRE to TRACKING; SLEW_DONE clears SLEWING and leaves the servo's correction alone; a revert
switches to DOM_PRIO's first domain where REVERTIVE is set, it is VALID and another is selected, outside FREE. TAL_CMD STEP and SLEW with no VALID
domain set VAL_REJ; else STEP steps to the selected or first VALID domain and enters ACQUIRE, and SLEW, outside FREE, enters ACQUIRE with a slew at
ACQ_SLEW; SWITCH_NOW switches to the first VALID domain where it is another. Reading TAL_NOW0 puts the tally's 96 bits into TAL_NOW0 to TAL_NOW2. That
SWITCH tells of a switch between two domains alone is a choice (DESIGN CHOICE, log entry 90). -/
def Obligations.TallyStates : Prop :=
  ∀ s : State,
    (∀ x < 2, s.domState x ≠ 0 →
      let t := (s.put (domFld x) 0).put ⟨TAL_EVENT, 7 + x, 1⟩ 1
      let u := t.setDom x { t.dom x with last := none, close := false, jumps := 0 }
      (u.get TAL_STATUS_SEL ≠ x → exec (.domainTimeout x) s = .next (deliver s u)) ∧
      (u.get TAL_STATUS_SEL = x → u.domState (1 - x) = 2 → exec (.domainTimeout x) s = .next (deliver s (domainSwitch (1 - x) u))) ∧
      (u.get TAL_STATUS_SEL = x → u.get TAL_STATUS_STATE = 1 ∨ u.get TAL_STATUS_STATE = 2 → u.domState (1 - x) ≠ 2 →
        let v := ((((setRate (meanRate u.elapsed u.tal.rates) 0 u).put TAL_STATUS_STATE 3).put TAL_STATUS_SEL 3).put TAL_STATUS_SLEWING 0).put TAL_EVENT_HOLD_ENTER 1
        exec (.domainTimeout x) s = .next (deliver s (raiseFault 0x9000 .talHoldover none 0 { v with tal := { v.tal with holdSince := v.elapsed } }))) ∧
      (u.get TAL_STATUS_SEL = x → u.get TAL_STATUS_STATE = 0 ∨ u.get TAL_STATUS_STATE = 3 → u.domState (1 - x) ≠ 2 →
        exec (.domainTimeout x) s = .next (deliver s ((u.put TAL_STATUS_SEL 3).put TAL_STATUS_MISMATCH 0)))) ∧
    (∀ y, let t := raiseFault 0x9000 .talSwitch none y ((s.put TAL_STATUS_SEL y).put TAL_EVENT_SWITCH 1)
      domainSwitch y s = if s.get TAL_STATUS_STATE = 3 then t else ({ t with tal := { t.tal with acqSlew := false } } : State).put TAL_STATUS_SLEWING 1) ∧
    (∀ x < 2, let t := (s.put (domFld x) 2).put ⟨TAL_EVENT, 9 + x, 1⟩ 1
      (t.get TAL_STATUS_STATE = 0 → domainValid x s = enterAcquire x (tallyStep x t)) ∧
      (t.get TAL_STATUS_STATE = 3 → (t.dom x).off.natAbs ≤ usec (t.get TAL_DOM_CFG_STEP_THR) → domainValid x s = beginSlew true (enterAcquire x t))) ∧
    (s.get TAL_STATUS_STATE = 1 → exec .tallyTrackEnter s = .next (deliver s ((s.put TAL_STATUS_STATE 2).put TAL_EVENT_TRACK 1))) ∧
    (s.flag TAL_STATUS_SLEWING = true → exec .tallySlewDone s = .next (deliver s (setRate s.tal.servo 0 (s.put TAL_STATUS_SLEWING 0)))) ∧
    (∀ x r, domOrder s = x :: r → s.flag TAL_CTRL_REVERTIVE = true → s.domState x = 2 → s.get TAL_STATUS_SEL ≠ x → s.get TAL_STATUS_SEL < 2 →
      s.get TAL_STATUS_STATE ≠ 0 → exec .domainRevert s = .next (deliver s (domainSwitch x s))) ∧
    (∀ m, s.opens m TAL_CMD true →
      (cmdDomain s = none → exec (.talStep m) s = .next (deliver s (s.put TAL_EVENT_VAL_REJ 1)) ∧ exec (.talSlew m) s = .next (deliver s (s.put TAL_EVENT_VAL_REJ 1))) ∧
      (∀ x, cmdDomain s = some x → exec (.talStep m) s = .next (deliver s (enterAcquire x (tallyStep x s))) ∧
        exec (.talSlew m) s = .next (deliver s (if s.get TAL_STATUS_STATE = 0 then s else beginSlew true (enterAcquire x s)))) ∧
      (∀ x, firstValid s = some x → s.get TAL_STATUS_SEL ≠ x → s.get TAL_STATUS_STATE ≠ 0 →
        exec (.talSwitchNow m) s = .next (deliver s (domainSwitch x s))) ∧
      (firstValid s = none → exec (.talSwitchNow m) s = .next (deliver s s))) ∧
    (∀ m, s.opens m TAL_NOW0 false → let n := s.tal.count / 2 ^ 40
      exec (.talNow0Read m) s = .next (deliver s (((s.setReg TAL_NOW0 (BitVec.ofNat 32 n)).setReg TAL_NOW1 (BitVec.ofNat 32 (n / 2 ^ 32))).setReg
        TAL_NOW2 (BitVec.ofNat 32 (n / 2 ^ 64)))))

/-- A command that passes its checks enters its ring as a QUEUED hop (R33, R141, R142, R143, R144, R146, R156, R157, R206, R239, R241): For each operation
that becomes a hop (ARM, RETUNE, START, STOP, MEASURE, MEASURE_STOP and the five calibrations), a command addressed to this hub that passes R144 while
no class G fault and no shutdown aborts commands: from host ring r, with an entry free in the basket's completion ring, it becomes a hop QUEUED in r,
its completion entry reserved; from lane p, whose source holds a credit in place j of ring r, its four words are stored at PROD, PROD moves on, the
credit is used, and it becomes a hop QUEUED in r that feeds from that source; the lane's frame then counts as received. The hop has the next number,
the command's words, and for TIMED the full fire value. A NOP has no check: it is consumed. -/
def Obligations.CommandsEnterRings : Prop :=
  ∀ (s : State) (c : CmdIn) (p : Parsed), s.incoming c = some p → s.addressed p = true → s.parseCheck p = none → s.abortsAll = false →
    let fire := if cmdClass p.w0 = 1 then fireValue s.tally (p.w2.toNat + 2 ^ 32 * p.w3.toNat) else 0
    let hop := fun (feed : Option Nat) (ring : Nat) (reserved : Bool) =>
      ({ id := s.nextId, w0 := p.w0, w1 := p.w1, src := p.src, feed := feed, ring := ring, st := .queued, released := false, squashed := false,
         record := [], fire := fire, armSeq := 0, heldAt := 0, reserved := reserved } : Hop)
    (∀ i o, (i, o) ∈ ([(.hopArm c, 1), (.hopRetune c, 4), (.strandStart c, 5), (.strandStop c, 6), (.reedMeasure c, 8), (.measureStop c, 9),
        (.calStrand c, 10), (.calReed c, 11), (.calRim c, 12), (.calLane c, 13), (.calStore c, 14)] : List (Instr × Nat)) → cmdOp p.w0 = o →
      (∀ r, p.src = .host r → s.canReserve p.basket = true →
        exec i s = .next (deliver s { s.setReserved p.basket (s.reservedOf p.basket + 1) with
          hops := s.hops ++ [hop none r true], nextId := s.nextId + 1 })) ∧
      (∀ l r j, p.src = .lane l → s.creditOf l p = some (r, j) →
        let t := storeEntry (s.ringEntry r (s.get (RING_PROD_IDX r))) [p.w0, p.w1, p.w2, p.w3] s
        let u := (t.put (RING_PROD_IDX r) (s.get (RING_PROD_IDX r) + 1)).put (RING_SRC_OUT_HELD r j) (s.get (RING_SRC_OUT_HELD r j) - 1)
        exec i s = .next (deliver s (forward p { u with hops := s.hops ++ [hop (some (s.feedOf l)) r false], nextId := s.nextId + 1 }))))

/-- Commands that end at parse: NOP, those for another hub, and those that a check or an abort refuses (R30, R141, R144, R239, R240, R241, R365, R403): A
NOP is consumed unchecked. Of the operations of R141 other than NOP: a command that is not addressed to this hub is only forwarded. Of a command for
this hub: one with an OP of 0 or 7 is answered BAD_CMD with detail 1, whatever its source; one that a check fails is answered with that check's code
and detail; one that passes after a class G fault or in shutdown is answered ABORTED. Where the answer needs a completion entry and none is free, the
command waits: a lane's holds the ingress of its link, so that only that command is parsed on it, and it comes again (DEDUCED, log entry 27). -/
def Obligations.CommandsActedOnAtParse : Prop :=
  ∀ (s : State) (c : CmdIn) (p : Parsed), s.incoming c = some p →
    let ans := fun code d => Host.Outcome.next (deliver s (match answerOr p code d s with | some t => forward p t | none => stall p s))
    (cmdOp p.w0 = 15 → exec (.nopCmd c) s = .next (deliver s (forward p (consume p s)))) ∧
    (s.addressed p = true → cmdOp p.w0 = 0 ∨ cmdOp p.w0 = 7 → exec (.invalidOp c) s = ans 0x10 1) ∧
    (∀ i o, (i, o) ∈ ([(.hopArm c, 1), (.hopCommit c, 2), (.hopSquash c, 3), (.hopRetune c, 4), (.strandStart c, 5), (.strandStop c, 6), (.reedMeasure c, 8),
        (.measureStop c, 9), (.calStrand c, 10), (.calReed c, 11), (.calRim c, 12), (.calLane c, 13), (.calStore c, 14)] : List (Instr × Nat)) →
      cmdOp p.w0 = o →
      (s.addressed p = false → exec i s = .next (deliver s (forward p s))) ∧
      (s.addressed p = true → ∀ code d, s.parseCheck p = some (code, d) → exec i s = ans code d) ∧
      (s.addressed p = true → s.parseCheck p = none → s.abortsAll = true → exec i s = ans 5 0)) ∧
    (∀ l, p.src = .lane l → stall p s = s.setLink l { s.link l with stalled := some (p.urgent, [p.w0, p.w1, p.w2, p.w3]) })

/-- What a COMMIT and a SQUASH do to the hop that holds their tag (R141, R144, R156, R157, R239, R248): For a COMMIT or SQUASH of a live source that
passes R144 while nothing aborts commands, with t its tag in its basket. COMMIT: the hop SPECULATIVE: it is released and arms; QUEUED (or with its
fetch on the way) and unreleased: it is marked released, and a fetch that is done then arms it; released: no effect and no completion; marked
squashed: TAG_UNKNOWN with detail 1; no hop: TAG_UNKNOWN with detail 0. SQUASH: SPECULATIVE: the hop completes SQUASHED; released: SQUASH_LATE; QUEUED
and unreleased: it is marked, and completes SQUASHED as its ring's head when the scheduler turns to it, with no slot; with its fetch on the way it is
marked too, and completes SQUASHED when the fetch is done; marked already: no effect and no completion; no hop: TAG_UNKNOWN with detail 0. An answer
for which no completion entry is free waits, the command coming again (DEDUCED, log entry 27). -/
def Obligations.CommitAndSquash : Prop :=
  ∀ (s : State) (c : CmdIn) (p : Parsed), s.incoming c = some p → s.addressed p = true → s.parseCheck p = none → s.abortsAll = false →
    let ans := fun code d => Host.Outcome.next (deliver s (match answerOr p code d s with | some t => forward p t | none => stall p s))
    let gone := consume p s
    let tag := s.tagHop p.basket (cmdTag p.w1)
    (cmdOp p.w0 = 2 →
      (tag = none → exec (.hopCommit c) s = ans 0x16 0) ∧
      (∀ h, tag = some h →
        (h.squashed = true → exec (.hopCommit c) s = ans 0x16 1) ∧
        (h.squashed = false → h.released = true → exec (.hopCommit c) s = .next (deliver s (forward p gone))) ∧
        (h.squashed = false → h.released = false →
          let t := gone.modHop h.id fun x => { x with released := true }
          (h.st = .speculative → exec (.hopCommit c) s = .next (deliver s (forward p (armHop { h with released := true } t)))) ∧
          (h.st ≠ .speculative → exec (.hopCommit c) s = .next (deliver s (forward p t)))))) ∧
    (∀ h : Hop, h.released = true → afterFetch h s = armHop h s) ∧
    (∀ h : Hop, h.squashed = true → h.released = false → afterFetch h s = completeHop h 3 0 0 s) ∧
    (cmdOp p.w0 = 3 →
      (tag = none → exec (.hopSquash c) s = ans 0x16 0) ∧
      (∀ h, tag = some h →
        (h.squashed = true → exec (.hopSquash c) s = .next (deliver s (forward p gone))) ∧
        (h.squashed = false → h.released = true → exec (.hopSquash c) s = ans 0x17 0) ∧
        (h.squashed = false → h.released = false → h.st = .speculative →
          exec (.hopSquash c) s = .next (deliver s (forward p (completeHop h 3 0 0 gone)))) ∧
        (h.squashed = false → h.released = false → h.st ≠ .speculative →
          exec (.hopSquash c) s = .next (deliver s (forward p (gone.modHop h.id fun x => { x with squashed := true })))))) ∧
    (∀ r h, s.ringHead? r = some h → h.aborting = false → h.squashed = true →
      h.reserved = true ∨ cmdReply h.w0 = 1 ∨ s.canReserve h.basket = true →
      exec (.hopGrant r) s = .next (deliver s (completeQueued h 3 0 0 s)))

/-- A CMD_U frame carries an URGENT command or a COMMIT or SQUASH, and nothing else (R141, R144, R242, R267): A command addressed to this hub arrives in a
CMD_U frame on lane l, is not URGENT, and is neither COMMIT nor SQUASH; it is one of the other operations of R141. Where every check of R144 passes,
the command is answered BAD_CMD with detail 6, whether or not its source holds a credit (an answer that needs a completion entry when none is free
waits). Where a check of R144 fails, its own code and detail are the answer, as for the same command in another frame. For an URGENT command, and for
a COMMIT or SQUASH, the checks answer the same in a CMD_U frame as elsewhere. -/
def Obligations.UrgentFrames : Prop :=
  (∀ (s : State) (c : CmdIn) (p : Parsed) (l : Nat), s.incoming c = some p → s.addressed p = true → p.src = .lane l → p.urgent = true →
    cmdClass p.w0 ≠ 0 → ∀ i o, (i, o) ∈ ([(.hopArm c, 1), (.hopRetune c, 4), (.strandStart c, 5), (.strandStop c, 6), (.reedMeasure c, 8),
      (.measureStop c, 9), (.calStrand c, 10), (.calReed c, 11), (.calRim c, 12), (.calLane c, 13), (.calStore c, 14)] : List (Instr × Nat)) →
    cmdOp p.w0 = o →
    (s.parseCheck { p with urgent := false } = none →
      exec i s = .next (deliver s (match answerOr p 0x10 6 s with | some t => forward p t | none => stall p s))) ∧
    (∀ code d, s.parseCheck { p with urgent := false } = some (code, d) →
      exec i s = .next (deliver s (match answerOr p code d s with | some t => forward p t | none => stall p s)))) ∧
  (∀ (s : State) (p : Parsed), cmdClass p.w0 = 0 ∨ cmdOp p.w0 = 2 ∨ cmdOp p.w0 = 3 → s.parseCheck p = s.parseCheck { p with urgent := false })

/-- A hop's slot, its profile record, and how it arms (R139, R146, R147, R152, R153, R157, R159, R164, R166, R239, R247, R248): A hop at the head of its
ring that an event has ended ends ABORTED; one marked squashed, or unreleased, speculative and without its source, completes SQUASHED or LINK_ERR once
its entry can be reserved; another that may be granted and is not outranked on its bank takes its slot (grantSlot): one that fetches is in its fetch,
a STOP goes on to arm, a maintenance operation acts at once. A fetch whose access its bank performs is done: one for which a SQUASH came while it was
on its way completes SQUASHED; a record that fails R139 completes BAD_PROFILE with the first failing check as detail, an ECC one reported first; a
ramp that R166 refuses at fetch completes BAD_RAMP; a good record leaves an unreleased speculative hop SPECULATIVE with its timer from now (LINK_ERR
if its source has gone), and any other arms: with its place in the order of arming, it is HELD where something blocks its target, DUE where not,
unless TIMED, which waits until its fire lead is reached and is MISSED past its fire value. -/
def Obligations.HopGrantAndFetch : Prop :=
  ∀ s : State,
    (∀ r h, s.ringHead? r = some h →
      (h.aborting = true → exec (.hopGrant r) s = .next (deliver s (abortHop false h s))) ∧
      (h.aborting = false → h.squashed = true → s.canAnswer h = true → exec (.hopGrant r) s = .next (deliver s (completeQueued h 3 0 0 s))) ∧
      (h.aborting = false → h.squashed = false → h.spec = true → h.released = false → h.orphan = true → s.canAnswer h = true →
        exec (.hopGrant r) s = .next (deliver s (completeQueued h 6 0 0 s))) ∧
      (h.aborting = false → h.squashed = false → ¬(h.spec = true ∧ h.released = false ∧ h.orphan = true) → s.grantable h = true →
        s.outranked h = false → ∀ g, (grantSlot h s).hop? h.id = some g →
        (g.op = 6 → exec (.hopGrant r) s = .next (deliver s (afterFetch g (grantSlot h s)))) ∧
        (8 ≤ g.op → exec (.hopGrant r) s = .next (deliver s (settleAll (maintGranted g (grantSlot h s))))) ∧
        (g.op < 6 → exec (.hopGrant r) s = .next (deliver s (grantSlot h s))))) ∧
    (∀ i h, s.hop? i = some h → h.st = .fetching → (s.accessing (s.bankOf h)).map (·.id) = some i →
      let a := s.absProf h
      let r := s.record a
      let bad := (List.range 8).find? fun j => s.badEcc (profAddr a + 4 * j)
      let check := recordFault h.op (cmdProfile h.w1) (s.get (BSK_PROF_QUOTA_QUOTA h.basket)) bad.isSome r
      (h.squashed = true → h.released = false → exec (.profileFetchDone i) s = .next (deliver s (completeHop h 3 0 0 s))) ∧
      (h.squashed = false ∨ h.released = true →
        (∀ d, check = some d → d ≠ 2 → exec (.profileFetchDone i) s = .next (deliver s (completeHop h 0x13 d 0 s))) ∧
        (∀ j, check = some 2 → bad = some j →
          exec (.profileFetchDone i) s = .next (deliver s (completeHop h 0x13 2 0 (raiseEcc (profAddr a + 4 * j) (some h.basket) s)))) ∧
        (check = none → h.op ≠ 4 → rampRefused h.op (settingOf r a) = true → exec (.profileFetchDone i) s = .next (deliver s (completeHop h 0x14 0 0 s))) ∧
        (check = none → h.op = 4 ∨ rampRefused h.op (settingOf r a) = false →
          exec (.profileFetchDone i) s = .next (deliver s (afterFetch { h with record := r } s))))) ∧
    (∀ h, h.spec = true → h.released = false → h.squashed = false →
      (h.orphan = true → afterFetch h s = completeHop h 6 0 0 s) ∧
      (h.orphan = false → afterFetch h s = s.modHop h.id fun x => { x with st := .speculative, record := h.record, heldAt := s.elapsed })) ∧
    (∀ h, h.released = true ∨ h.spec = false ∧ h.squashed = false → afterFetch h s = armHop h s) ∧
    (∀ h : Hop, let g := { h with st := HopState.armed, armSeq := s.armCtr }
      let t := ({ s with armCtr := s.armCtr + 1 } : State).modHop h.id fun _ => g
      (∀ d, t.blocked g = some d → armHop h s = t.modHop h.id fun x => { x with st := .held, heldAt := t.elapsed }) ∧
      (t.blocked g = none → h.timed = false → armHop h s = becomeDue g t) ∧
      (t.blocked g = none → h.timed = true → h.fire < t.tally → armHop h s = completeHop g 2 0 0 t) ∧
      (t.blocked g = none → h.timed = true → t.tally ≤ h.fire → t.leadReached h.fire = false → armHop h s = t.modHop h.id fun x => { x with st := .armed }))

/-- Which hop takes a boundary, and how the timers end the others (R113, R148, R149, R150, R151, R152, R153, R159, R163, R164, R165, R182): A boundary of
running strand k stands at tally value at, after n edges: its STARTs whose time has come find it running (REJ_TARGET detail 3); a plaited strand
without its edge 0 has no boundary yet; of the other DUE hops not blocked, TIMED ones whose boundary has passed complete MISSED, those that may take
this one but whose ramp does not fit complete BAD_RAMP, of the others the one with precedence (class first, then the later to arm) takes effect, and
the rest complete SUPERSEDED. A TIMED hop may take a boundary more than 140 LSB past its fire value, none more than 140 LSB before it, and in between
by a free choice (DESIGN CHOICE, log entry 35). On a strand that does not run, of its DUE STARTs not blocked whose time has come, those whose start
point has passed complete MISSED, and the one with precedence starts where it has a start point. On a rim, the DUE retune with precedence begins, a
TIMED one at or after its fire value. HOLD_MAX over: NOT_READY with the reason in force. The fire lead reached: an ARMED TIMED hop not blocked is DUE.
The fire value passed and not DUE: MISSED. SPEC_TMO over: TIMEOUT, unless its lane replays. A completed hop leaves the hops, and its completion is
written. -/
def Obligations.HopEnds : Prop :=
  ∀ s : State,
    (∀ k n at_ : Nat, s.flag (STR_STATUS_RUN k) = true →
      let r := runEdges k n s
      let t := eachDo (r.hops.filter fun h => h.st == .due && h.target == k && h.op == 5 && (!h.timed || decide (h.fire ≤ at_))) startRejected r
      let due := t.hops.filter fun h => h.st == .due && h.target == k && (h.op == 1 || h.op == 6) && (t.blocked h).isNone
      let fit := (due.filter (t.takes at_)).filter fun h => !t.rampMismatch h
      let u := eachDo (due.filter (t.tooLate at_)) (completeHop · 2 0 0) { t with freeCtr := t.freeCtr + 1 }
      let u := eachDo ((due.filter (t.takes at_)).filter t.rampMismatch) (completeHop · 0x14 0 0) u
      let o := exec (.hopTakeEffect false k n at_) s
      ((t.strand k).pend = true → o = .next (deliver s (settleAll t))) ∧
      ((t.strand k).pend = false → fit = [] → o = .next (deliver s (settleAll u))) ∧
      ((t.strand k).pend = false → ∀ w, (fit.find? fun h => fit.all fun g => g.id == h.id || precedes h g) = some w →
        let v := eachDo (fit.filter fun h => h.id != w.id) (completeHop · 4 0 0) u
        (w.op = 1 → o = .next (deliver s (settleAll (applyArm w v)))) ∧ (w.op = 6 → o = .next (deliver s (settleAll (applyStop w v)))))) ∧
    (∀ k n at_ : Nat, s.flag (STR_STATUS_RUN k) = false → (s.strand k).parent = none →
      let all := s.hops.filter fun h => h.st == .due && h.target == k && h.op == 5 && (!h.timed || decide (h.fire ≤ at_)) && (s.blocked h).isNone
      let due := all.filter fun h => !s.startLate at_ h
      let t := eachDo (all.filter (s.startLate at_)) (completeHop · 2 0 0) s
      (due = [] → exec (.hopTakeEffect false k n at_) s = .next (deliver s (settleAll t))) ∧
      (∀ w k0, (due.find? fun h => due.all fun g => g.id == h.id || precedes h g) = some w → s.startPoint w = some k0 →
        exec (.hopTakeEffect false k n at_) s = .next (deliver s (settleAll (applyStart k0 w t))))) ∧
    (∀ (h : Hop) (at_ : Nat), (h.timed = false → s.takes at_ h = true) ∧ (h.fire + 140 < at_ → s.takes at_ h = !s.tooLate at_ h) ∧
      (h.timed = true → at_ + 140 < h.fire → s.takes at_ h = false)) ∧
    (∀ g h : Hop, precedes g h = true ↔ g.cls < h.cls ∨ (g.cls = h.cls ∧ h.armSeq < g.armSeq)) ∧
    (∀ n m at_ : Nat, let due := s.hops.filter fun h => h.st == .due && h.op == 4 && h.rim == n && (!h.timed || decide (h.fire ≤ at_)) && (s.blocked h).isNone
      ∀ w, (due.find? fun h => due.all fun g => g.id == h.id || precedes h g) = some w →
        exec (.hopTakeEffect true n m at_) s = .next (deliver s (settleAll
          (retuneTo w.rim (some w.id) (w.record.getD 0 0) (bitsAt (w.record.getD 1 0) 0 4) s)))) ∧
    (∀ i h, s.hop? i = some h →
      (∀ d, h.st = .held → s.blocked h = some d → exec (.holdMaxExpire i) s = .next (deliver s (completeHop h 8 d 0 s))) ∧
      (h.st = .armed → h.timed = true → s.leadReached h.fire = true → s.blocked h = none →
        exec (.fireLeadReached i) s = .next (deliver s (becomeDue h s))) ∧
      (h.timed = true → h.st = .armed ∨ h.st = .held ∨ h.st = .speculative → h.fire ≤ s.tally →
        exec (.timedMissed i) s = .next (deliver s (completeHop h 2 0 0 s))) ∧
      (h.st = .speculative → (∀ p, h.src = .lane p → s.flag (LANE_STATUS_REPLAY p) = false) →
        exec (.specTimeout i) s = .next (deliver s (completeHop h 7 0 0 s)))) ∧
    (∀ (h : Hop) (code d e : Nat), completeHop h code d e s =
      countSlots h.basket (writeCpl h.src h.reserved h.w0 h.w1 code d e { s with hops := s.hops.filter fun x => x.id != h.id }))

/-- A setting's high time, and the code and shaper at which an edge is placed (R109, R111): For period word P, divider N and duty D, with T = N * P in U
(a tick is 2^48 U): a D of 0 is read as 128; the high time is T * D / 256 truncated, raised to 8 ticks and then kept to T - 8 ticks; where T is at
least 16 ticks, high time and low time are at least 8 ticks each. An edge at position x with shaper s below 2^40 is placed at x shifted right by 40
bits, one more where s plus x modulo 2^40 reaches 2^40, which is then taken off; the new shaper is below 2^40, and nothing of x is lost: 2^40 times
the code plus the new shaper is x plus the old shaper. A rising edge of a strand timed by its rim uses the rising shaper, its falling edge, at x plus
the high time, the falling shaper; the strand holds the two codes, each as rim period, rim phase and DTC code with the word that drives its cell, and
the shapers. -/
def Obligations.DutyAndPlacement : Prop :=
  (∀ p n d : Nat,
    let D := if d = 0 then 128 else d
    let T := n * p
    highTime p n d = (T, min (max (T * D / 2 ^ 8) (8 * 2 ^ 48)) (T - 8 * 2 ^ 48)) ∧
    (16 * 2 ^ 48 ≤ T → 8 * 2 ^ 48 ≤ (highTime p n d).2 ∧ 8 * 2 ^ 48 ≤ T - (highTime p n d).2)) ∧
  (∀ (x : Int) (s : Nat), s < 2 ^ 40 →
    let a := s + (x % 2 ^ 40).toNat
    placeEdge x s = (if 2 ^ 40 ≤ a then (x / 2 ^ 40 + 1, a - 2 ^ 40) else (x / 2 ^ 40, a)) ∧
    (placeEdge x s).2 < 2 ^ 40 ∧ (placeEdge x s).1 * 2 ^ 40 + (placeEdge x s).2 = x + s) ∧
  (∀ (a : Around) (x : Strand) (first : Bool), a.par = none → ∃ y, emitEdge a first x = some y ∧
    let r := placeEdge (x.e + x.phi * 2 ^ 36) x.s
    let f := placeEdge (x.e + x.phi * 2 ^ 36 + x.h) x.sf
    y.s = r.2 ∧ y.sf = f.2 ∧
    y.rise = ⟨r.1 / 2 ^ 12, (r.1 / 2 ^ 8 % 16).toNat, (r.1 % 2 ^ 8).toNat, a.main.word (r.1 % 2 ^ 8).toNat⟩ ∧
    y.fall = ⟨f.1 / 2 ^ 12, (f.1 / 2 ^ 8 % 16).toNat, (f.1 % 2 ^ 8).toNat, a.main.word (f.1 % 2 ^ 8).toNat⟩)

/-- Slews and ramps move towards their target, never past it, and their steps never break the gap (R118, R166): A slew step moves the phase towards the
target by at most the step size and never past it; a step to an earlier phase keeps the interval to the next edge, the period shortened by it, at
least the gap G, the high time and 8 ticks, wherever the period itself is at least G; the slew goes on exactly while the target is not reached, and a
step that the gap reduces to zero is held. A ramp step of the output period lies between the period in force and the target; shortening takes off at
least nothing and at most 1 / (2^K + 1) of it, rounded down, lengthening adds at most 1 / 2^K, and a target within one step is reached at once. A
ramp's period word at the target is P exactly. A ramp step of a strand timed by its rim comes at a boundary once no output period is left, on an
eligible strand that has placed its start edge; its edge takes that word and the ramp's divider, and leaves 2^RAMP_J periods up to the next step, or
no ramp once the word is P; the phase, the duty and the slew stay. -/
def Obligations.SlewsAndRamps : Prop :=
  (∀ x : Strand, ((x.h : Int) + 8 * 2 ^ 48 ≤ x.t) →
    let r := slewStep x
    (r.1 - x.phi).natAbs ≤ x.sigma ∧
    (x.phi ≤ x.target → x.phi ≤ r.1 ∧ r.1 ≤ x.target) ∧
    (x.target ≤ x.phi → x.target ≤ r.1 ∧ r.1 ≤ x.phi ∧ (x.h : Int) + 8 * 2 ^ 48 ≤ x.t + (r.1 - x.phi) * 2 ^ 36) ∧
    (r.2.1 = true ↔ r.1 ≠ x.target) ∧ (r.2.2 = true ↔ x.target < x.phi ∧ r.1 = x.phi)) ∧
  (∀ cur tgt k : Nat,
    (cur ≤ tgt → cur ≤ rampPeriod cur tgt k ∧ rampPeriod cur tgt k ≤ tgt ∧ rampPeriod cur tgt k ≤ cur + cur / 2 ^ k) ∧
    (tgt ≤ cur → tgt ≤ rampPeriod cur tgt k ∧ rampPeriod cur tgt k ≤ cur ∧ cur - cur / (2 ^ k + 1) ≤ rampPeriod cur tgt k) ∧
    (cur ≤ tgt → tgt ≤ cur + cur / 2 ^ k → rampPeriod cur tgt k = tgt) ∧
    (tgt ≤ cur → cur - cur / (2 ^ k + 1) ≤ tgt → rampPeriod cur tgt k = tgt)) ∧
  (∀ (cur : Nat) (r : Ramp), rampPeriod cur (r.n * r.p) r.k = r.n * r.p → rampWord cur r = r.p) ∧
  (∀ (cur : Nat) (r : Ramp), rampPeriod cur (r.n * r.p) r.k ≠ r.n * r.p → rampWord cur r = (2 * rampPeriod cur (r.n * r.p) r.k + r.n) / (2 * r.n)) ∧
  (∀ (a : Around) (x : Strand) (r : Ramp), x.ramp = some r → a.par = none → a.elig = true → x.pend = false → r.left = 0 →
    ∃ y, nextEdge a x = some y ∧ y.p = rampWord x.t r ∧ y.n = r.n ∧ y.t = r.n * rampWord x.t r ∧
      y.ramp = (if rampWord x.t r = r.p then none else some { r with left := 2 ^ r.j }) ∧
      y.phi = x.phi ∧ y.d = x.d ∧ y.slewing = x.slewing ∧ y.held = x.held ∧ y.slots = x.slots ∧ y.edges = x.edges + 1)

/-- A strand's ramp and slew steps, its move to a new time base, and the commands on it (R118, R119, R123, R134, R166, R167, R312, R326): A ramp step
comes after n further edges: of an eligible strand whose ramp has no output period left and whose start edge is placed, one more edge, the ramp's next
step, follows; of another only the n edges are placed. A slew step places one edge of a running, slewing strand. A strand that a partial reweave has
still to move: after n edges, one released or whose time base stays stops, another moves to its new base where its edge can be placed; then it no
longer waits, is bound as the plan now has it, and its wale settles. SLOT_CLEAR clears the slot, or all four, and RECHECK makes the strand the next
visited, each with DONE; a virtual function that names another basket's strand is only counted. Reading STR_ACC0 latches the strand's registers at its
latest edge, its position in STR_ACC0 and STR_ACC1. -/
def Obligations.StrandMotion : Prop :=
  ∀ s : State,
    (∀ k n : Nat, let t := runEdges k n s
      (∀ r, (t.strand k).ramp = some r → r.left = 0 → t.ineligible k = none → (t.strand k).pend = false →
        exec (.rampStep k n) s = .next (deliver s (runEdges k 1 t))) ∧
      ((t.strand k).ramp = none ∨ (∃ r, (t.strand k).ramp = some r ∧ r.left ≠ 0) ∨ (t.ineligible k).isSome = true ∨ (t.strand k).pend = true →
        exec (.rampStep k n) s = .next (deliver s t))) ∧
    (∀ k : Nat, s.flag (STR_STATUS_RUN k) = true → (s.strand k).slewing = true → exec (.slewStep k) s = .next (deliver s (runEdges k 1 s))) ∧
    (∀ (k n : Nat) (delta k0 : Int), s.moving.contains k = true → let t := runEdges k n s
      let done := fun (u : State) =>
        let v : State := { u with moving := u.moving.filter fun j => j != k }
        Host.Outcome.next (deliver s (settleAll (settleWale (waleOf k) (bindStrand v.planNow k v))))
      ((t.planNow.strand? k = none ∨ baseChanges t.load.old t.planNow k = false) →
        exec (.strandBaseMove k n delta k0) s = done (stopStrand 4 k t)) ∧
      (∀ u, (t.planNow.strand? k).isSome = true → baseChanges t.load.old t.planNow k = true → moveBase k delta k0 t = some u →
        exec (.strandBaseMove k n delta k0) s = done u)) ∧
    (∀ m k j : Nat, ∀ all : Bool, k < 1024 → j < 4 → s.opens m STR_CMD false →
      (1 ≤ m → m ≤ 64 → s.strandBasket k ≠ some (m - 1) →
        exec (.slotClear m k j all) s = .next (deliver s (countForeign m s)) ∧ exec (.recheck m k) s = .next (deliver s (countForeign m s))) ∧
      (m = 0 ∨ m = 65 ∨ s.strandBasket k = some (m - 1) →
        exec (.slotClear m k j all) s = .next (deliver s
          ((s.setStrand k { s.strand k with slots := if all then [{}, {}, {}, {}] else (s.strand k).slots.set j {} }).put STR_CMD_STATUS_DONE 1)) ∧
        exec (.recheck m k) s = .next (deliver s
          ((s.put (WAL_CHECK_NEXT (k / 16)) (if s.get (STR_STATUS_PHYS k) = 17 * (k / 16) + 16 then 16 else k % 16)).put STR_CMD_STATUS_DONE 1)))) ∧
    (∀ m k : Nat, k < 1024 → s.opens m (STR_ACC0 k) false →
      exec (.strAcc0Read m k) s = .next (deliver s (latchStrand k s)) ∧
      (latchStrand k s).reg (STR_ACC0 k) = BitVec.ofInt 32 (s.strand k).e ∧
      (latchStrand k s).reg (STR_ACC1 k) = BitVec.ofInt 32 ((s.strand k).e / 2 ^ 32))

/-- What a residual visit shows, and what its failures and passes mean (R72, R129, R130, R131, R174, R422, R423): A visit passes where the size of its
residuals' mean is at most ten times MEAN_LIM, and their rms about it at most ten times RMS_LIM, in fs at the rim's frequency word. The check TDC
visits the first position from NEXT on that can be visited; a visit with a residual is noted in the strand's registers. A pass ends the run of
failures, clears C_RES and the residual's class B cause, and makes a strand ready that waited for its check after a rebind, and the next position
follows. A failure adds one to the run and the same position is next; at FAILS + 1 failures in a row the strand has its residual fault (NR_RES, C_RES
on its spokes, NOT_READY, the class B fault RES_FAULT, and a splice where that may be) and the next position follows. A visit of the spare that
shadows a strand counts; a failure is that strand's class W fault, with RES_FAIL, and ends the splice. A retry on a strand not ready through its
residual, that runs and is neither STALE nor under calibration, is noted; a pass makes it ready. Where no position can be visited, or a visit has no
residual, nothing happens. -/
def Obligations.ResidualVisits : Prop :=
  ∀ s : State, s.enabled 5 = true →
    (∀ (k : Nat) (l : List Int), let per := l.length * 2 ^ 23 * 1750000000 * s.waleWord (waleOf k)
      (s.visitPasses k l = true ↔ l.sum.natAbs * (10 ^ 15 * 2 ^ 32) ≤ 10 * s.get WAL_CHECK_CFG_MEAN_LIM * per ∧
        (l.length * (l.map fun x => x * x).sum - l.sum * l.sum) * (10 ^ 15 * 2 ^ 32) ^ 2 ≤ ((10 * s.get WAL_CHECK_CFG_RMS_LIM * per : Nat) : Int) ^ 2)) ∧
    (∀ w < 64, ∀ pos < 17, pos = s.posFrom w (s.get (WAL_CHECK_NEXT w)) → s.posVisitable w pos = true → ∀ (j : Nat) (bins : List Nat),
      (∀ k, s.visited w pos = some k → let l := s.residuals k j bins
        let t := noteVisit k l s
        (l = [] → exec (.residualVisitEnd w pos j bins) s = .next s) ∧
        (l ≠ [] → s.visitPasses k l = true → let u := visitPassed k t
          exec (.residualVisitEnd w pos j bins) s = .next (deliver s (settleAll (u.put (WAL_CHECK_NEXT w) (u.nextPos w pos))))) ∧
        (l ≠ [] → s.visitPasses k l = false → let u := t.setStrand k { t.strand k with failRun := (t.strand k).failRun + 1 }
          (u.get WAL_POLICY_FAILS + 1 ≤ (u.strand k).failRun → let v := residualFault k u
            exec (.residualVisitEnd w pos j bins) s = .next (deliver s (settleAll (v.put (WAL_CHECK_NEXT w) (v.nextPos w pos))))) ∧
          ((u.strand k).failRun < u.get WAL_POLICY_FAILS + 1 →
            exec (.residualVisitEnd w pos j bins) s = .next (deliver s (settleAll (u.put (WAL_CHECK_NEXT w) pos)))))) ∧
      (∀ k, s.visited w pos = none → s.shadowed w = some k → let l := s.residuals k j bins
        let t := s.incMod (WAL_CHECK_VISITS w)
        (l ≠ [] → s.visitPasses k l = true → exec (.residualVisitEnd w pos j bins) s = .next (deliver s (settleAll (t.put (WAL_CHECK_NEXT w) (t.nextPos w 16))))) ∧
        (l ≠ [] → s.visitPasses k l = false →
          let u := spliceFail w (raiseW (0x3000 + k) .resVisit (t.strandBasket k) (unsigned 32 (meanFs (s.waleWord w) l)) (t.put (WAL_EVENT_RES_FAIL w) 1))
          exec (.residualVisitEnd w pos j bins) s = .next (deliver s (settleAll (u.put (WAL_CHECK_NEXT w) (u.nextPos w 16))))))) ∧
    (∀ w pos j : Nat, ∀ bins : List Nat, s.posVisitable w pos = false → exec (.residualVisitEnd w pos j bins) s = .next s) ∧
    (∀ k < 1024, s.flag (STR_STATUS_NR_RES k) = true → s.flag (STR_STATUS_RUN k) = true → s.flag (STR_STATUS_STALE k) = false → s.underCal k = false →
      ∀ (j : Nat) (bins : List Nat), let l := s.residuals k j bins
      let t := noteVisit k l s
      (l = [] → exec (.residualRetryVisit k j bins) s = .next s) ∧
      (l ≠ [] → s.visitPasses k l = false → exec (.residualRetryVisit k j bins) s = .next (deliver s (settleAll t))) ∧
      (l ≠ [] → s.visitPasses k l = true →
        exec (.residualRetryVisit k j bins) s = .next (deliver s (settleAll (settleStrand k (setReason STR_STATUS_NR_RES false k (visitPassed k t))))))) ∧
    (∀ k : Nat, let t := s.setStrand k { s.strand k with failRun := 0, awaitVisit := false }
      let u := unparkSpokes SPK_STATUS_C_RES (t.strandSpokes k) t
      let v := match u.strandBasket k with | some b => clearCause (0x3000 + k) .resFault b u | none => u
      let x := setReason STR_STATUS_NR_RIM false k v
      ((s.strand k).awaitVisit = false → visitPassed k s = v) ∧
      ((s.strand k).awaitVisit = true → visitPassed k s = match x.waleRim (waleOf k) with | some n => rimChecksDone n (settleStrand k x) | none => x)) ∧
    (∀ k : Nat, let t := setReason STR_STATUS_NR_RES true k s
      let u := (parkSpokes SPK_STATUS_C_RES (t.strandSpokes k) t).put (WAL_EVENT_NOT_READY (waleOf k)) 1
      let v := raiseFault (0x3000 + k) .resFault ((parkSpokes SPK_STATUS_C_RES (t.strandSpokes k) t).strandBasket k)
        ((parkSpokes SPK_STATUS_C_RES (t.strandSpokes k) t).get (STR_STATUS_PHYS k)) u
      residualFault k s = if v.splicing k then spliceParked k v else if v.flag WAL_POLICY_AUTO_SPLICE then spliceIfFree k v else v)

/-- How a cause parks a spoke, and how the last one to clear releases it (R174, R175, R176, R177, R178): A cause that is set on a spoke is held and the
spoke is PARKED; where it was RUNNING or STOPPED before, the entry is counted in PARKS, which stays at its highest value, and shown in SPK_PARK_EVT. A
cause that is not held changes nothing when it clears. One that is held clears; while another is held nothing more happens; when it was the last, the
spoke is RELEASING where its strand runs; where it does not run, a write that waits takes effect (its PATH and SWING are in force, PEND clears, and a
PATH of PARKED sets C_FW), and then C_STOP is set with STOP_LEVEL; without it a spoke that C_FW holds stays PARKED, and another is STOPPED, with its
bit in SPK_REL_EVT. The cause set on several spokes is set on each in turn. -/
def Obligations.SpokeParking : Prop :=
  (∀ (s : State) (n : Nat) (c : Nat → Fld), let t := (s.put (c n) 1).put (SPK_STATUS_STATE n) 0
    (s.get (SPK_STATUS_STATE n) = 0 ∨ s.get (SPK_STATUS_STATE n) = 3 → parkSpoke c n s = t) ∧
    (s.get (SPK_STATUS_STATE n) = 1 ∨ s.get (SPK_STATUS_STATE n) = 2 →
      parkSpoke c n s = (t.put (SPK_STATUS_PARKS n) (min (t.get (SPK_STATUS_PARKS n) + 1) 255)).put (mapBit SPK_PARK_EVT n) 1)) ∧
  (∀ (s : State) (n : Nat) (c : Nat → Fld), s.flag (c n) = false → unparkSpoke c n s = s) ∧
  (∀ (s : State) (n : Nat) (c : Nat → Fld), s.flag (c n) = true → let t := s.put (c n) 0
    (t.spokeCauses n ≠ 0 → unparkSpoke c n s = t) ∧
    (t.spokeCauses n = 0 → t.spokeRuns n = true → unparkSpoke c n s = t.put (SPK_STATUS_STATE n) 3) ∧
    (t.spokeCauses n = 0 → t.spokeRuns n = false → let u := if t.flag (SPK_STATUS_PEND n) then spokeApply n t else t
      (u.flag (SPK_CFG_STOP_LEVEL n) = true → unparkSpoke c n s = u.put (SPK_STATUS_C_STOP n) 1) ∧
      (u.flag (SPK_CFG_STOP_LEVEL n) = false → u.flag (SPK_STATUS_C_FW n) = true → unparkSpoke c n s = u) ∧
      (u.flag (SPK_CFG_STOP_LEVEL n) = false → u.flag (SPK_STATUS_C_FW n) = false →
        unparkSpoke c n s = (u.put (SPK_STATUS_STATE n) 2).put (mapBit SPK_REL_EVT n) 1))) ∧
  (∀ (s : State) (c : Nat → Fld) (n : Nat) (l : List Nat), parkSpokes c [] s = s ∧ parkSpokes c (n :: l) s = parkSpokes c l (parkSpoke c n s))

/-- A spoke's configuration, its low points, the keeper's force and its release (R171, R174, R176, R177, R178, R185): SPK_CFG with PATH 3 or SWING 15 is
ignored and sets VAL_REJ. Another is stored on the writer's bits; a PATH other than PARKED clears C_FW; where the strand runs, PEND shows whether what
is written differs from what is in force, where a PATH of PARKED is in force with its C_FW; where it does not run, it is in force at once, and on a
routed spoke the stop level follows STOP_LEVEL. At a low point of a running strand, with a change pending and no cause but C_FW held, the change is in
force: PEND clears, and a PATH of PARKED parks the spoke with C_FW. The keeper's force sets or clears C_FORCE on the spoke named or on all 256. A
RELEASING spoke's release takes a pending change first; if it is RELEASING still it RUNS, with its bit in SPK_REL_EVT. -/
def Obligations.SpokeCommands : Prop :=
  ∀ (s : State) (n : Nat), n < 256 →
    (∀ (m : Nat) (v : Word), s.opens m (SPK_CFG n) false →
      (v.toNat / 512 % 4 = 3 ∨ v.toNat / 4096 % 16 = 15 → exec (.spkCfgWrite m n v) s = .next (deliver s (s.put SPK_EVENT_VAL_REJ 1))) ∧
      (v.toNat / 512 % 4 ≠ 3 → v.toNat / 4096 % 16 ≠ 15 →
        let t := storeRw m (SPK_CFG n) v s
        let u := if t.get (SPK_CFG_PATH n) ≠ 0 then unparkSpoke SPK_STATUS_C_FW n t else t
        let now := (u.spoke n).path = u.get (SPK_CFG_PATH n) ∧ (u.spoke n).swing = u.get (SPK_CFG_SWING n) ∧ (u.get (SPK_CFG_PATH n) = 0 → u.flag (SPK_STATUS_C_FW n) = true)
        (u.spokeRuns n = true → now → exec (.spkCfgWrite m n v) s = .next (deliver s (u.put (SPK_STATUS_PEND n) 0))) ∧
        (u.spokeRuns n = true → ¬now → exec (.spkCfgWrite m n v) s = .next (deliver s (u.put (SPK_STATUS_PEND n) 1))) ∧
        (u.spokeRuns n = false → exec (.spkCfgWrite m n v) s = .next (deliver s
          (if u.flag (SPK_CFG_ROUTED n) then spokeLevel n (spokeApply n u) else spokeApply n u))))) ∧
    (s.spokeRuns n = true → s.flag (SPK_STATUS_PEND n) = true → (s.put (SPK_STATUS_C_FW n) 0).reg (SPK_STATUS n) &&& 0xFFF0#32 = 0#32 →
      exec (.lowPointApply n) s = .next (deliver s (spokeApply n s))) ∧
    (let t := (s.setSpoke n ⟨s.get (SPK_CFG_PATH n), s.get (SPK_CFG_SWING n)⟩).put (SPK_STATUS_PEND n) 0
     spokeApply n s = if s.get (SPK_CFG_PATH n) = 0 then parkSpoke SPK_STATUS_C_FW n t else t) ∧
    (∀ m : Nat, s.opens m SPK_FORCE true →
      exec (.spkForcePark m n false) s = .next (deliver s (parkSpoke SPK_STATUS_C_FORCE n s)) ∧
      exec (.spkForcePark m n true) s = .next (deliver s (parkSpokes SPK_STATUS_C_FORCE (List.range 256) s)) ∧
      exec (.spkForceRelease m n false) s = .next (deliver s (unparkSpoke SPK_STATUS_C_FORCE n s)) ∧
      exec (.spkForceRelease m n true) s = .next (deliver s (unparkSpokes SPK_STATUS_C_FORCE (List.range 256) s))) ∧
    (s.get (SPK_STATUS_STATE n) = 3 → let t := if s.flag (SPK_STATUS_PEND n) then spokeApply n s else s
      exec (.spokeRelease n) s = .next (deliver s (if t.get (SPK_STATUS_STATE n) = 3 then
        (t.put (SPK_STATUS_STATE n) 1).put (mapBit SPK_REL_EVT n) 1 else t)))

/-- A reed's commands, the start and the ends of its runs, and its ring's tail (R186, R190, R191, R192, R193, R197, R198, R199, R204, R326): RUN, STOP and
HIST_CLEAR act on a reed of a basket where the writer is not a VF, or is that basket's; a VF's for another reed, or one of no basket, is counted
FOREIGN; another writer's for a reed of no basket sets CMD_REJ. RUN cuts a run in progress, takes the reed's settings, and waits, or starts. A reed
that waits starts when fewer than 512 records are used, clears its histogram where CLR asks for it, and notes the conditions that it meets; otherwise
it waits on. STOP cuts a run in progress, and ends one that waits without a record. HIST_CLEAR needs the reed IDLE. A run ends when its samples are
all there, when its reference strand stops (REF_NR and CUT, each such run in turn) or when RUN_MAX has passed (TIMEOUT). An end adds 1 to HEAD (modulo
1,024) and to SEQ, leaves the reed IDLE and sets its bit in REED_DONE_EVT. A TAIL past HEAD sets VAL_REJ; another is stored, and FULL follows.
REED_CFG with a MODE over 4, an exponent over 16 or a breach of R186 sets VAL_REJ; another is stored, for the next run. -/
def Obligations.ReedRuns : Prop :=
  ∀ (s : State) (n : Nat), n < 256 →
    (∀ m : Nat, s.opens m REED_CMD false →
      let foreign := (s.put (BSK_VIOL_FOREIGN m) (min (s.get (BSK_VIOL_FOREIGN m) + 1) 65535)).put (mapBit BSK_VIOL_EVT m) 1
      (s.flag (REED_CFG_ASSIGNED n) = true → m = 0 ∨ 64 < m ∨ s.get (REED_CFG_BASKET n) + 1 = m →
        exec (.reedRun m n) s = .next (deliver s (reedRequest n s)) ∧
        (∀ d : ReedData, s.get (REED_STATUS_STATE n) = 2 → exec (.reedStop m n d) s = .next (deliver s (reedFinish n true false false d s))) ∧
        (∀ d : ReedData, s.get (REED_STATUS_STATE n) ≠ 2 → exec (.reedStop m n d) s = .next (deliver s (s.put (REED_STATUS_STATE n) 0))) ∧
        (s.get (REED_STATUS_STATE n) = 0 → exec (.histClear m n) s = .next (deliver s (clearHist n s))) ∧
        (s.get (REED_STATUS_STATE n) ≠ 0 → exec (.histClear m n) s = .next (deliver s (s.put REED_EVENT_CMD_REJ 1)))) ∧
      (∀ (d : ReedData) (c : Instr), c ∈ [Instr.reedRun m n, .reedStop m n d, .histClear m n] →
        (s.flag (REED_CFG_ASSIGNED n) = false → m = 0 ∨ 64 < m → exec c s = .next (deliver s (s.put REED_EVENT_CMD_REJ 1))) ∧
        (1 ≤ m → m ≤ 64 → s.flag (REED_CFG_ASSIGNED n) = false ∨ s.get (REED_CFG_BASKET n) + 1 ≠ m → exec c s = .next (deliver s foreign)))) ∧
    (let t := if s.get (REED_STATUS_STATE n) = 2 then reedFinish n true false false s.freeReed.1 s.freeReed.2 else s.put (REED_STATUS_STATE n) 0;
      reedRequest n s = reedTryStart n ((t.setReedRun n
          { cfg := t.reg (REED_CFG n), gate := t.get (REED_GATE_GATE n), winLo := t.reg (REED_WIN n), histLo := t.reg (REED_HIST_LO n),
            runMax := t.get (REED_RUN_MAX_RUN_MAX n) }).put (REED_STATUS_STATE n) 1)) ∧
    (s.get (REED_STATUS_STATE n) = 1 → s.reedUsed n < 512 → let r := s.reedRun n
      let t := s.put (REED_STATUS_STATE n) 2
      let u := if r.cfg.toNat / 64 % 2 = 1 then clearHist n t else t
      exec (.reedRunStart n) s = .next (deliver s (u.setReedRun n { r with conds := [s.refCond n r.cfg], refHop := false }))) ∧
    (512 ≤ s.reedUsed n → exec (.reedRunStart n) s = .next (deliver s s)) ∧
    (∀ d : ReedData, s.get (REED_STATUS_STATE n) = 2 → let c := (s.reedRun n).cfg
      let need := match c.toNat % 8 with | 1 => 2 ^ (c.toNat / 2 ^ 16 % 32) | 2 => 1 | 3 => 1 | 4 => 2 ^ (c.toNat / 2 ^ 16 % 32) | _ => 0
      (need ≤ (s.samples n (s.reedRun n) d).length → exec (.reedRunComplete n d) s = .next (deliver s (reedFinish n false false false d s))) ∧
      exec (.reedRunMaxExpire n d) s = .next (deliver s (reedFinish n false true false d s))) ∧
    (∀ k : Nat, reedsStopped k s = ((s.reeds.filter fun c => reedRef c.1 c.2.cfg == k && s.get (REED_STATUS_STATE c.1) == 2).map (·.1)).foldl
      (fun u j => reedFinish j true false true u.freeReed.1 u.freeReed.2) s) ∧
    (∀ (cut timeout nr : Bool) (d : ReedData), let t := reedFinish n cut timeout nr d s
      t.get (REED_RES_HEAD_HEAD n) = (s.get (REED_RES_HEAD_HEAD n) + 1) % 1024 ∧ t.get (REED_STATUS_SEQ n) = (s.get (REED_STATUS_SEQ n) + 1) % 65536 ∧
        t.get (REED_STATUS_STATE n) = 0 ∧ t.get (mapBit REED_DONE_EVT n) = 1) ∧
    (∀ (m : Nat) (v : Word), s.opens m (REED_RES_TAIL n) false →
      let past := s.reedUsed n < (v.toNat % 1024 + 1024 - s.get (REED_RES_TAIL_TAIL n)) % 1024
      (past → exec (.reedResTailWrite m n v) s = .next (deliver s (s.put REED_EVENT_VAL_REJ 1))) ∧
      (¬past → let t := storeRw m (REED_RES_TAIL n) v s
        exec (.reedResTailWrite m n v) s = .next (deliver s (t.put (REED_STATUS_FULL n) (if t.reedUsed n = 512 then 1 else 0))))) ∧
    (∀ (m : Nat) (v : Word), s.opens m (REED_CFG n) false →
      let bad := 4 < v.toNat % 8 ∨ 16 < v.toNat / 65536 % 32 ∨ s.reedCfgOk n v = false
      (bad → exec (.reedCfgWrite m n v) s = .next (deliver s (s.put REED_EVENT_VAL_REJ 1))) ∧
      (¬bad → exec (.reedCfgWrite m n v) s = .next (deliver s (storeRw m (REED_CFG n) v s))))

/-- The stages of a strand's calibration: its check TDC, its cell sweeps and the handovers of roles (R208, R209, R211, R212, R213, R214, R221, R222): Unit
w, not paused, runs a strand. The check TDC stage counts 1,024 bins of 2^22 conversions. It passes where each counts 1,024 to 16,384: the widths are
stored, the table is marked with the moment, the word and the temperature, and the sweeps begin; otherwise the run is rejected with CHECK 0x01 and the
unit goes on. A sweep has 128 times 256 firings twice and 4,096 times 256, at each of which the LFSR steps, and covers the RELIEF cell of a strand
that rotates, else cell k. Values that fail a check reject the run: STALE clears at the next boundary, or at once without rotation. Values that pass
are loaded, and a rotating strand waits for its boundary; without rotation the next cell follows, and the third ends the run accepted. At a boundary
the first swept cell takes MAIN, the second COMP, the displaced cell becoming RELIEF; after the third the run is accepted. No check fails exactly
where GAIN is 16 to 1007 and, of a cell that is not DEFAULT, within 100 of the previous value unless the word moved by more than 5 percent from that
at which that was taken, OFFSET is -120 to 120, every breakpoint is in range, and the exact rms and peak are in bounds. -/
def Obligations.StrandCalibration : Prop :=
  ∀ (s : State) (w : Nat) (r : CalRun), w < 64 → (s.unit w).run = some r →
    let stay := fun (r' : CalRun) (t : State) => setUnit w { (t.unit w) with run := some r' } t
    (r.stage = .tdc → s.unitPaused w = false → ∀ bins : List Nat, bins.length = 1024 → bins.sum = 2 ^ 22 →
      ((∀ n ∈ bins, 1024 ≤ n ∧ n ≤ 16384) →
        let t := eachDo bins.zipIdx (fun p u => u.mput ⟨0x0421A000 + 0x800 * w + 4 * (p.2 / 2), 16 * (p.2 % 2), 16⟩ (p.1 / 64)) s
        let d : TdcTable := { taken := some s.elapsed, word := s.waleWord w, tj := s.tj (w / 16), bins := bins }
        exec (.calTdcStageEnd w bins) s = .next (deliver s (settleAll (beginSweeps w r { t with tdc := tabSet (fun _ => {}) t.tdc w d })))) ∧
      (¬(∀ n ∈ bins, 1024 ≤ n ∧ n ≤ 16384) → exec (.calTdcStageEnd w bins) s = .next (deliver s (settleAll (unitDone w (calReject w r 0x01 s)))))) ∧
    (∀ (k : Nat) (m : CellSweep), r.stage = .sweep k → s.unitPaused w = false → m.passA.length = 128 * 256 → m.passB.length = 128 * 256 → m.pass2.length = 4096 * 256 →
      let a := cellAt r.phys (if r.rotates then s.mget (roleRelief r.phys) else k)
      let v := cellValue (s.waleWord w) (s.mget (cellGain a)) (signed 8 (s.mget (cellOffset a))) (sweepSums (s.tdcBins w) m)
      exec (.calCellSweepEnd w m) s = .next (deliver s (settleAll (cellSwept w r k v (lfsrRun w (4352 * 256) s))))) ∧
    (∀ (k : Nat) (v : CellValue), let c := if r.rotates then s.mget (roleRelief r.phys) else k
      (∀ x, s.cellCheck r.phys c (s.waleWord w) v = some x → cellSwept w r k v s =
        if r.rotates then stay { r with stage := .clearing false } (calReject w r x s) else spliceCalDone w false (endStrandRun w r (calReject w r x s))) ∧
      (s.cellCheck r.phys c (s.waleWord w) v = none → let t := loadCell r.phys c (s.waleWord w) v s
        cellSwept w r k v s = if r.rotates then stay { r with stage := .handover k } t else if k < 2 then stay { r with stage := .sweep (k + 1) } t
          else spliceCalDone w true (endStrandRun w r (strandAccept w r t)))) ∧
    (∀ (p c word : Nat) (v : CellValue), s.cellCheck p c word v = none ↔
        (16 ≤ v.gain ∧ v.gain ≤ 1007 ∧ (s.mget (cellState (cellAt p c)) = 0 ∨ movedFive word (s.cellWord p c) = true ∨ (v.gain - s.mget (cellGain (cellAt p c))).natAbs ≤ 100)) ∧
        (-120 ≤ v.offset ∧ v.offset ≤ 120) ∧ (∀ x ∈ v.eps, (x.natAbs : Int) ≤ 120 * 2 ^ 23) ∧ v.rmsOk = true ∧ v.peakOk = true) ∧
    (let swap := fun (f : Fld) => cellsChanged r.phys ((s.mput f (s.mget (roleRelief r.phys))).mput (roleRelief r.phys) (s.mget f));
      (r.stage = .handover 0 → exec (.calCellHandover w) s = .next (deliver s (settleAll (stay { r with stage := .sweep 1 } (swap (roleMain r.phys)))))) ∧
      (r.stage = .handover 1 → exec (.calCellHandover w) s = .next (deliver s (settleAll (stay { r with stage := .sweep 2 } (swap (roleComp r.phys)))))) ∧
      (r.stage = .handover 2 → exec (.calCellHandover w) s = .next (deliver s (settleAll (endStrandRun w r (strandAccept w r s))))) ∧
      (∀ ok, r.stage = .clearing ok → exec (.calCellHandover w) s = .next (deliver s (settleAll (endStrandRun w r s)))))

/-- The stages of a reed's calibration: its code density and its cross-measurement (R208, R216, R221, R222, R223): Unit 64 + q, not paused, runs reed n.
Code density counts 2,048 bins of 2^23 samples and passes where each counts 1,024 to 16,384; else the run is rejected with CHECK 0x07 and the reed's
CAL_RUN clears. If the reference strand does not run or is not ready then, the run is ABANDONED with cause 0x26. Otherwise the nonlinearity is
computed and cross-measurement begins. It ends with 4,096 arrivals in each direction; the offset is half the sum of their two means in fs, rounded
away from zero, less the quadrant's constant. An offset over 20 ps, or more than 1 ps from a previous one, rejects the run with CHECK 0x08; an exact
NL_RMS over 20 fs or NL_PEAK over 50 fs with 0x09. Otherwise the record takes the header, the rim word, the offset, NL_RMS, NL_PEAK, the quality and
the breakpoints, CAL_VALID is set, CAL_RUN clears and the unit goes on. -/
def Obligations.ReedCalibration : Prop :=
  ∀ (s : State) (q : Nat) (r : CalRun), q < 4 → (s.unit (64 + q)).run = some r → s.unitPaused (64 + q) = false →
    let u := 64 + q
    let n := r.target
    let a := 0x0423A000 + 128 * n
    let k := reedRef n (s.reg (REED_CFG n))
    let word := s.waleWord (waleOf k)
    let fin := fun (t : State) => unitDone u (t.put (REED_STATUS_CAL_RUN n) 0)
    (∀ (bins : List Nat) (east west : ReedData), r.stage = .density → bins.length = 2048 → bins.sum = 2 ^ 23 →
      let good := ∀ x ∈ bins, 1024 ≤ x ∧ x ≤ 16384
      let able := s.flag (STR_STATUS_RUN k) = true ∧ s.flag (STR_STATUS_READY k) = true
      (¬good → exec (.calReedStageEnd q bins east west) s = .next (deliver s (settleAll (fin (calReject u r 0x07 s))))) ∧
      (good → ¬able → exec (.calReedStageEnd q bins east west) s = .next (deliver s (settleAll (unitSelect u (calAbandon 0x26 u s))))) ∧
      (good → able → exec (.calReedStageEnd q bins east west) s =
        .next (deliver s (settleAll (setUnit u { (s.unit u) with run := some { r with stage := .cross, nl := reedNl word bins } } s))))) ∧
    (∀ (bins : List Nat) (east west : ReedData), r.stage = .cross →
      let ae := s.crossSamples n r.nl.bp east
      let aw := s.crossSamples n r.nl.bp west
      exec (.calReedStageEnd q bins east west) s =
        if ae.length = 4096 ∧ aw.length = 4096 then .next (deliver s (settleAll (crossEnd u q r
          (roundAway ((ae.sum + aw.sum) * (10 ^ 15 * 2 ^ 32)) (2 * 4096 * 65536 * 1750000000 * word) - Config.quadrantConst q) s)))
        else .next s) ∧
    (∀ off : Int,
      let far := 20000 < off.natAbs ∨ (s.mget (recState a) ≠ 0 ∧ 1000 < (off - signed 32 (s.mget ⟨a + 24, 0, 32⟩)).natAbs)
      (far → crossEnd u q r off s = fin (calReject u r 0x08 s)) ∧
      (¬far → r.nl.ok = false → crossEnd u q r off s = fin (calReject u r 0x09 s)) ∧
      (¬far → r.nl.ok = true →
        let t := ((acceptHeader a q s).mput ⟨a + 16, 0, 32⟩ word).mput ⟨a + 20, 0, 4⟩ (word / 2 ^ 32)
        let t := (((t.mput ⟨a + 24, 0, 32⟩ (unsigned 32 off)).mput ⟨a + 28, 0, 16⟩ r.nl.rms).mput ⟨a + 28, 16, 16⟩ r.nl.peak).mput ⟨a + 12, 0, 16⟩ r.nl.rms
        crossEnd u q r off s = fin
          ((eachDo r.nl.bp.zipIdx (fun p v => v.mput ⟨a + 32 + 4 * (p.2 / 2), 16 * (p.2 % 2), 16⟩ (unsigned 16 p.1)) t).put (REED_STATUS_CAL_VALID n) 1)))

/-- The ends of a rim's sweep, of its margin measurement, and of a warp or weft lane's eyes and taps (R208, R218, R219, R220, R221, R222, R226, R228,
R232): A unit that is not paused goes on. A band fails its check where LO is not below HI, or where it does not rise above the band below or overlap
it by 20 MHz. A sweep with the hearth LOCKED that brings other than 64 bands or more than one failing band is rejected with 0x0A, one whose bands do
not cover the words of R67 with 0x0B; otherwise the bands are stored, a failing one UNUSABLE (DEDUCED, log entry 25), and the record takes its header.
A margin measurement of a LOCKED rim stores the lesser distance of the code from its ends, and LOCK_WIN less the peak. A lane's first eye is stored
and the taps begin; each tap's metric, the sum at four points, moves the taps as tapStep says, and the lane takes them. The second eye is rejected
with 0x0C where it is narrower than 16 or lower than 20, and with 0x0D where it has lost more than 2 in width or 6 in height, and the lane's taps
return; otherwise taps, eye and rate are stored, and the reference eye where it was none or the rate differs; an eye that has closed by more than a
wear threshold sets WEAR, and raises class W when it was not set. -/
def Obligations.RimAndLaneCalibration : Prop :=
  ∀ s : State,
    (∀ (l : List (Nat × Nat)) (b : Nat), let x := l.getD b (0, 0); let y := l.getD (b - 1) (0, 0)
      (bandFails l b = true ↔ x.2 ≤ x.1 ∨ (b ≠ 0 ∧ (x.1 ≤ y.1 ∨ 1750 * ((y.2 : Int) - x.1) < 20 * 2 ^ 32)))) ∧
    (∀ (r : CalRun) (bands : List (Nat × Nat)), (s.unit 68).run = some r → r.stage = .bands → s.get HRT_STATUS_STATE = 1 → s.unitPaused 68 = false →
      let bad := (List.range 64).filter (bandFails bands)
      let good := (List.range 64).filterMap fun b => if bad.contains b then none else some (bands.getD b (0, 0))
      (bands.length ≠ 64 ∨ 1 < bad.length → exec (.calRimSweepEnd bands) s = .next (deliver s (settleAll (unitDone 68 (calReject 68 r 0x0A s))))) ∧
      (bands.length = 64 → bad.length ≤ 1 → bandsCover good = false →
        exec (.calRimSweepEnd bands) s = .next (deliver s (settleAll (unitDone 68 (calReject 68 r 0x0B s))))) ∧
      (bands.length = 64 → bad.length ≤ 1 → bandsCover good = true → exec (.calRimSweepEnd bands) s = .next (deliver s (settleAll (unitDone 68
        (acceptHeader (0x04242000 + 1088 * r.target) 13 (eachDo (List.range 64) (fun b u => let x := bands.getD b (0, 0); putBand r.target b x.1 x.2 (if bad.contains b then 3 else 2) u) s))))))) ∧
    (∀ (r : CalRun) (n code peak : Nat), (s.unit 68).run = some r → r.stage = .margin → s.logicalRim r.target = some n → s.get (RIM_STATUS_STATE n) = 2 →
      s.unitPaused 68 = false → let a := 0x04242000 + 1088 * r.target
      exec (.calRimMarginEnd code peak) s = .next (deliver s (settleAll (unitDone 68
        (((acceptHeader a 13 s).mput ⟨a + 12, 0, 12⟩ (min code (4095 - code))).mput ⟨a + 12, 12, 8⟩ (s.get (RIM_CTRL_LOCK_WIN n) - peak)))))) ∧
    (∀ (p : Nat) (e : EyeScan) (m : List Nat) (hit : Bool) (r : CalRun), (s.unit (128 + p)).run = some r → s.unitPaused (128 + p) = false →
      let u := 128 + p; let a := 0x04248000 + 64 * p; let w := eyeWidth e; let h := eyeHeight e
      let taps := fun (l : List Int) (t : State) => t.setLane p { (t.lane p) with taps := l }
      let go := fun (x : TapRun) (st : CalStage) (t : State) => taps x.taps (setUnit u { (t.unit u) with run := some { r with tap := x, stage := st } } t)
      (r.stage = .eyeBefore → exec (.calLaneStepEnd p e m hit) s = .next (deliver s (settleAll
        (go { r.tap with eyeW := w, eyeH := h, i := 0 } .tapHere ((s.mput ⟨a + 28, 0, 8⟩ w).mput ⟨a + 28, 8, 16⟩ h))))) ∧
      (r.stage = .tapHere ∨ r.stage = .tapUp ∨ r.stage = .tapDown ∨ r.stage = .tapOn → let x := tapStep r.tap r.stage (m.take 4).sum hit
        exec (.calLaneStepEnd p e m hit) s = .next (deliver s (settleAll (go x.1 x.2 s)))) ∧
      (r.stage = .eyeAfter →
        exec (.calLaneStepEnd p e m hit) s = .next (deliver s (settleAll (eyeAfterEnd u p r w h s))))) ∧
    (∀ (p w h : Nat) (r : CalRun), let u := 128 + p; let a := 0x04248000 + 64 * p
      let back := s.setLane p { (s.lane p) with taps := r.tap.before }
      (w < 16 ∨ h < 20 → eyeAfterEnd u p r w h s = unitDone u (calReject u r 0x0C back)) ∧
      (16 ≤ w → 20 ≤ h → w + 2 < r.tap.eyeW ∨ h + 6 < r.tap.eyeH → eyeAfterEnd u p r w h s = unitDone u (calReject u r 0x0D back)) ∧
      (16 ≤ w → 20 ≤ h → r.tap.eyeW ≤ w + 2 → r.tap.eyeH ≤ h + 6 →
        let t := putTaps p r.tap.taps (acceptHeader a (sensorOf u p) s)
        let rate := t.get (LANE_STATUS_RATE p)
        let first := t.mget ⟨a + 32, 0, 24⟩ = 0 ∨ t.mget ⟨a + 16, 8, 2⟩ ≠ rate
        let t := ((t.mput ⟨a + 16, 8, 2⟩ rate).mput ⟨a + 12, 0, 8⟩ w).mput ⟨a + 12, 8, 16⟩ h
        let t := if first then (t.mput ⟨a + 32, 0, 8⟩ w).mput ⟨a + 32, 8, 16⟩ h else t
        let dw := t.mget ⟨a + 32, 0, 8⟩ - w
        let dh := t.mget ⟨a + 32, 8, 16⟩ - h
        let worn := (t.wear.eyeW ≠ 0 ∧ t.wear.eyeW < dw) ∨ (t.wear.eyeH ≠ 0 ∧ t.wear.eyeH < dh)
        let v := t.mput ⟨a + 4, 20, 1⟩ (if worn then 1 else 0)
        eyeAfterEnd u p r w h s = unitDone u
          (if worn ∧ t.mget ⟨a + 4, 20, 1⟩ ≠ 1 then raiseW (srcLane p) .eyeWear (v.calBasket u p) (dw + 256 * dh) v else v)))

/-- The pause limit, the operating minutes, a moved temperature, and the NVM writer (R208, R222, R223, R224, R226, R230, R231, R307, R417): A unit paused
for 100 ms (its run stands at pace level 2 or 3) ends ABANDONED with cause 0x21 and takes its next target. A minute adds 1 to OPTIME (32 bits), and
every record with values that have reached 43,200 minutes and are not aged yet is rechecked. A sensor's reading is stored, MAX rises to it, and every
record is rechecked. Of a record that is not DEFAULT (of another kind than a strand's) EXP_TJ shows whether Tj differs by more than 10 degrees from
its own, EXP_FREQ whether a reed's word moved by more than 5 percent, EXP_AGE whether it is aged, and stays; it is EXPIRED with any of them and VALID
with none, and a reed's CAL_VALID is set; an entry into EXPIRED raises class W. A strand's record with values takes the same bits where a run was
accepted, and its cells follow, each by its own conditions; a cell's entry into EXPIRED raises class W. When the NVM writer ends a write the header
and body, CHECK and COMMIT are programmed, which makes the slot valid: a calibration group's unchanged records are marked STORED and its unit idles;
the repair map's SEQ is shown, with PENDING where it has changed since; a boot plan's storing ends. -/
def Obligations.CalibrationAges : Prop :=
  ∀ s : State,
    (∀ u : Nat, (s.unit u).run.isSome = true → s.unitPaused u = true →
      exec (.calPauseTimeout u) s = .next (deliver s (settleAll (unitSelect u (calAbandon 0x21 u s))))) ∧
    (let t := s.put BIST_OPTIME_MINUTES (s.get BIST_OPTIME_MINUTES + 1)
     let now := t.get BIST_OPTIME_MINUTES
     let aged := allRecords.filter fun e => (t.mget (recState e.1) != 0 && t.mget (recExpAge e.1) == 0 && decide (t.mget (recOptime e.1) + 43200 ≤ now)) ||
       (e.2.1 == 1 && (List.range 3).any fun k => match t.cellCalOf (17 * e.2.2.1 + e.2.2.2) k with | some c => decide (c.optime + 43200 ≤ now) | none => false)
     exec .optimeMinute s = .next (deliver s (settleAll (eachDo aged recheckRecord t)))) ∧
    (∀ j : NvmJob, s.nvmRun = some j →
      exec .nvmWriteComplete s = .next (deliver s (settleAll (if j.group = 5 ∧ (nvmCommit j s).loadState = 4 then bootStored (nvmCommit j s) else nvmCommit j s))) ∧
      (let x := ((((s.slot j.group j.slot).program j.body).programCheck j.group).programCommit)
       let t := { s.setSlot j.group j.slot x with nvmRun := none }
       (j.body.tag.toNat % 256 = j.group → lengthOk j.group j.body.len.toNat = true → x.valid j.group = true) ∧
       (1 ≤ j.group → j.group ≤ 4 → nvmCommit j s = unitIdle 69 (markStored j.group j.body.cells t)) ∧
       (j.group = 7 → nvmCommit j s =
        ((t.put BIST_MAP_STATUS_PENDING (if t.nvmQueue.contains 7 ∨ j.body.cells ≠ t.mapBody then 1 else 0)).put BIST_EVENT_MAP_STORED 1).put BIST_MAP_STATUS_SEQ j.body.seq.toNat))) ∧
    (∀ (i : Nat) (tj : Int), i < 16 → let t := s.put (PWR_TEMP_TJ i) (unsigned 12 tj)
      let v := if signed 12 (t.get (PWR_TEMP_MAX i)) < tj then t.put (PWR_TEMP_MAX i) (unsigned 12 tj) else t
      exec (.calConditionChange i tj) s = .next (deliver s (settleAll (eachDo allRecords recheckRecord v)))) ∧
    (∀ a kind u x : Nat,
      let hot := 100 < (s.tj (sensorOf u x) - signed 16 (s.mget (recTj a))).natAbs
      let word := s.calWord u x
      let moved := kind ≤ 2 ∧ word ≠ 0 ∧ movedFive word (s.mget (recFreqN a) * 2 ^ 32 + s.mget (recFreqF a)) = true
      let aged := s.mget (recOptime a) + 43200 ≤ s.get BIST_OPTIME_MINUTES ∨ s.mget (recExpAge a) = 1
      let t := ((s.mput (recExpTj a) (if hot then 1 else 0)).mput (recExpFreq a) (if moved then 1 else 0)).mput (recExpAge a) (if aged then 1 else 0)
      let bad : Bool := decide (hot ∨ moved ∨ aged)
      (recheckBits (a, kind, u, x) s = (bad, t)) ∧
      (kind ≠ 1 → s.mget (recState a) = 0 → recheckRecord (a, kind, u, x) s = s) ∧
      (kind ≠ 1 → s.mget (recState a) ≠ 0 → let v := t.mput (recState a) (if bad then 2 else 1)
        let v := if kind = 2 then v.put (REED_STATUS_CAL_VALID x) 1 else v
        recheckRecord (a, kind, u, x) s =
          if s.mget (recState a) = 1 ∧ v.mget (recState a) = 2 then raiseW (srcCal u) .calExpired (v.calBasket u x) kind v else v) ∧
      (kind = 1 → let cells := fun (y : State) (k : Nat) => y.mget (cellState (a + 24 + 24 * k))
        (s.mget (recState a) = 0 → (∀ k < 3, cells s k = 0) → recheckRecord (a, kind, u, x) s = s) ∧
        (s.mget (recState a) ≠ 0 ∨ (∃ k < 3, cells s k ≠ 0) →
          let v := if s.mget (recSeq a) = 0 then recheckCells (a, kind, u, x) false s else recheckCells (a, kind, u, x) bad t
          recheckRecord (a, kind, u, x) s =
            if (List.range 3).any (fun k => cells s k == 1 && cells v k == 2) then raiseW (srcCal u) .calExpired (v.calBasket u x) kind v else v)))

/-- Doorbells, credits that leave, capacity and its reservations, and the peaks (R237, R241, R248, R251, R252, R258, R264): A doorbell for a ring that is
not a host or completion ring of the writer's basket sets DB_REJ and counts FOREIGN. An index further ahead than the ring allows (free entries of a
host ring, used ones of a completion ring) sets DB_OVER and counts it in the basket's DB_OVER. Another moves PROD of a host ring, whose sender is
noted, or CONS of a completion ring. Owed credits leave on an ACTIVE source's lane: OWED is 0, HELD grows by as many. The capacity, 64 times the
slowest rate measured, is published in tens of M profiles/s; where the reservations in force exceed it, BULK and MAINT are withdrawn at once, then
TIMED ones one by one, the lowest PRIO first and the higher number among equals, while they exceed it. The step withdrawn last is restored where 105
percent of the total with it fits; otherwise nothing changes. A write of a peak register sets the peak to the slots held. -/
def Obligations.DoorbellsCreditsCapacity : Prop :=
  ∀ s : State,
    (∀ (m : Nat) (v : Word), s.opens m RING_DB false →
      let r := v.toNat % 32768
      let i := v.toNat / 32768 % 131072
      let b := s.get (RING_DESC1_BASKET r)
      let kind := s.get (RING_DESC1_KIND r)
      let mine := (kind = 1 ∨ kind = 3) ∧ (m = 0 ∨ m = b + 1)
      let room := if kind = 1 then s.ringDepth r - s.ringUsed r else s.ringUsed r
      let cur := if kind = 1 then s.get (RING_PROD_IDX r) else s.get (RING_CONS_IDX r)
      (¬mine → exec (.ringDoorbell m v) s = .next (deliver s (countForeign m (s.put (RING_EVENT_DB_REJ (copyOf m)) 1)))) ∧
      (mine → room < (i + 2 ^ 17 - cur) % 2 ^ 17 →
        exec (.ringDoorbell m v) s = .next (deliver s ((s.put (RING_EVENT_DB_OVER (copyOf m)) 1).incSat (RING_BSK_CNT1_DB_OVER b)))) ∧
      (mine → (i + 2 ^ 17 - cur) % 2 ^ 17 ≤ room → kind = 1 →
        exec (.ringDoorbell m v) s = .next (deliver s { s.put (RING_PROD_IDX r) i with dbFrom := tabSet (fun _ => 0) s.dbFrom r m })) ∧
      (mine → (i + 2 ^ 17 - cur) % 2 ^ 17 ≤ room → kind = 3 → exec (.ringDoorbell m v) s = .next (deliver s (s.put (RING_CONS_IDX r) i)))) ∧
    (∀ r j : Nat, j < 6 → let f := s.get (RING_SRC_SRC r j); let k := s.get (RING_SRC_OUT_OWED r j)
      (k ≠ 0 → s.sourceActive f = true → exec (.creditSend r j) s = .next (deliver s (sendFrame (s.sourceLane f)
        (.credit k (s.get (RING_DESC1_CLASS r)) (s.get (RING_DESC1_BASKET r)) (s.get TAL_STATUS_CHAIN_POS))
        ((s.put (RING_SRC_OUT_OWED r j) 0).put (RING_SRC_OUT_HELD r j) (s.get (RING_SRC_OUT_HELD r j) + k))))) ∧
      (k = 0 ∨ s.sourceActive f = false → exec (.creditSend r j) s = .next (deliver s s))) ∧
    (∀ (x : Nat) (l : List Nat), let c := 64 * l.foldl min x
      let t := { s with cap := c }.put RING_CAP_CAP (min (c / 10000) 65535)
      exec (.capacityMeasure (x :: l)) s = .next (deliver s (settleAll (withdrawMore 64
        (if c < 1000 * t.resTotal ∧ t.flag RING_CAP_BM = false ∧ t.bmBaskets ≠ [] then withdrawBm t else t))))) ∧
    (∀ n : Nat, (1000 * s.resTotal ≤ s.cap → withdrawMore (n + 1) s = s) ∧
      (s.cap < 1000 * s.resTotal → withdrawMore (n + 1) s = match s.nextTmd with | some b => withdrawMore n (withdrawTmd b s) | none => s)) ∧
    (∀ b : Nat, s.nextTmd = some b → b < 64 ∧ s.flag (mapBit RING_DEG_MAP b) = false ∧ s.get (RING_BSK_RES0_RES_TMD b) ≠ 0 ∧
      ∀ d < 64, s.flag (mapBit RING_DEG_MAP d) = false → s.get (RING_BSK_RES0_RES_TMD d) ≠ 0 → s.get (RING_BSK_CFG_PRIO b) ≤ s.get (RING_BSK_CFG_PRIO d)) ∧
    (∀ w l, s.withdrawn = w :: l →
      let step := if w = 64 then ((List.range 64).map fun b => s.get (RING_BSK_RES1_RES_BLK b) + s.get (RING_BSK_RES1_RES_MNT b)).sum else s.get (RING_BSK_RES0_RES_TMD w)
      let t := { s with withdrawn := l }.put (RING_EVENT_DEG_DOWN 0) 1
      (105 * 1000 * (s.resTotal + step) ≤ 100 * s.cap → w ≠ 64 → exec .reservationRestore s =
        .next (deliver s (settleAll (raiseFault (srcRing w) .resRestored (some w) 1 (countDeg (t.put (mapBit RING_DEG_MAP w) 0)))))) ∧
      (105 * 1000 * (s.resTotal + step) ≤ 100 * s.cap → w = 64 → exec .reservationRestore s =
        .next (deliver s (settleAll (eachDo t.bmBaskets (fun b u => raiseFault (srcRing b) .resRestored (some b) 0x102 u) (t.put RING_CAP_BM 0))))) ∧
      (100 * s.cap < 105 * 1000 * (s.resTotal + step) → exec .reservationRestore s = .next s)) ∧
    (∀ m b : Nat, b < 64 → s.opens m (RING_BSK_PEAK b) false →
      exec (.armPeakWrite m (some b)) s = .next (deliver s (s.put (RING_BSK_PEAK_PEAK b) (s.get (RING_BSK_ARM_HELD b))))) ∧
    (∀ m : Nat, s.opens m RING_ARM_TOTAL true →
      exec (.armPeakWrite m none) s = .next (deliver s (s.put RING_ARM_TOTAL_PEAK (s.get RING_ARM_TOTAL_HELD))))

/-- A lane's way from DETECT to ACTIVE (R93, R208, R241, R265, R268, R271, R272, R273, R274, R275, R276, R282): Training sets (on their second identical
copy, the first being noted) detected on a lane in DETECT give it their ID16 and RATES; a warp lane, a chain lane whose warp lane is ACTIVE, and a
weft lane of an offer already begun train at once unless a refusal holds them; the others wait. BOND_WAIT's end trains all lanes of the offer that
wait and are not held. A lane trains at the highest common rate, sending training sets. READY sent takes it to ALIGN with new taps, clears FAILED and
sends ALN 0. TRAIN_MAX without READY takes the next lower common rate; with none, the lane is down, FAILED and counted, and its offer may be decided.
The measurements of ALIGN are stored, the far end's marker is returned, and the lane offers its capability in NEGOTIATE. A capability received on a
warp lane is an agreement where bit 31 says so; on a chain lane the hub decides; on a weft lane once the offer is complete. An echoed agreement (on a
warp lane the hub sends the echo) puts its rate, FEC and position in force; a warp or chain lane is ACTIVE, a warp lane granted credits; a weft lane
takes its handle, shows its partner, and is sent ENUM. The last ENUM echo (second copy) makes the bond ACTIVE: the partner is present, counted, and
granted credits. -/
def Obligations.LaneBringUp : Prop :=
  ∀ (s : State) (p : Nat), p < 108 →
    (∀ id rates : Nat, s.get (LANE_STATUS_PHASE p) = 0 →
      let begun := (s.offerLanes id).any fun q => q != p && s.get (LANE_STATUS_PHASE q) != 0
      let atOnce := p < 2 ∨ (p < 4 ∧ s.get (LANE_STATUS_PHASE (p - 2)) = 5) ∨ (4 ≤ p ∧ begun = true)
      let t := s.setLane p { (s.lane p) with id16 := some id, rates := rates }
      ((s.lane p).heard ≠ some (.ts id rates) →
        exec (.laneDetect p id rates) s = .next (deliver s (s.setLane p { (s.lane p) with heard := some (.ts id rates) }))) ∧
      ((s.lane p).heard = some (.ts id rates) →
        exec (.laneDetect p id rates) s = .next (deliver s (if atOnce ∧ (s.lane p).hold = false then enterTrain p t else t)))) ∧
    (∀ c, s.commonRate p (s.lane p).rates (s.lane p).limit = some c → enterTrain p s = sendTs p false ((s.put (LANE_STATUS_PHASE p) 1).put (LANE_STATUS_RATE p) c)) ∧
    (∀ id : Nat, exec (.bondWaitExpire id) s = .next (deliver s (eachDo (s.offerDetected id) enterTrain s)) ∧
      ∀ q, q ∈ s.offerDetected id ↔ q < 108 ∧ 4 ≤ q ∧ (s.lane q).id16 = some id ∧ s.get (LANE_STATUS_PHASE q) = 0 ∧ (s.lane q).hold = false) ∧
    (s.get (LANE_STATUS_PHASE p) = 1 →
      exec (.trainReady p) s = .next (deliver s (((trainTaps p ((sendTs p true s).put (LANE_STATUS_FAILED p) 0)).put (LANE_STATUS_PHASE p) 2).emit (.aln p 0 false))) ∧
      (∀ c, s.commonRate p (s.lane p).rates (s.get (LANE_STATUS_RATE p) + 1) = some c →
        exec (.trainMaxExpire p) s = .next (deliver s (sendTs p false (s.put (LANE_STATUS_RATE p) c)))) ∧
      (s.commonRate p (s.lane p).rates (s.get (LANE_STATUS_RATE p) + 1) = none →
        let t := ((laneDown p s).put (LANE_STATUS_FAILED p) 1).incSat (LANE_CNT0_TRAIN_FAIL p)
        exec (.trainMaxExpire p) s = .next (deliver s (match (s.lane p).id16 with | some id => if 4 ≤ p then tryDecide id t else t | none => t)))) ∧
    (∀ rtt tx rx aseq : Nat, s.get (LANE_STATUS_PHASE p) = 2 →
      let w := fun n => BitVec.ofNat 32 n
      let t := ((s.setReg (LANE_RTT p) (w rtt)).setReg (LANE_TXLAT p) (w tx)).setReg (LANE_RXLAT p) (w rx)
      exec (.alignComplete p rtt tx rx aseq) s = .next (deliver s (((t.put (LANE_STATUS_PHASE p) 3).emit (.aln p aseq true)).emit (.cap p (t.offerWord p) t.identWord)))) ∧
    (s.get (LANE_STATUS_PHASE p) = 3 →
      (∀ d1 d2 : Nat, (s.lane p).agreed = none → let t := s.setLane p { (s.lane p) with cap := some (d1, d2) }
        (p < 2 → d1 / 2 ^ 31 % 2 = 1 → exec (.capReceive p d1 d2) s = .next (deliver s (t.setLane p { (t.lane p) with agreed := some (agreementOf p d1) }))) ∧
        (2 ≤ p → p < 4 → exec (.capReceive p d1 d2) s = .next (deliver s (decideChain p d1 t))) ∧
        (∀ id, 4 ≤ p → (t.lane p).id16 = some id → exec (.capReceive p d1 d2) s = .next (deliver s (tryDecide id t)))) ∧
      (∀ g : Agreement, (s.lane p).agreed = some g → let caps := ((s.lane p).cap).getD (0, 0)
        let s' := if p < 2 then s.emit (.cap p caps.1 s.identWord) else s
        let t := ((s'.put (LANE_STATUS_RATE p) g.rate).put (LANE_STATUS_FEC p) (if g.fec then 1 else 0)).put (LANE_STATUS_BOND_POS p) g.pos
        (p < 4 → exec (.agreedEcho p) s = .next (deliver s
          (if p < 2 then grantCredits (0xF0 + p) (linkUp p (caps.1 / 2 ^ 32 % 2 ^ 16) t) else linkUp p (caps.1 / 2 ^ 32 % 2 ^ 16) t))) ∧
        (4 ≤ p →
          let u := (t.put (LANE_STATUS_HANDLE p) g.handle).put (LANE_STATUS_SUBST p) (if g.subst = true ∧ p = s.groupSpare g.handle then 1 else 0)
          let v := showPartner g.handle g caps.2 (u.put (LANE_STATUS_PHASE p) 4)
          exec (.agreedEcho p) s = .next (deliver s (v.emit (.enum p g.handle ((v.handleBasket g.handle).getD 0) (v.get TAL_STATUS_CHAIN_POS) (v.get TAL_CTRL_BEAT_EXP))))))) ∧
    (s.get (LANE_STATUS_PHASE p) = 4 → 4 ≤ p → let l := s.linkOf p
      ∀ g : Agreement, (s.lane l).agreed = some g → g.handle < 96 → (s.linkLanes l).length = g.width → (∀ q ∈ s.linkLanes l, s.get (LANE_STATUS_PHASE q) = 4) →
        ((s.lane p).heard ≠ some .enum → exec (.enumEcho p) s = .next (deliver s (s.setLane p { (s.lane p) with heard := some .enum }))) ∧
        ((s.lane p).heard = some .enum →
        let t := (linkUp l ((((s.lane l).cap).getD (0, 0)).1 / 2 ^ 32 % 2 ^ 16) s).put (LANE_PTN_STATUS_PRESENT g.handle) 1
        exec (.enumEcho p) s = .next (deliver s (grantCredits g.handle
          (((t.incSat (LANE_PTN_CNT_ARRIVALS g.handle)).put (mapBit LANE_PRESENT g.handle) 1).put (mapBit LANE_ARRIVE_EVT g.handle) 1)))))

/-- Acknowledgements, errors and replay on a lane (R45, R239, R243, R260, R263, R264, R268, R269, R270, R271, R282): A lane carries frames in ACTIVE or
RETIRE, and is parsed then unless its ingress waits. On a parsed lane an ACK acknowledges up to its FSEQ, a NAK starts an attempt, an episode with
nothing left at either end closes, and waiting frames leave; a gap opens an episode and asks for a replay, and a frame sent again opens an episode and
counts an attempt; while the ingress waits none of these has an effect. A corrected codeword with FEC on is counted. A bad block or CRC is counted,
and where frames are carried opens an episode and asks for a replay. Block lock that returns asks for a replay. An uncorrectable codeword counts one,
and two bad blocks, opens an episode and raises its fault. The sender's REPLAY_TMO with frames unacknowledged makes an attempt; the receiver's after a
NAK sends one more. An ACK leaves with frames owed, unless the forwarding buffer of a warp lane is full. An episode is exhausted with 8 attempts or 2
us after it opened: it is counted, with SURPRISE for a partner, raises its fault, and the link goes down as a departure. Lost block lock opens an
episode where frames are carried; takes a lane in ALIGN, NEGOTIATE or ENUMERATE to DETECT; ends a detection in DETECT; and loses a warp lane's source.
A downstream hub's frame is merged onto the warp lane of its letter where that carries frames. -/
def Obligations.LaneReplay : Prop :=
  ∀ (s : State) (p : Nat), p < 108 → let l := s.linkOf p
    (s.laneCarries p = true ↔ s.get (LANE_STATUS_PHASE p) = 5 ∨ s.get (LANE_STATUS_PHASE p) = 6) ∧
    (s.parses p = true ↔ s.laneCarries p = true ∧ (s.link l).stalled = none) ∧
    (s.parses p = true →
      (∀ (seq : Nat) (nak far : Bool), let t := farClean l far (acknowledge l seq s)
        let u := closeEpisode l (if nak then attempt l t else t)
        exec (.ackReceive p seq nak far) s = .next (deliver s (settleAll (drainLink (u.link l).waiting.length l u)))) ∧
      exec (.frameError p .gap) s = .next (deliver s (sendAck l true (openEpisode l s))) ∧
      (let t := openEpisode l s
       exec (.frameError p .resent) s = .next (deliver s (t.setLink l { (t.link l) with episode := (t.link l).episode.map fun e => { e with attempts := e.attempts + 1 } })))) ∧
    (s.parses p = false → exec (.frameError p .gap) s = .next s ∧ exec (.frameError p .resent) s = .next s ∧
      ∀ (seq : Nat) (nak far : Bool), exec (.ackReceive p seq nak far) s = .next s) ∧
    (s.laneCarries p = true →
      (∀ e, e = LineError.block ∨ e = .crc → exec (.frameError p e) s = .next (deliver s (sendAck l true (openEpisode l (s.incSat (LANE_CNT1_BAD_BLK p)))))) ∧
      ((s.lane p).lost = true → exec (.frameError p .relock) s = .next (deliver s (sendAck l true (s.setLane p { (s.lane p) with lost := false })))) ∧
      ((s.link l).unacked ≠ [] → exec (.replayTimeout p true) s = .next (deliver s (attempt l s))) ∧
      ((s.link l).nakked = true → let t := sendAck l true s
        exec (.replayTimeout p false) s = .next (deliver s (t.setLink l { (t.link l) with nakked := false }))) ∧
      (∀ far, (s.link l).owed ≠ 0 → let u := closeEpisode l (farClean l far (sendAck l false s))
        (2 ≤ l ∨ (s.link (2 + l)).unacked.length + (s.link (2 + l)).waiting.length < 256 →
          exec (.ackSend p far) s = .next (deliver s (settleAll (drainLink (u.link l).waiting.length l u)))) ∧
        (l < 2 → 256 ≤ (s.link (2 + l)).unacked.length + (s.link (2 + l)).waiting.length → exec (.ackSend p far) s = .next s)) ∧
      (let t := openEpisode l ((if p < 2 then warpLost p s else s).incSat (LANE_CNT1_BAD_BLK p))
       exec (.blockLockLoss p) s = .next (deliver s (settleAll (t.setLane p { (t.lane p) with lost := true }))))) ∧
    (s.laneCarries p = false → ∀ e, e = LineError.block ∨ e = .crc → exec (.frameError p e) s = .next (deliver s (s.incSat (LANE_CNT1_BAD_BLK p)))) ∧
    (s.flag (LANE_STATUS_FEC p) = true →
      exec (.frameError p .corrected) s = .next (deliver s (s.incSat (LANE_CNT1_FEC_CORR p))) ∧
      (let t := (s.incSat (LANE_CNT1_FEC_UNCORR p)).addSat (LANE_CNT1_BAD_BLK p) 2
       exec (.frameError p .uncorrectable) s = .next (deliver s (settleAll (raiseFault (srcLane l) .fecUncorr (s.linkBasket l) 0
        (if s.laneCarries p then sendAck l true (openEpisode l t) else t)))))) ∧
    (∀ e, (s.link l).episode = some e → 8 ≤ e.attempts ∨ e.opened + usec 2 ≤ s.elapsed → let h := s.get (LANE_STATUS_HANDLE l); let t := s.incSat (LANE_CNT0_EXHAUST l)
      exec (.replayExhaust p) s = .next (deliver s (settleAll (linkDown true l (raiseFault (srcLane l) .exhaust (s.linkBasket l) (if h < 96 then h else 0x7F)
        (if h < 96 then t.incSat (LANE_PTN_CNT_SURPRISE h) else t)))))) ∧
    (let t := if p < 2 then warpLost p s else s
     (s.get (LANE_STATUS_PHASE p) = 0 → exec (.blockLockLoss p) s = .next (deliver s (settleAll (t.setLane p { (t.lane p) with id16 := none, heard := none })))) ∧
     (s.get (LANE_STATUS_PHASE p) = 1 → exec (.blockLockLoss p) s = .next (deliver s (settleAll t))) ∧
     (2 ≤ s.get (LANE_STATUS_PHASE p) → s.get (LANE_STATUS_PHASE p) ≤ 4 → exec (.blockLockLoss p) s = .next (deliver s (settleAll (linkDown false l t))))) ∧
    (p = 2 ∨ p = 3 → s.parses p = true → ∀ f : UpFrame,
      let t := s.setLink p { (s.link p) with rxNext := ((s.link p).rxNext + 1) % 4096, owed := (s.link p).owed + 1, nakked := false }
      exec (.chainUpstreamFrame p f) s = .next (deliver s (if s.laneCarries (p - 2) then
        sendFrame (p - 2) (match f with | .cpl c ws => Frame.cpl c ws | .credit n c b q => Frame.credit n c b q) t else t)))

/-- Departures, refusals, and the keeper's commands for lanes (R239, R257, R265, R271, R276, R278, R279, R280, R281): A RET is noted on its first copy,
and acts on the second, unless the lane's ingress waits. On a lane in ALIGN to ACTIVE it takes effect after an open replay episode; in NEGOTIATE a
reason of refusal (2 to 9) holds the lane, counts, and takes it to RETIRE; otherwise its link enters RETIRE by the far end's reason; a reason that
R279 does not list reads as 1. On a lane in RETIRE the reason is noted on every lane of the link. RETIRE's completion takes the link down as a
departure. The end of a refusal's hold trains those of its lanes that are in DETECT with block lock. The keeper's RETRAIN of a lane that is not OFF
takes its link to DETECT, without a departure; RETIRE of a lane in ALIGN to ACTIVE retires its link with reason 0x0B; SUBSTITUTE of a lane in a bound
range with a spare wired marks the lane replaced and takes the bond and the lanes of its range down. Each is ignored otherwise, and sets CMD_REJ. -/
def Obligations.LaneDepartures : Prop :=
  ∀ (s : State) (p : Nat), p < 108 → let l := s.linkOf p
    let ph := s.get (LANE_STATUS_PHASE p)
    (∀ w : Nat, (s.link l).stalled.isSome = true → exec (.retReceive p w) s = .next s) ∧
    (∀ w : Nat, (s.link l).stalled = none → (s.lane p).heard ≠ some (.ret w) → 2 ≤ ph → ph ≤ 6 →
      exec (.retReceive p w) s = .next (deliver s (s.setLane p { (s.lane p) with heard := some (.ret w) }))) ∧
    (∀ w : Nat, (s.link l).stalled = none → (s.lane p).heard = some (.ret w) → let why := if w ∈ [1, 2, 3, 4, 5, 6, 7, 8, 9, 10, 11, 13] then w else 1
      (2 ≤ ph → ph ≤ 5 →
        ((s.link l).episode.isSome = true → exec (.retReceive p w) s = .next (deliver s (s.setLink l { (s.link l) with retLater := some why }))) ∧
        ((s.link l).episode = none → ph = 3 → 2 ≤ why → why ≤ 9 → exec (.retReceive p w) s = .next (deliver s
          (enterRetire p why true ((s.incSat (LANE_CNT0_TRAIN_FAIL p)).setLane p { (s.lane p) with hold := true })))) ∧
        ((s.link l).episode = none → ph ≠ 3 ∨ why < 2 ∨ 9 < why → exec (.retReceive p w) s = .next (deliver s (settleAll (retireLink l why true s))))) ∧
      (ph = 6 → exec (.retReceive p w) s = .next (deliver s (eachDo (s.linkLanes l) (fun q t =>
        ((t.setLane q { (t.lane q) with retFar := true }).put (LANE_RET_REASON q) why).put (LANE_RET_BY_FAR q) 1) s)))) ∧
    (ph = 6 → exec (.retireComplete p) s = .next (deliver s (settleAll (linkDown true l s)))) ∧
    (∀ ps : List Nat, exec (.refusalHoldExpire ps) s = .next (deliver s (eachDo ps (fun q t => let u := t.setLane q { (t.lane q) with hold := false }
      if q < 108 ∧ u.get (LANE_STATUS_PHASE q) = 0 ∧ (u.lane q).id16.isSome = true then enterTrain q u else u) s))) ∧
    (∀ m : Nat, s.opens m LANE_CMD true → let rej := s.put (LANE_EVENT_CMD_REJ (if m = 65 then 0 else m)) 1
      exec (.retrain m p) s = .next (deliver s (settleAll (if ph = 7 then rej else linkDown false l s))) ∧
      exec (.laneRetire m p) s = .next (deliver s (settleAll (if 2 ≤ ph ∧ ph ≤ 5 then retireLink l 0x0B false s else rej))) ∧
      (∀ h, s.handleOf p = some h → s.flag (LANE_PTN_BIND_SPARE h) = true →
        let ps := ((List.range (s.boundWidth h)).map fun i => s.rangeFirst h + i) ++ [s.groupSpare h]
        let t := s.setLane p { (s.lane p) with replaced := true }
        let t := if s.get (LANE_STATUS_HANDLE p) = h then linkDown false l t else t
        exec (.substitute m p) s = .next (deliver s (settleAll
          (eachDo (ps.filter fun q => t.get (LANE_STATUS_PHASE q) != 7 && t.get (LANE_STATUS_PHASE q) != 0) (linkDown false) t)))) ∧
      (s.handleOf p = none → exec (.substitute m p) s = .next (deliver s (settleAll rej))))

/-- Messages to and from partners (R268, R285, R286): A LANE_PCTL_CTRL write keeps its RSVL bits; without GO it does nothing else. With GO while BUSY it
sets CMD_REJ. For a partner that is another's, or is not ACTIVE, it sets REJ and DONE's event, and counts FOREIGN for another basket's partner.
Otherwise the mailbox is BUSY with the partner, and the two words of TX leave on the partner's first lane. A partner's ACK is taken in order; after a
TIMEOUT it is discarded; else the oldest message that waits for it ends with DONE and its status. Another message of a partner enters the mailbox of
its basket's VF, or the PF's where that VF is not enabled; a 17th is lost and counted. 10 ms without an ACK, no episode being open, set TIMEOUT; 10 ms
later BUSY clears. A release presents the next message that waits. -/
def Obligations.PartnerControl : Prop :=
  ∀ s : State,
    (∀ (m : Nat) (v : Word), let c := if m = 65 then 0 else m; s.opens m (LANE_PCTL_CTRL c) false → let h := v.toNat % 128
      let k := keepRsvl m (LANE_PCTL_CTRL c) v s
      (v.toNat < 2 ^ 31 → exec (.pctlSend m v) s = .next (deliver s k)) ∧
      (2 ^ 31 ≤ v.toNat → k.flag (LANE_PCTL_STATUS_BUSY c) = true → exec (.pctlSend m v) s = .next (deliver s (k.put (LANE_EVENT_CMD_REJ c) 1))) ∧
      (2 ^ 31 ≤ v.toNat → k.flag (LANE_PCTL_STATUS_BUSY c) = false → k.ownPartner c h = false ∨ k.sourceActive h = false →
        let t := if (k.handleBasket h).isSome = true ∧ k.ownPartner c h = false then countForeign c k else k
        exec (.pctlSend m v) s = .next (deliver s ((t.put (LANE_PCTL_STATUS_REJ c) 1).put (LANE_EVENT_PCTL_DONE c) 1))) ∧
      (2 ^ 31 ≤ v.toNat → k.flag (LANE_PCTL_STATUS_BUSY c) = false → k.ownPartner c h = true → k.sourceActive h = true →
        let t := (k.put (LANE_PCTL_STATUS_BUSY c) 1).setBox c { (k.box c) with dest := some h, late := false }
        exec (.pctlSend m v) s = .next (deliver s (sendFrame (k.get (LANE_PTN_STATUS_FIRST h)) (.pctl (k.reg (LANE_PCTL_TX0 c)) (k.reg (LANE_PCTL_TX1 c)))
          { t with pctl := t.pctl ++ [(h, c)] })))) ∧
    (∀ h st : Nat, s.partnerThere h = true → let t := takeFrame h s
      ((∃ e ∈ s.boxes, e.2.dest = some h ∧ e.2.late = true) → exec (.pctlAckReceive h st) s = .next (deliver s t)) ∧
      ((∀ e ∈ s.boxes, ¬(e.2.dest = some h ∧ e.2.late = true)) →
        (s.pctl.find? (fun e => e.1 == h) = none → exec (.pctlAckReceive h st) s = .next (deliver s t)) ∧
        (∀ c, s.pctl.find? (fun e => e.1 == h) = some (h, c) →
          let u := { t with pctl := t.pctl.eraseP fun e => e.1 == h }.setBox c { (t.box c) with dest := none }
          exec (.pctlAckReceive h st) s = .next (deliver s ((((u.put (LANE_PCTL_STATUS_BUSY c) 0).put (LANE_PCTL_STATUS_DONE c) 1).put (LANE_PCTL_STATUS_ACK_ST c) st).put
            (LANE_EVENT_PCTL_DONE c) 1))))) ∧
    (∀ (h : Nat) (d0 d1 : Word), s.partnerThere h = true → d0.toNat % 256 ≠ 0x7F → let t := takeFrame h s
      let f := (s.handleBasket h).getD 0 + 1
      let c := if f ≤ s.host.vfs then f else 0
      (16 ≤ (s.box c).rx.length → exec (.pctlRx h d0 d1) s = .next (deliver s (t.incSat (LANE_PCTL_STATUS_RX_LOST c)))) ∧
      ((s.box c).rx.length < 16 → exec (.pctlRx h d0 d1) s = .next (deliver s (presentRx c (t.setBox c { (t.box c) with rx := (t.box c).rx ++ [(h, d0, d1)] }))))) ∧
    (∀ c h : Nat, (s.box c).dest = some h → (s.box c).late = false → (s.link (s.get (LANE_PTN_STATUS_FIRST h))).episode = none →
      let t := (s.setBox c { (s.box c) with late := true }).put (LANE_PCTL_STATUS_TIMEOUT c) 1
      exec (.pctlTimeout c) s = .next (deliver s ({ t with pctl := t.pctl.filter fun e => !(e.1 == h && e.2 == c) }.put (LANE_EVENT_PCTL_DONE c) 1))) ∧
    (∀ c : Nat, (s.box c).late = true →
      exec (.pctlBusyEnd c) s = .next (deliver s ((s.setBox c { (s.box c) with dest := none, late := false }).put (LANE_PCTL_STATUS_BUSY c) 0))) ∧
    (∀ m : Nat, let c := if m = 65 then 0 else m; s.opens m (LANE_PCTL_RX_INFO c) false → s.flag (LANE_PCTL_RX_INFO_VALID c) = true →
      exec (.pctlRxRelease m) s = .next (deliver s (presentRx c (s.setBox c { (s.box c) with rx := (s.box c).rx.drop 1 })))) ∧
    (∀ c : Nat, ((s.box c).rx = [] → presentRx c s = s.put (LANE_PCTL_RX_INFO_VALID c) 0) ∧
      (∀ h d0 d1 l, (s.box c).rx = (h, d0, d1) :: l → presentRx c s =
        ((((s.setReg (LANE_PCTL_RX0 c) d0).setReg (LANE_PCTL_RX1 c) d1).put (LANE_PCTL_RX_INFO_HANDLE c) h).put (LANE_PCTL_RX_INFO_VALID c) 1).put (LANE_EVENT_PCTL_RX c) 1))

/-- A PLAN_CMD code that the present state does not list is ignored and sets CMD_REJ (R303): For a keeper's write of PLAN_CMD: OPEN outside IDLE, VERIFY
outside STAGING, COMMIT and STORE_BOOT outside VERIFIED, and ABORT outside STAGING, VERIFIED and COMMIT_WAIT have no effect but CMD_REJ, and what had
waited goes on after COMMIT and ABORT as after every command that can end something (settleAll). So has STORE_BOOT in VERIFIED for a partial plan, or
for more than 16,384 words, and a write of a code above 6 by the PF, whose reserved bits are kept as written. In VERIFIED a COMMIT is accepted (the
load leaves VERIFIED for COMMIT_WAIT, or its commit point passes), and so is STORE_BOOT of a full plan of at most 16,384 words: the load is STORING,
STORED is clear, and the NVM writer takes the boot slot's write. -/
def Obligations.PlanCommandsByState : Prop :=
  ∀ (s : State) (m : Nat), s.opens m PLAN_CMD true →
    let st := s.get PLAN_STATUS_STATE
    let rej := s.put PLAN_EVENT_CMD_REJ 1
    (st ≠ 0 → exec (.planOpen m) s = .next (deliver s rej)) ∧
    (st ≠ 1 → exec (.planVerify m) s = .next (deliver s rej)) ∧
    (st ≠ 3 → exec (.planCommit m) s = .next (deliver s (settleAll rej)) ∧ exec (.storeBoot m) s = .next (deliver s rej)) ∧
    (st ≠ 1 → st ≠ 3 → st ≠ 5 → exec (.planAbort m) s = .next (deliver s (settleAll rej))) ∧
    (st = 3 → exec (.planCommit m) s = .next (deliver s (settleAll (if s.commitWaits then s.put PLAN_STATUS_STATE 5 else commitPoint s)))) ∧
    (st = 3 → s.load.frag.isSome = true ∨ 16384 < s.load.words.length → exec (.storeBoot m) s = .next (deliver s rej)) ∧
    (st = 3 → s.load.frag = none → s.load.words.length ≤ 16384 → let t := (s.put PLAN_STATUS_STATE 4).put PLAN_STATUS_STORED 0
      exec (.storeBoot m) s = .next (deliver s (nvmNext { t with nvmQueue := t.nvmQueue ++ [5] }))) ∧
    (∀ (v : Word) (r : SelfTest) (ok : Bool), m = 0 → 6 < v.toNat % 16 → let k := keepRsvl m PLAN_CMD v s
      exec (.registerWrite m PLAN_CMD v r ok) s = .next (deliver k (k.put PLAN_EVENT_CMD_REJ 1)))

/-- The load of a plan from OPEN to its verification, and how it aborts (R300, R301, R302, R304, R306, R307, R308): OPEN in IDLE, in the stage PLAN-READY
and with no class G fault, zeroes the 2 MiB of staging and enters STAGING with no words; from SHUTDOWN on, or after a class G fault, it is rejected. A
staging write by the PF or the sideband, as keeper, in STAGING, to a word below 524,288, stores the word and raises WORDS to it; another is dropped
with WR_REJ, and one beyond the area shows in the load. VERIFY takes the staged words, and shows whether they are a fragment and of which basket.
ABORT in STAGING, VERIFIED or COMMIT_WAIT, and STAGE_TMO in STAGING or VERIFIED of a load that is no boot plan, leave the state IDLE, with the result
ABORTED, its reason and its event, and nothing of the load. The verification's end refuses the plan or takes it as VERIFIED. SET_MIN_SEQ raises
PLAN_MIN_SEQ to the sequence in force, never lowers it, and is rejected with no plan in force. -/
def Obligations.PlanLoad : Prop :=
  ∀ s : State,
    (∀ m : Nat, s.opens m PLAN_CMD true →
      (s.get PLAN_STATUS_STATE = 0 → s.flag FC_STATUS_G_ACTIVE = false → s.get PWR_STATUS_STAGE = 3 → let t := (s.put PLAN_STATUS_STATE 1).put PLAN_LEN_WORDS 0
        exec (.planOpen m) s = .next (deliver s { t with mem := t.mem.filter (fun c => c.1 < 0x04000000 || 0x04200000 ≤ c.1), load := {} })) ∧
      (s.flag FC_STATUS_G_ACTIVE = true ∨ s.get PWR_STATUS_STAGE ≠ 3 → exec (.planOpen m) s = .next (deliver s (s.put PLAN_EVENT_CMD_REJ 1))) ∧
      (s.get PLAN_STATUS_STATE = 1 → let ws := (List.range (s.get PLAN_LEN_WORDS)).map fun k => s.memWord (0x04000000 + 4 * k)
        let h := headerOf ws
        let t := ((s.put PLAN_STATUS_STATE 2).put PLAN_STATUS_PARTIAL (if h.partial_ then 1 else 0)).put PLAN_STATUS_BASKET (if h.partial_ then h.basket else 0)
        exec (.planVerify m) s = .next (deliver s { t with load := { words := ws, beyond := s.load.beyond } })) ∧
      (s.get PLAN_STATUS_STATE = 1 ∨ s.get PLAN_STATUS_STATE = 3 ∨ s.get PLAN_STATUS_STATE = 5 →
        exec (.planAbort m) s = .next (deliver s (settleAll (abortLoad 0x80 s)))) ∧
      (∀ p, s.plan = some p → exec (.setMinSeq m) s = .next (deliver s (s.put PLAN_MIN_SEQ_MIN (max (s.get PLAN_MIN_SEQ_MIN) p.seq)))) ∧
      (s.plan = none → exec (.setMinSeq m) s = .next (deliver s (s.put PLAN_EVENT_CMD_REJ 1)))) ∧
    (∀ why : Nat, s.get PLAN_STATUS_STATE = 1 ∨ s.get PLAN_STATUS_STATE = 2 ∨ s.get PLAN_STATUS_STATE = 3 ∨ s.get PLAN_STATUS_STATE = 5 →
      abortLoad why s = { (((s.put PLAN_STATUS_STATE 0).put PLAN_STATUS_RESULT 3).put PLAN_STATUS_CODE why).put PLAN_EVENT_ABORTED 1 with load := {} }) ∧
    (∀ (m k : Nat) (v : Word), s.hostOk m = true → s.enabled 10 = true → m = 0 ∨ m = 65 →
      let may := s.isKeeper m = true ∧ s.get PLAN_STATUS_STATE = 1 ∧ k < 524288
      (may → let t := s.setMemWord (0x04000000 + 4 * k) v
        exec (.planStagingWrite m k v) s = .next (deliver s (t.put PLAN_LEN_WORDS (max (s.get PLAN_LEN_WORDS) (k + 1))))) ∧
      (¬may → let t := s.put PLAN_EVENT_WR_REJ 1
        exec (.planStagingWrite m k v) s =
          .next (deliver s (if s.isKeeper m = true ∧ s.get PLAN_STATUS_STATE = 1 then { t with load := { s.load with beyond := true } } else t)))) ∧
    (s.get PLAN_STATUS_STATE = 1 ∨ s.get PLAN_STATUS_STATE = 3 → s.load.boot = false → exec .stageTimeout s = .next (deliver s (settleAll (abortLoad 0x82 s)))) ∧
    (s.get PLAN_STATUS_STATE = 2 →
      (∀ e, verifyPlan s s.load.words = .error e → exec .planVerifyDone s = .next (deliver s (settleAll (planRefused e s)))) ∧
      (∀ r, verifyPlan s s.load.words = .ok r → exec .planVerifyDone s = .next (deliver s (settleAll (planVerified r.1 r.2 s))))) ∧
    (∀ (code sec : Nat) (i : Nat), s.load.boot = false → planRefused (code, sec, some i) s =
      { ((((s.put PLAN_STATUS_STATE 0).put PLAN_STATUS_RESULT 2).put PLAN_STATUS_CODE code).put PLAN_DETAIL_SECTION sec).put PLAN_EVENT_REFUSED 1 with load := {} }.put PLAN_DETAIL_INDEX i)

/-- The commit point that was waited for, and the ends of a full and of a partial reweave (R305, R309, R312, R313): In COMMIT_WAIT, once nothing on an
included resource runs any more, the commit point passes. A full reweave that applies ends once every bound rim has settled: the spokes' routing
causes and the baskets are taken again, the fragments' sequences are 0, each lane source is granted its share of its rings, the causes of the reweave
clear, and the apply ends. A partial one ends once no included strand is still to move and every rim of its fragment has settled: the causes of its
spokes clear, the sources of the basket's rings are granted their shares, the fragment's sequence is shown, the apply ends, and an FLR that waited for
it acts. -/
def Obligations.PlanApplies : Prop :=
  ∀ s : State,
    (s.get PLAN_STATUS_STATE = 5 → s.commitWaits = false → exec .commitWaitEnd s = .next (deliver s (settleAll (commitPoint s)))) ∧
    (s.get PLAN_STATUS_STATE = 6 → s.load.frag = none → (∀ n < 16, s.rimBound n = false ∨ s.rimSettled n = true) →
      let t := recomputeBaskets (eachDo (List.range 256) routeCauses s)
      let u := grantShares (fun _ => true) (eachDo (List.range 64) (fun b u => u.setReg (PLAN_FRAG_SEQ b) 0) t)
      exec .fullReweaveApplied s = .next (deliver s (settleAll (endApply (unparkSpokes SPK_STATUS_C_REWEAVE (List.range 256) u))))) ∧
    (∀ f : Plan, s.get PLAN_STATUS_STATE = 6 → s.load.frag = some f → s.moving = [] → (∀ r ∈ f.recs sRIMS, s.rimSettled (recBits r 0 0 4) = true) →
      let sp := (List.range 256).filter fun n => s.flag (SPK_STATUS_C_REWEAVE n)
      let t := unparkSpokes SPK_STATUS_C_REWEAVE sp (eachDo sp routeCauses s)
      let u := grantShares (fun r => t.get (RING_DESC1_BASKET r) == s.get PLAN_STATUS_BASKET) t
      exec .partialReweaveApplied s = .next (deliver s (settleAll (flrDeferred (endApply (u.put (PLAN_FRAG_SEQ_SEQ (s.get PLAN_STATUS_BASKET)) s.load.fragSeq))))))

/-- The keeper's commands for baskets, and how the keeper attaches and detaches (R257, R327, R328, R329, R330, R332, R368, R369, R370): CLEAR_FAULTED
takes a FAULTED basket, with no class G fault, to QUIET with a record, waiting for its causes and its quiet period; otherwise CMD_REJ. CLEAR_RECOV
forgets the basket's recoveries; CLEAR_VIOL clears every violation counter. CHALLENGE, unless refused, puts a fresh nonce in place; refused, it sets
CMD_REJ. RESPOND with a valid nonce and no verification running spends the nonce and starts the verification of the response as it stands; otherwise
CMD_REJ. DETACH from ATTACHED with no load leaves the keeper detached; otherwise CMD_REJ. A response signed over the nonce and SERIAL by a key that
the life-cycle state accepts attaches the PF, shows its key, and lets the completion rings be written again; one that fails goes back, counts, and
refuses challenges, until 1 s has passed. A nonce of 10 s is gone: its registers read zero. -/
def Obligations.BasketsAndKeeper : Prop :=
  ∀ s : State,
    (∀ m b : Nat, b < 64 → s.opens m BSK_CMD true →
      (s.get (BSK_STATUS_STATE b) = 3 → s.flag FC_STATUS_G_ACTIVE = false → let t := logInfo .keeperClear (some b) 0 (s.put (BSK_STATUS_STATE b) 2)
        exec (.clearFaulted m b) s = .next (deliver s (settleAll (faultN (startQuiet b (t.put (FC_BSK_EVT_KEEPER_CLEAR b) 1)))))) ∧
      (s.get (BSK_STATUS_STATE b) ≠ 3 ∨ s.flag FC_STATUS_G_ACTIVE = true →
        exec (.clearFaulted m b) s = .next (deliver s (settleAll (s.put BSK_EVENT_CMD_REJ 1)))) ∧
      exec (.clearRecov m b) s = .next (deliver s ({ s with col := { s.col with recov := s.col.recov.filter fun r => r.1 != b } }.put (BSK_STATUS_RECOV b) 0)) ∧
      exec (.clearViol m) s = .next (deliver s (eachDo (List.range 66) (fun k t => t.setReg (BSK_VIOL k) 0) s))) ∧
    (∀ m : Nat, s.opens m BSK_KEEPER_CMD false → let rej := s.put BSK_EVENT_CMD_REJ 1
      let st := s.get BSK_KEEPER_STATUS_STATE
      (s.keeper.refuse = true → exec (.challenge m) s = .next (deliver s rej)) ∧
      (s.keeper.refuse = false → let t := { s with freeCtr := s.freeCtr + 1 }.put BSK_KEEPER_STATUS_NONCE_VALID 1
        exec (.challenge m) s = .next (deliver s (eachDo (List.range 12) (fun j u => u.setReg (BSK_KEEPER_NONCE j) ((Config.freeWords s.freeCtr).getD j 0)) t))) ∧
      (∀ key < 4, s.flag BSK_KEEPER_STATUS_NONCE_VALID = true → st ≠ 3 → let t := (dropNonce s).put BSK_KEEPER_STATUS_STATE 3
        let nonce := (List.range 12).map fun i => s.reg (BSK_KEEPER_NONCE i)
        let resp := (List.range 24).map fun i => s.opnd (BSK_KEEPER_RESP i)
        exec (.respond m key) s = .next (deliver s { t with keeper := { t.keeper with back := st, key := key, nonce := nonce, resp := resp } })) ∧
      (∀ key < 4, s.flag BSK_KEEPER_STATUS_NONCE_VALID = false ∨ st = 3 → exec (.respond m key) s = .next (deliver s rej)) ∧
      (st = 1 → s.get PLAN_STATUS_STATE = 0 → exec (.keeperDetach m) s = .next (deliver s (keeperState 0 s))) ∧
      (st ≠ 1 ∨ s.get PLAN_STATUS_STATE ≠ 0 → exec (.keeperDetach m) s = .next (deliver s rej))) ∧
    (s.get BSK_KEEPER_STATUS_STATE = 3 →
      let good := s.keyOk s.keeper.key && s.verifies s.keeper.key (wordBytes s.keeper.nonce ++ s.serialBytes) s.keeper.resp
      (good = true → exec .keeperVerifyDone s =
        .next (deliver s { ((keeperState 1 s).put BSK_KEEPER_STATUS_KEY_ID s.keeper.key).put BSK_EVENT_ATTACHED 1 with cplHeld := false })) ∧
      (good = false →
        let t := ((s.put BSK_KEEPER_STATUS_STATE s.keeper.back).incSat BSK_KEEPER_STATUS_FAILS).put BSK_EVENT_ATTACH_FAIL 1
        exec .keeperVerifyDone s = .next (deliver s { t with keeper := { t.keeper with refuse := true } }))) ∧
    exec .keeperNonceExpire s = .next (deliver s (dropNonce s)) ∧
    dropNonce s = eachDo (List.range 12) (fun i t => t.setReg (BSK_KEEPER_NONCE i) 0) (s.put BSK_KEEPER_STATUS_NONCE_VALID 0) ∧
    exec .challengeRefusalEnd s = .next (deliver s { s with keeper := { s.keeper with refuse := false } }) ∧
    (∀ st : Nat, let t := (s.put BSK_KEEPER_STATUS_STATE st).put BSK_KEEPER_STATUS_ORPHAN_S 0
      keeperState st s = if s.isKeeper 0 = true ∧ (st = 0 ∨ st = 2) then t.put ⟨DEV_BLK_EN, 11, 1⟩ 1 else t)

/-- The link, the resets of the functions, and the virtual functions that appear and go (R257, R313, R328, R332, R342, R343, R344, R345): PERST_N asserted
takes the link down and resets the PF and every VF, where configuration has opened; its release only clears it. A hot reset does the same to a link
that is up. The link reaches L0 once the hub is released and PERST_N is not asserted. An FLR of the PF resets every function and is in progress; one
of an existing VF resets that VF, is in progress, and is shown in its basket's FLR bit, which its completion clears. VF Enable set with NumVFs n (1 to
64, to 32 on an LXG1024-H) makes n VFs, each shown in its basket; cleared or lowered to n, each VF that goes is reset as by an FLR and its bits clear.
A reset of every function resets each that exists, clears VF Enable, aborts the hosts' hops, resets the host and completion rings, ends a load with
0x81, holds completions, and orphans the keeper. -/
def Obligations.HostResets : Prop :=
  ∀ s : State,
    (let t := { s with host := { s.host with perst := true, link := false } }
     exec .perstNAssert s = .next (deliver s (settleAll (if s.host.ready then pfReset t else t)))) ∧
    exec .perstNRelease s = .next (deliver s { s with host := { s.host with perst := false } }) ∧
    (s.host.link = true → let t := { s with host := { s.host with link := false } }
      exec .hotReset s = .next (deliver s (settleAll (if s.host.ready then pfReset t else t)))) ∧
    (2 ≤ s.get DEV_SB_STATUS_STAGE → s.host.perst = false → exec .pcieLinkL0 s = .next (deliver s { s with host := { s.host with link := true } })) ∧
    (s.cfgOk 0 = true → exec .flrPf s = .next (deliver s (settleAll { pfReset s with host := { (pfReset s).host with flr := [0] } }))) ∧
    (∀ k : Nat, 1 ≤ k → s.cfgOk k = true → let t := vfReset k s
      exec (.flrVf k) s = .next (deliver s (settleAll ({ t with host := { t.host with flr := k :: t.host.flr } }.put (BSK_STATUS_FLR (k - 1)) 1)))) ∧
    (∀ k : Nat, k ∈ s.host.flr → let t := { s with host := { s.host with flr := s.host.flr.filter (· != k) } }
      exec (.flrComplete k) s = .next (deliver s (if k = 0 then t else t.put (BSK_STATUS_FLR (k - 1)) 0))) ∧
    (∀ n : Nat, s.cfgOk 0 = true → s.host.vfs = 0 → 1 ≤ n → n ≤ (if s.small then 32 else 64) →
      exec (.vfEnableSet n) s = .next (deliver s (eachDo (List.range n) (fun b u => u.put (BSK_STATUS_VF_EN b) 1) { s with host := { s.host with vfs := n } }))) ∧
    (∀ n : Nat, s.cfgOk 0 = true → n < s.host.vfs →
      let gone := ((List.range s.host.vfs).filter fun i => n ≤ i).map (· + 1)
      let t := eachDo gone (fun k u => ((vfReset k u).put (BSK_STATUS_VF_EN (k - 1)) 0).put (BSK_STATUS_FLR (k - 1)) 0) s
      exec (.vfEnableClear n) s = .next (deliver s (settleAll { t with host := { t.host with vfs := n, flr := t.host.flr.filter fun k => !gone.contains k } }))) ∧
    (let t := eachDo ((List.range 65).filter s.fnExists) functionReset s
     let t := { t with host := { t.host with vfs := 0, flr := [] } }
     let t := eachDo (List.range 64) (fun b u => (u.put (BSK_STATUS_VF_EN b) 0).put (BSK_STATUS_FLR b) 0) t
     let t := abortHops true (fun h => match h.src with | .host _ => true | .lane _ => false) t
     let t := eachDo (t.rings.filter fun r => t.get (RING_DESC1_KIND r) != 2) resetRing t
     pfReset s = keeperLost (abortLoad 0x81 { t with cplHeld := true })) ∧
    (∀ k : Nat, let t := functionReset k s
      vfReset k s = if t.applyHolds (k - 1) then { t with host := { t.host with flrLater := (k - 1) :: t.host.flrLater.filter (· != k - 1) } } else flrBasket (k - 1) t)

/-- Writes and reads of registers and of the stores (R14, R39, R326, R337, R338, R348, R349, R350, R351, R446, R447, R449): A PF's write of a command
register is that command, with the register's reserved bits kept: for each register and word of a list (and for any word written to BLK_EN or RING_DB)
the write answers what the command does. A write at an offset that names a register that is no command is a plain write; through a SET, CLEAR or
TOGGLE alias it writes old OR v, old AND NOT v or old XOR v on the RW and RWS bits and v on the RSVL bits. A plain write of an enabled, reachable
register of one word whose value is in range stores the writable bits. BLK_EN takes the block bits, applies the RWS values that waited for a block,
and the reed operations that waited go on. The indirect address takes the word, aligned. An access of the indirect data moves the window on by 4; a
read returns its location; a write of a store's word writes its bytes. A store window's pieces are written in ascending order, at most 512 bytes; a
read sends their words. An aligned read of a register sends what it returns; another completes as an Unsupported Request. -/
def Obligations.RegisterAccesses : Prop :=
  ∀ (s : State) (r : SelfTest) (ok : Bool),
    (∀ a w c, (a, w, c) ∈ ([(HRT_CMD, 1, .requalifyX 0), (TAL_CMD, 1, .talStep 0), (STR_CMD, 0x12345, .recheck 0 0x345), (SPK_FORCE, 0x80000107, .spkForcePark 0 7 true),
        (REED_CMD, 0x1FF, .reedRun 0 255), (LANE_CMD, 0x26B, .laneRetire 0 107), (PLAN_CMD, 4, .planAbort 0),
        (BSK_CMD, 0x13F, .clearFaulted 0 63), (BSK_KEEPER_CMD, 0x32, .respond 0 3), (PWR_CMD, 1, .shutdown 0 r), (BIST_CMD, 3, .storeMap 0),
        (LC_FUSE_CMD, 2, .fuseProgram 0 ok)] : List (Nat × Nat × Instr)) →
      exec (.registerWrite 0 a (BitVec.ofNat 32 w) r ok) s =
        exec c (if s.hostOk 0 = true ∧ s.enabledAt a = true then keepRsvl 0 a (BitVec.ofNat 32 w) s else s)) ∧
    (∀ v : Word, exec (.registerWrite 0 DEV_BLK_EN v r ok) s = exec (.blkEnWrite 0 v) s ∧ exec (.registerWrite 0 RING_DB v r ok) s = exec (.ringDoorbell 0 v) s) ∧
    (∀ (m off a : Nat) (v : Word) (row : RegRow) (x : Nat × Nat), m ≤ 64 → barLoc m off = .reg 0 a → regRow? a = some (row, x) → devCommand m a v s = none →
      regCommand r ok m a v s = none → s.fusedOff a = false → exec (.registerWrite m off v r ok) s = .next (deliver s (settleAll (plainWrite m a off false v s)))) ∧
    (∀ (m off op a : Nat) (v : Word) (row : RegRow) (x : Nat × Nat), m ≤ 64 → 0x4000 ≤ off % 0x10000 → barLoc m off = .reg op a → op ≠ 0 →
      regRow? a = some (row, x) → row.rw ≠ 0 → s.enabledAt a = true →
      let mix := if op = 1 then s.reg a ||| v else if op = 2 then s.reg a &&& ~~~v else s.reg a ^^^ v
      let w := (mix &&& BitVec.ofNat 32 (row.rw ||| row.rws)) ||| (v &&& BitVec.ofNat 32 row.rsvl)
      devCommand m a w s = none → regCommand {} true m a w s = none → s.fusedOff a = false →
      exec (.aliasWrite m off v) s = .next (deliver s (settleAll (plainWrite m a off false w s)))) ∧
    (∀ (m a at_ : Nat) (ind : Bool) (v : Word) (row : RegRow) (x : Nat × Nat), s.opens m a false → regRow? a = some (row, x) → s.fusedOff a = false →
      rangeOk a (checkedWord row (s.reg a) v) = true → a ≠ LANE_PCTL_TX0 (copyOf m) → a ≠ LANE_PCTL_TX1 (copyOf m) → plainWrite m a at_ ind v s = storeOpnd m a v row (storeAt m a at_ ind v s)) ∧
    (∀ (m : Nat) (v : Word), s.opens m DEV_BLK_EN true →
      let new := (s.reg DEV_BLK_EN &&& 0xFFFF0001#32) ||| (v &&& 0xFFFE#32)
      exec (.blkEnWrite m v) s = .next (deliver s (settleAll (reedOpsGo (applyRws (fun k => new.getLsbD k && !(s.reg DEV_BLK_EN).getLsbD k)
        (s.setReg DEV_BLK_EN ((new &&& ~~~0xFFFF0000#32) ||| (v &&& 0xFFFF0000#32)))))))) ∧
    (∀ (m : Nat) (v : Word), s.opens m (DEV_IND_ADDR m) false →
      exec (.indAddrWrite m v) s = .next (deliver s (s.setReg (DEV_IND_ADDR m) (v &&& ~~~3)))) ∧
    (∀ m op : Nat, op < 4 → s.hostOk m = true → let a := (s.reg (DEV_IND_ADDR m)).toNat; let t := s.setReg (DEV_IND_ADDR m) (s.reg (DEV_IND_ADDR m) + 4)
      (let x := readLoc m (indLoc m a) t
       exec (.indDataAccess m op none r ok) s = .next (deliver s (settleAll (x.2.emit (reply m x.1))))) ∧
      (∀ (v : Word) (b : Nat), indLoc m a = .mem b → exec (.indDataAccess m op (some v) r ok) s =
        .next (deliver t (settleAll (storeBytes m b (bytesOf (aliasStore op (t.memWord b) v)) (dropBuf m t)))))) ∧
    (∀ m off : Nat, m ≤ 64 → s.hostOk m = true →
      (∀ bs : List (Option Nat), bs.length ≤ 512 → exec (.storeWindowAccess m off 0 (some bs)) s = .next (deliver s (settleAll (windowWrite m off bs (dropBuf m s))))) ∧
      (∀ len ≤ 512, exec (.storeWindowAccess m off len none) s = .next (deliver s (settleAll (windowRead m off len s)))) ∧
      (off % 4 = 0 → let x := barRead m off s
        exec (.wideValueRead m off) s = .next (deliver s (settleAll (x.2.emit (reply m x.1))))) ∧
      (off % 4 ≠ 0 → exec (.wideValueRead m off) s = .next (deliver s (s.emit (.unsupported m)))))

/-- What holds and sends a function's messages, and the snapshots (R334, R341, R347, R352, R458, R459): A vector masked (a PF has 256, a VF 8), MSI-X
disabled, Bus Master Enable cleared and D3hot each hold the function's messages; the end of each sends what no longer is held: one message for each
vector that has a held source still set, and its pending bits clear. A snapshot of the whole device by a VF is refused with REJ. Another takes the
counters of its scope as they stand, with the tally of that moment, drops the copies held and clears HOLD. Its completion sets DONE and the tally's
three words, and, unless a reset came between, shows the copies with HOLD, SCOPE and BASKET. A release ends the hold; with none it changes nothing
that is shown. -/
def Obligations.MsixAndSnapshots : Prop :=
  ∀ s : State,
    (∀ f : Nat, s.cfgOk f = true →
      (∀ v, v < (if f = 0 then 256 else 8) →
        exec (.msixConditionBegin f (.vector v)) s = .next (deliver s (s.setReg (msixCtrl f v) 1)) ∧
        exec (.msixConditionEnd f (.vector v)) s = .next (deliver s (sendHeld f (s.setReg (msixCtrl f v) 0)))) ∧
      exec (.msixConditionBegin f .function) s = .next (deliver s { s with host := { s.host with msix := s.host.msix.filter (· != f) } }) ∧
      exec (.msixConditionEnd f .function) s = .next (deliver s (sendHeld f { s with host := { s.host with msix := f :: s.host.msix.filter (· != f) } })) ∧
      exec (.msixConditionBegin f .busMaster) s = .next (deliver s { s with host := { s.host with bme := s.host.bme.filter (· != f) } }) ∧
      exec (.msixConditionEnd f .busMaster) s = .next (deliver s (sendHeld f { s with host := { s.host with bme := f :: s.host.bme.filter (· != f) } })) ∧
      exec (.msixConditionBegin f .d3hot) s = .next (deliver s { s with host := { s.host with d3 := f :: s.host.d3.filter (· != f) } }) ∧
      exec (.msixConditionEnd f .d3hot) s = .next (deliver s (sendHeld f { s with host := { s.host with d3 := s.host.d3.filter (· != f) } }))) ∧
    (∀ f : Nat, ((sendHeld f s).held = s.held.filter fun h => !(h.1 == f && !s.msixHeld f h.2.1)) ∧
      ∃ new, (sendHeld f s).sent = new ++ s.sent ∧ (∀ v, Sent.msix f v ∈ new ↔ ∃ x, (f, v, x) ∈ s.held ∧ s.msixHeld f v = false ∧ s.sourceSet (f, x) = true) ∧ new.Nodup) ∧
    (∀ (m : Nat) (v : Word), s.opens m (DEV_SNAP_CMD m) false → let vfn := 1 ≤ m ∧ m ≤ 64
      let k := keepRsvl m (DEV_SNAP_CMD m) v s
      let x : Snap := tabGet (fun _ => {}) s.snaps m
      let scope := if v.toNat / 4 % 2 = 1 then none else some (if vfn then m - 1 else v.toNat / 256 % 64)
      (vfn → v.toNat / 4 % 2 = 1 → exec (.snapTake m v) s = .next (deliver s (k.put (DEV_SNAP_STATUS_REJ m) 1))) ∧
      (¬(vfn ∧ v.toNat / 4 % 2 = 1) → let job : SnapJob := ⟨scope, k.tally, (k.counters scope).map fun a => (a, k.view m a), true⟩
        exec (.snapTake m v) s = .next (deliver s ({ k with snaps := tabSet (fun _ => {}) k.snaps m ⟨[], (tabGet (fun _ => ({} : Snap)) k.snaps m).taking ++ [job]⟩ }.put (DEV_SNAP_STATUS_HOLD m) 0))) ∧
      exec (.snapRelease m) s = .next (deliver s ({ s with snaps := tabSet (fun _ => {}) s.snaps m { x with copies := [] } }.put (DEV_SNAP_STATUS_HOLD m) 0))) ∧
    (∀ (m : Nat) (j : SnapJob) (l : List SnapJob), let x : Snap := tabGet (fun _ => {}) s.snaps m
      x.taking = j :: l →
      let t := { s with snaps := tabSet (fun _ => {}) s.snaps m ⟨if j.hold then j.copies else x.copies, l⟩ }.put (DEV_SNAP_STATUS_DONE m) 1
      let u := eachDo [0, 1, 2] (fun i u => u.setReg (DEV_SNAP_TALLY0 m + 4 * i) (BitVec.ofNat 32 (j.tally / 2 ^ (32 * i)))) t
      exec (.snapCopyDone m) s = .next (deliver s (if j.hold then ((u.put (DEV_SNAP_STATUS_HOLD m) 1).put (DEV_SNAP_STATUS_SCOPE m) (if j.scope.isNone then 1 else 0)).put
        (DEV_SNAP_STATUS_BASKET m) (j.scope.getD 0) else u)))

/-- The sideband's addresses, its event enables and lengths, and the straps' samples (R353, R354, R357, R385, R388, R389): With VDD_IO good: ENTDAA
without a dynamic address sends the provisional ID (15 bits of the manufacturer's identity, 0x1024, the straps) with BCR 0x06 and DCR 0x00, and takes
the address; SETDASA at the static address takes it without; SETNEWDA at the dynamic address replaces it; RSTDAA drops it. ENEC and DISEC, broadcast
or to the dynamic address, with bit 0 of the event byte set and clear the enable of interrupts. SETMWL and SETMRL take lengths from 5 to 32. A sample
of the eight straps counts the samples that each has been steady (none where invalid, which sets STRAP_BAD; up to 100), shows STABLE where all have
settled, reports a strap that differs from its latched level after release, and takes the static address 0x30 plus the three I3C_ADDR straps once
those have settled. -/
def Obligations.SidebandAddressing : Prop :=
  ∀ s : State, s.vddIoGood = true → let sb := fun (x : Sideband) => { s with sb := x }
    (∀ x : Nat, s.sb.dyn = none → exec (.entdaa x) s = .next (deliver s ((sb { s.sb with dyn := some x }).emit (.sbData 8
      ((Config.mipiId % 2 ^ 15 * 2 ^ 33 + 0x1024 * 2 ^ 16 + (match s.sb.stat with | some a => a - 0x30 | none => 15) * 2 ^ 12) * 2 ^ 16 + 0x0600))))) ∧
    (∀ st x : Nat, s.sb.dyn = none → s.sb.stat = some st → exec (.setdasa st x) s = .next (deliver s (sb { s.sb with dyn := some x }))) ∧
    (∀ old x : Nat, s.sb.dyn = some old → exec (.setnewda old x) s = .next (deliver s (sb { s.sb with dyn := some x }))) ∧
    exec .rstdaa s = .next (deliver s (sb { s.sb with dyn := none })) ∧
    (∀ dest : Option Nat, dest = none ∨ s.sb.dyn = dest →
      (∀ ev, ev % 2 = 1 → exec (.enec dest ev) s = .next (deliver s (sb { s.sb with ibi := true })) ∧ exec (.disec dest ev) s = .next (deliver s (sb { s.sb with ibi := false }))) ∧
      (∀ n, 5 ≤ n → n ≤ 32 → exec (.setmwl dest n) s = .next (deliver s (sb { s.sb with mwl := n })) ∧ exec (.setmrl dest n) s = .next (deliver s (sb { s.sb with mrl := n })))) ∧
    (∀ levels : List Nat, levels.length = 8 → (∀ x ∈ levels, x ≤ 2) →
      let t := eachDo levels.zipIdx (fun e u => sampleStrap e.2 e.1 u) s
      exec (.strapSample levels) s = .next (deliver s (faultN (takeAddress (t.put DEV_SB_STRAP_STABLE
        (if (List.range 8).all (fun j => decide (100 ≤ tabGet (fun _ => 0) t.pwr.steady j)) then 1 else 0)))))) ∧
    (∀ j x : Nat, let f : Fld := ⟨DEV_SB_STRAP, 2 * j, 2⟩; let n := tabGet (fun _ => 0) s.pwr.steady j
      let n' := if x = 2 then 0 else if s.get f = x then min 100 (n + 1) else 1
      let t := { s with pwr := { s.pwr with steady := tabSet (fun _ => 0) s.pwr.steady j n' } }.put f x
      let u := if x = 2 then t.put DEV_SB_EVENT_STRAP_BAD 1 else t
      sampleStrap j x s = if 2 ≤ s.get DEV_SB_STATUS_STAGE ∧ x ≠ bitsAt (BitVec.ofNat 32 s.pwr.latch) (2 * j) 2 then u.put PWR_EVENT_STRAP_MOVED 1 else u) ∧
    (s.sb.stat = none → (∀ i < 3, 100 ≤ tabGet (fun _ => 0) s.pwr.steady (2 + i)) → 
      let a := 0x30 + (s.get ⟨DEV_SB_STRAP, 4, 2⟩ + 2 * s.get ⟨DEV_SB_STRAP, 6, 2⟩ + 4 * s.get ⟨DEV_SB_STRAP, 8, 2⟩)
      takeAddress s = sb { s.sb with stat := some a })

/-- The sideband's private transfers, its codes that return something, and its window (R353, R354, R355, R356, R358): A private transfer at the address
that the hub answers (the static one by I2C without a dynamic address, the dynamic one by I3C) writes the index and the groups of four bytes, no more
bytes than MWL, or reads n bytes from the pointer on, no more than MRL; a write of no byte has no effect. GETPID, GETBCR (0x06), GETDCR (0x00),
GETSTATUS (a free value of two bytes, DESIGN CHOICE), GETMWL and GETMRL at the dynamic address return theirs. A window command in state 1 (an access
running) is ignored; before plan-ready it is refused with state 3; otherwise the access starts with its address and, for a WRITE, its data. Its end
puts the state to 2, moves the address on by 1 with AUTO_INC, and performs the access as master 65: a WRITE as a write of BAR0, a READ into
DEV_SB_WIN_DATA, where a location with an error beyond correction gives a free value. -/
def Obligations.SidebandTransfers : Prop :=
  ∀ s : State,
    (∀ (i2c : Bool) (x : Nat), s.sbAnswers i2c x = true ↔
      s.vddIoGood = true ∧ ((∃ d, s.sb.dyn = some d ∧ i2c = false ∧ x = d) ∨ (s.sb.dyn = none ∧ i2c = true ∧ s.sb.stat = some x))) ∧
    (∀ (i2c : Bool) (x : Nat), s.sbAnswers i2c x = true →
      (∀ (bs : Bytes) (i : Nat) (l : Bytes), bs.take s.sb.mwl = i :: l →
        exec (.sbPrivateWrite i2c x bs) s = .next (deliver s (faultN (sbGroups l { s with sb := { s.sb with ptr := i % 256 } })))) ∧
      (∀ n : Nat, 0 < n → let k := min n s.sb.mrl
        let r := sbBytes (k / 4) s
        (k % 4 = 0 → exec (.sbPrivateRead i2c x n) s = .next (deliver s (r.2.emit (.sbData k (r.1 % 256 ^ k))))) ∧
        (k % 4 ≠ 0 → exec (.sbPrivateRead i2c x n) s = .next (deliver s ((sbLatch r.2.sb.ptr r.2).emit
          (.sbData k ((r.1 + 2 ^ (32 * (k / 4)) * (r.2.sbRead r.2.sb.ptr).toNat) % 256 ^ k))))))) ∧
    (∀ x : Nat, s.vddIoGood = true → s.sb.dyn = some x →
      exec (.getpid x) s = .next (deliver s (s.emit (.sbData 6 s.provId))) ∧
      exec (.getbcr x) s = .next (deliver s (s.emit (.sbData 1 6))) ∧
      exec (.getdcr x) s = .next (deliver s (s.emit (.sbData 1 0))) ∧
      exec (.getstatus x) s = .next (deliver s ({ s with freeCtr := s.freeCtr + 1 }.emit (.sbData 2 (Config.freeNat s.freeCtr % 65536)))) ∧
      exec (.getmwl x) s = .next (deliver s (s.emit (.sbData 2 s.sb.mwl))) ∧
      exec (.getmrl x) s = .next (deliver s (s.emit (.sbData 2 s.sb.mrl)))) ∧
    (∀ v : Word, s.vddIoGood = true → let t := s.put DEV_SB_WIN_CMD_AUTO_INC (v.toNat / 16 % 2)
      exec (.sbWinRead v) s = .next (deliver s (sbWindow 1 t)) ∧ exec (.sbWinWrite v) s = .next (deliver s (sbWindow 2 t))) ∧
    (∀ cmd : Nat, cmd = 1 ∨ cmd = 2 →
      (s.get DEV_SB_WIN_CMD_STATE = 1 → sbWindow cmd s = s) ∧
      (s.get DEV_SB_WIN_CMD_STATE ≠ 1 → s.get DEV_SB_STATUS_STAGE ≠ 3 → sbWindow cmd s = s.put DEV_SB_WIN_CMD_STATE 3) ∧
      (s.get DEV_SB_WIN_CMD_STATE ≠ 1 → s.get DEV_SB_STATUS_STAGE = 3 → sbWindow cmd s = { s.put DEV_SB_WIN_CMD_STATE 1 with sb := { s.sb with
        win := some (s.get DEV_SB_WIN_ADDR_ADDR * 4, if cmd = 2 then some (s.reg DEV_SB_WIN_DATA) else none) } })) ∧
    (∀ (off : Nat), s.sb.win = some (off, none) → let x := barRead 65 off (sbWinOver s)
      exec .sbWinDone s = .next (deliver s (settleAll ({ x.2 with freeCtr := x.2.freeCtr + 1 }.setReg DEV_SB_WIN_DATA
        (x.1.getD (BitVec.ofNat 32 (Config.freeNat x.2.freeCtr))))))) ∧
    (∀ (off : Nat) (v : Word), s.sb.win = some (off, some v) → exec .sbWinDone s = barWrite {} true 65 off v (sbWinOver s)) ∧
    (let t := { s.put DEV_SB_WIN_CMD_STATE 2 with sb := { s.sb with win := none } }
     sbWinOver s = if s.flag DEV_SB_WIN_CMD_AUTO_INC = true then t.put DEV_SB_WIN_ADDR_ADDR (s.get DEV_SB_WIN_ADDR_ADDR + 1) else t)

/-- What a fault message does by its class, and how a basket recovers (R361, R362, R363, R364, R365, R366, R367, R368, R369, R370): A message of a known
kind from a source that emits it is raised for the basket that it carries (an ECC error's for the basket that owns the word), or for the device; an
ECC error beyond correction marks its word. A class B message of basket b is counted and shown, logged, recorded as a cause where it is a condition or
injected, and moves the basket: with no class G fault, a NORMAL basket parks its spokes; a NORMAL or QUIET one becomes QUIET, or FAULTED where RECOV
reads 16, with a record and its events; a quiet period starts where no cause is uncleared. Where a quiet period ends with no class G fault, the basket
is NORMAL, its recovery is recorded and counted (RECOV up to 16), reported and logged, and C_BASKET clears on its spokes. The age-out removes its
oldest recovery. An uncleared cause that ends is dropped with a record; one that an injection holds stays, undetected. -/
def Obligations.FaultsAndRecovery : Prop :=
  ∀ s : State,
    (∀ (src kind b detail : Nat) (k : FaultKind) (x : Option Nat), kindOf kind = some k → emits src k = true → src / 4096 ≠ 15 → s.foundBasket src k b detail = some x →
      let w := detail - detail % 4
      exec (.faultMessage src kind b detail) s = .next (deliver s (settleAll (raiseFault src k x detail
        (if k = .eccUncorr then { s with eccBad := w :: s.eccBad.filter fun a => a != w } else s))))) ∧
    (∀ (src b detail : Nat) (k : FaultKind) (inj : Option Nat),
      let t := logGB (faultMsg src k .b (some b) detail) (noteB b (faultMsg src k .b (some b) detail) s)
      let u := if k.condition = true ∨ inj.isSome = true then { t with col := { t.col with causes := ⟨src, k, b, inj.isNone, inj.toList⟩ :: t.col.causes } } else t
      raiseB src k b detail inj s = basketFault b (countCauses b u)) ∧
    (∀ b : Nat, s.flag FC_STATUS_G_ACTIVE = true → basketFault b s = s) ∧
    (∀ b : Nat, s.flag FC_STATUS_G_ACTIVE = false → let t := if s.get (BSK_STATUS_STATE b) = 1 then parkSpokes SPK_STATUS_C_BASKET (s.basketSpokes b) s else s
      (s.get (BSK_STATUS_STATE b) = 1 ∨ s.get (BSK_STATUS_STATE b) = 2 →
        (s.get (BSK_STATUS_RECOV b) ≠ 16 → basketFault b s = faultN (startQuiet b (t.put (BSK_STATUS_STATE b) 2))) ∧
        (s.get (BSK_STATUS_RECOV b) = 16 → basketFault b s = faultN (startQuiet b
          (((logInfo .lockedOut (some b) 0 (t.put (BSK_STATUS_STATE b) 3)).put FC_EVENT_LOCKED_OUT 1).put (FC_BSK_EVT_LOCKED_OUT b) 1)))) ∧
      (s.get (BSK_STATUS_STATE b) = 3 → basketFault b s = faultN (startQuiet b s))) ∧
    (∀ b : Nat, b ∈ s.col.quiet → s.flag FC_STATUS_G_ACTIVE = false →
      let t := setQuiet b false (s.put (BSK_STATUS_STATE b) 1)
      let u := { t with col := { t.col with recov := (b, t.elapsed) :: t.col.recov } }
      let n := min 16 (u.col.recov.countP fun r => r.1 == b)
      let v := logInfo .recovered (some b) n ((((u.put (BSK_STATUS_RECOV b) n).incSat (FC_BSK_CNT_RECOV_ALL b)).put FC_EVENT_RECOVERED 1).put (FC_BSK_EVT_RECOVERED b) 1)
      exec (.quietPeriodEnd b) s = .next (deliver s (settleAll (faultN (unparkSpokes SPK_STATUS_C_BASKET (v.basketSpokes b) v))))) ∧
    (∀ b : Nat, let t := { s with col := { s.col with recov := dropLastOf (fun r => r.1 == b) s.col.recov } }
      exec (.recoveryAgeOut b) s = .next (deliver s (t.put (BSK_STATUS_RECOV b) (min 16 (t.col.recov.countP fun r => r.1 == b))))) ∧
    (∀ (src b : Nat) (k : FaultKind) (c : Cause), s.cause? src k b = some c → clearCause src k b s = if c.heldBy = [] then dropCause src k b s else
      { s with col := { s.col with causes := s.col.causes.map fun x => if x = c then { c with detected := false } else x } })

/-- Injected faults: PULSE, HOLD and RELEASE, and the tail of the log (R377, R378, R379): An injection that R378 refuses sets REJ with its reason. An
accepted PULSE of a class B kind with no uncleared cause raises it once, as injected and with DETAIL all ones, and clears a condition's cause at once;
with one uncleared it does nothing; of another class it raises the message. An accepted HOLD with 16 causes held already is refused with reason 6;
otherwise the cause is held by the function (an uncleared one gains the hold, another is raised), DONE is set and HELD counts the function's causes.
RELEASE of a cause that the function holds ends its hold, and the cause with it where nothing else holds it and it is not detected; of one that it
does not hold it is refused with reason 5. A TAIL not past HEAD is taken: the records up to it are consumed and the log goes on; another sets VAL_REJ. -/
def Obligations.InjectionAndLog : Prop :=
  ∀ s : State,
    (∀ m : Nat, let c := if m = 65 then 0 else m
      s.opens m (FC_FORCE_CMD c) false →
      let rej := fun n => (s.put (FC_FORCE_STATUS_REJ c) 1).put (FC_FORCE_STATUS_REASON c) n
      (∀ r, s.forceCheck m = .error r → exec (.faultPulse m) s = .next (deliver s (settleAll (rej r))) ∧ exec (.faultHold m) s = .next (deliver s (settleAll (rej r)))) ∧
      (∀ src k b, s.forceCheck m = .ok (src, k, b) →
        exec (.faultPulse m) s = .next (deliver s (settleAll ((pulse src k b s).put (FC_FORCE_STATUS_DONE c) 1))) ∧
        (16 ≤ s.heldCount m → exec (.faultHold m) s = .next (deliver s (settleAll (rej 6)))) ∧
        (s.heldCount m < 16 → let t := (hold m src k b s).put (FC_FORCE_STATUS_DONE c) 1
          exec (.faultHold m) s = .next (deliver s (settleAll (t.put (FC_FORCE_STATUS_HELD c) (t.heldCount c)))))) ∧
      (∀ src kind b k x, s.forced m = (src, kind, b) → kindOf kind = some k → s.cause? src k b = some x →
        (m ∈ x.heldBy → let t := (releaseCause m x s).put (FC_FORCE_STATUS_DONE c) 1
          exec (.fcRelease m) s = .next (deliver s (settleAll (t.put (FC_FORCE_STATUS_HELD c) (t.heldCount c))))) ∧
        (m ∉ x.heldBy → exec (.fcRelease m) s = .next (deliver s (settleAll (rej 5)))))) ∧
    (∀ (src b : Nat) (k : FaultKind), k.cls true = .b →
      (s.cause? src k b = none → let t := raiseB src k b 0xFFFFFFFF none s
        pulse src k (some b) s = if k.condition then dropCause src k b t else t) ∧
      (∀ x, s.cause? src k b = some x → pulse src k (some b) s = s) ∧
      (∀ m, s.cause? src k b = none → hold m src k (some b) s = raiseB src k b 0xFFFFFFFF (some m) s)) ∧
    (∀ (m : Nat) (x : Cause), let h := x.heldBy.filter fun y => y != m
      releaseCause m x s = countCauses x.basket (if h = [] ∧ x.detected = false then dropCause x.source x.kind x.basket s
        else { s with col := { s.col with causes := s.col.causes.map fun y => if y = x then { x with heldBy := h } else y } })) ∧
    (∀ (m : Nat) (v : Word), s.opens m FC_LOG_TAIL false → let x := v.toNat % 65536
      let past := (s.get FC_LOG_HEAD_HEAD + 65536 - s.get FC_LOG_TAIL_TAIL) % 65536 < (x + 65536 - s.get FC_LOG_TAIL_TAIL) % 65536
      (¬past → exec (.fcLogTailWrite m v) s = .next (deliver s (logResume (logLevel (storeRw m FC_LOG_TAIL v s))))) ∧
      (past → exec (.fcLogTailWrite m v) s = .next (deliver s (s.put FC_EVENT_VAL_REJ 1))))

/-- Trips, rails, brown-out, and the start-up up to plan-ready (R342, R358, R366, R384, R385, R386, R390, R392, R393, R417): Once released, a supply trip
raises its class G fault with the rail, 256 more where it is over; a sensor at 115.0 degrees raises THERMAL and one at 105.0 THERMAL_WARN, its reading
stored and MAX raised to it. Before release, a rail that has been good for 1 ms shows so, VDD_IO's (rail 6) starting the sideband's registers afresh;
a rail that drops shows so and the straps settle again. The stage in reset is 1 where every rail is good, else 0. A brown-out returns the hub to its
cold state, in which only NVM, fuses, the sideband (unless the rail is VDD_IO's own), PLAN_MIN_SEQ and OPTIME live on, and loads its identity from the
fuses. Reset release needs every rail good and all eight straps settled, and runs the start-up; a class G fault found in its first checks ends it
there. Plan-ready, in stage 2 with the writer idle and no boot plan under way, shows READY, stage 3 and the time (up to 65,535), opens configuration,
rechecks every record and, unless the start was clean, queues the repair map. -/
def Obligations.RailsAndStartUp : Prop :=
  ∀ s : State,
    (2 ≤ s.get DEV_SB_STATUS_STAGE →
      (∀ (r : Nat) (high : Bool), r < 8 → exec (.supplyTrip r high) s = .next (deliver s (settleAll (raiseFault srcSupply .supply none (r + if high then 256 else 0) s)))) ∧
      (∀ (i : Nat) (tj : Int), i < 16 → let t := s.put (PWR_TEMP_TJ i) (unsigned 12 tj)
        let u := if signed 12 (t.get (PWR_TEMP_MAX i)) < tj then t.put (PWR_TEMP_MAX i) (unsigned 12 tj) else t
        (1150 ≤ tj → exec (.thermalTrip i tj) s = .next (deliver s (settleAll (raiseFault srcThermal .thermal none (i + 65536 * unsigned 16 tj) u)))) ∧
        (1050 ≤ tj → exec (.thermalWarn i tj) s = .next (deliver s (settleAll (raiseFault srcThermal .thermalWarn none (i + 65536 * unsigned 16 tj) u)))))) ∧
    (s.get DEV_SB_STATUS_STAGE < 2 →
      (∀ r < 8, s.flag ⟨DEV_SB_RAILS, r, 1⟩ = false → let t := if r = 6 then (sidebandUp s).put DEV_SB_RAILS_GOOD (s.get DEV_SB_RAILS_GOOD) else s
        exec (.railGood r) s = .next (deliver s (faultN (resetStage (t.put ⟨DEV_SB_RAILS, r, 1⟩ 1))))) ∧
      (∀ r < 8, let t := s.put ⟨DEV_SB_RAILS, r, 1⟩ 0
        exec (.railDrop r) s = .next (deliver s (faultN (resetStage ({ t with pwr := { t.pwr with steady := [] } }.put DEV_SB_STRAP_STABLE 0))))) ∧
      (∀ (r : SelfTest) (nvm : Option Nat), s.railsGood = true → s.flag DEV_SB_STRAP_STABLE = true → (∀ j < 8, 100 ≤ tabGet (fun _ => 0) s.pwr.steady j) →
        exec (.resetRelease r nvm) s = .next (deliver s (settleAll (startUp r nvm s))))) ∧
    (resetStage s = s.put DEV_SB_STATUS_STAGE (if s.railsGood then 1 else 0)) ∧
    (∀ r < 8, let t := coldState s
      let u := { t with pwr := { t.pwr with steady := [] } }.put DEV_SB_STRAP_STABLE 0
      let v := if r = 6 then sidebandUp u else u
      exec (.brownOut r) s = .next (deliver s (faultN (loadIdentity (lcRefresh (resetStage ((v.put DEV_SB_RAILS_GOOD (s.get DEV_SB_RAILS_GOOD)).put ⟨DEV_SB_RAILS, r, 1⟩ 0))))))) ∧
    (∀ a : Nat, (coldState s).regs = s.regs.filter (fun c => decide (0x3F000000 ≤ c.1) || c.1 == PLAN_MIN_SEQ || c.1 == BIST_OPTIME) ∧
      (coldState s).nvm = s.nvm ∧ (coldState s).fuses = s.fuses ∧ (coldState s).sb = s.sb ∧ (coldState s).mem = [] ∧ (coldState s).plan = none ∧
      (coldState s).hops = [] ∧ (coldState s).byte a = State.reset.byte a) ∧
    (∀ (r : SelfTest) (nvm : Option Nat), let t := startChecks nvm s
      let u := startTest r (t.put PWR_START_KIND t.startKind)
      startUp r nvm s = if t.flag FC_STATUS_G_ACTIVE = true then t else if u.flag FC_STATUS_G_ACTIVE = true then u else loadStores u) ∧
    (∀ (time : Nat) (paused : Bool), s.get DEV_SB_STATUS_STAGE = 2 → s.nvmRun = none → s.nvmQueue = [] → s.get PLAN_STATUS_STATE ≠ 2 → s.get PLAN_STATUS_STATE ≠ 6 →
      let t := ((s.put DEV_SB_STATUS_STAGE 3).put DEV_SB_EVENT_READY 1).put PWR_STATUS_STAGE 3
      let u := (t.put PWR_START_TIME (min time 65535)).put PWR_START_PAUSED (if paused then 1 else 0)
      let v := eachDo allRecords recheckRecord (completeErasure { u with host := { u.host with ready := true } })
      exec (.planReady time paused) s = .next (deliver s (settleAll (if v.get PWR_START_KIND = 1 then v else queueMap v))))

/-- The pace governor's levels, the shutdown, and the peaks (R397, R398, R399, R400, R401, R402, R403, R404, R405): From plan-ready on, a droop of sensor
i (d in 0.5 mV) is stored with its baseline, PEAK follows, and the measured level rises to the highest whose threshold 2 T it reaches; a step down
takes it down by one. The level in force is the higher of the measured and the forced one; FORCED shows a forced one that is higher; an entry into
level 1, 2 or 3 is counted and 3 raises its fault and event, a rise sets LEVEL_UP, and the time at level 2 or more is added at its end. SHUTDOWN in
stage 3 with no load and no class G fault drops the plan, runs the self-test unless FULL_NEXT, and, where no class G fault came of it, queues the
repair map and, unless FULL_NEXT, the CLEAN marker; otherwise CMD_REJ. The halt comes in stage 4, with no class G fault, once the writes are done.
CLEAR_PEAK takes every MIN, MAX and PEAK to its present reading. -/
def Obligations.PaceAndShutdown : Prop :=
  ∀ s : State,
    (∀ i d base : Nat, i < 64 → d < 256 → base < 4096 → 3 ≤ s.get DEV_SB_STATUS_STAGE →
      let t := (s.put (PWR_DROOP_NOW i) d).put (PWR_DROOP_BASE i) base
      let u := t.put (PWR_DROOP_PEAK i) (max d (t.get (PWR_DROOP_PEAK i)))
      exec (.droopCrossing i d base) s = .next (deliver s (settleAll (paceTo i { u with pwr := { u.pwr with pace := max u.pwr.pace (u.droopLevel d) } })))) ∧
    (∀ d : Nat, (2 * s.get PWR_PACE_CFG_T3 ≤ d → s.droopLevel d = 3) ∧
      (d < 2 * s.get PWR_PACE_CFG_T3 → 2 * s.get PWR_PACE_CFG_T2 ≤ d → s.droopLevel d = 2) ∧
      (d < 2 * s.get PWR_PACE_CFG_T3 → d < 2 * s.get PWR_PACE_CFG_T2 → s.droopLevel d = if 2 * s.get PWR_PACE_CFG_T1 ≤ d then 1 else 0)) ∧
    (s.pwr.pace ≠ 0 → exec .paceStepDown s = .next (deliver s (settleAll (paceTo 0 { s with pwr := { s.pwr with pace := s.pwr.pace - 1 } })))) ∧
    (∀ (m : Nat) (v : Word), s.opens m PWR_PACE_FORCE true → let t := storeRw m PWR_PACE_FORCE v s
      exec (.pwrPaceForceWrite m v) s = .next (deliver s (settleAll (paceTo (Config.freeNat t.freeCtr % 64) { t with freeCtr := t.freeCtr + 1 })))) ∧
    (∀ sensor : Nat, s.get PWR_STATUS_LEVEL = 0 → s.pwr.pace = 1 → s.get PWR_PACE_FORCE_LEVEL = 0 → s.pwr.since = none →
      let t := ((s.put PWR_STATUS_LEVEL 1).put RING_CAP_PACE 1).put PWR_STATUS_FORCED 0
      let u := (t.incMod PWR_PACE_CNT_L1).put PWR_EVENT_LEVEL_UP 1
      paceTo sensor s = eachDo (u.units.map (·.1)) showUnit u) ∧
    (∀ (m : Nat) (r : SelfTest), s.opens m PWR_CMD true →
      let may := s.get PWR_STATUS_STAGE = 3 ∧ s.get PLAN_STATUS_STATE = 0 ∧ s.flag FC_STATUS_G_ACTIVE = false
      (¬may → exec (.shutdown m r) s = .next (deliver s (settleAll (s.put PWR_EVENT_CMD_REJ 1)))) ∧
      (may → let t := dropPlan (s.put PWR_STATUS_STAGE 4)
        let full := t.flag BIST_STATUS_FULL_NEXT
        let u := if full then t else selfTest false r t
        exec (.shutdown m r) s = .next (deliver s (settleAll (if u.flag FC_STATUS_G_ACTIVE then u else
          { u.put BIST_MAP_STATUS_PENDING 1 with nvmQueue := u.nvmQueue.filter (fun g => g != 7) ++ [7] ++ if full then [] else [6] }))))) ∧
    (s.get PWR_STATUS_STAGE = 4 → s.flag FC_STATUS_G_ACTIVE = false → s.nvmRun = none → s.nvmQueue = [] →
      exec .shutdownHalt s = .next (deliver s ((s.put PWR_STATUS_STAGE 5).put PWR_EVENT_SHUT_DONE 1))) ∧
    (∀ m : Nat, s.opens m PWR_CMD true →
      let t := eachDo (List.range 8) (fun r u => u.put (PWR_RAIL_MIN r) (u.get (PWR_RAIL_NOW r))) s
      let u := eachDo (List.range 16) (fun i u => u.put (PWR_TEMP_MAX i) (u.get (PWR_TEMP_TJ i))) t
      exec (.clearPeak m) s = .next (deliver s (eachDo (List.range 64) (fun i v => v.put (PWR_DROOP_PEAK i) (v.get (PWR_DROOP_NOW i))) u)))

/-- The self-test's and the repair map's commands, and the steps of a splice (R131, R405, R417, R421, R422, R423): FULL_NEXT and CANCEL_FULL set and clear
FULL_NEXT. STORE_MAP, and the write within 1 s of a change (PENDING), set PENDING and queue the repair map once. A write of WAL_SPLICE keeps its
reserved bits; without GO it has no more effect; with GO for a strand that is unbound, whose wale's spare is not FREE, whose wale splices already, or
whose rim is in a locked hitless migration, it sets SPLICE_REJ; otherwise the splice begins, or waits for a load that includes the strand. At the
strand's boundary the spare shadows it, or goes straight to handover where the strand is not ready through its residual. The alignment takes 256 to
4,096 pairs, subtracts their mean difference by the wale's check TDC, rounded to U, and goes to verification, one try more. A verification of as many
pairs passes with a mean of at most 20 fs and an rms of at most RMS_LIM in 10 fs, and goes to handover; a first failure repeats the alignment; a
second ends the splice with the spare failed. The handover moves the strand by the sum and completes the splice. -/
def Obligations.RepairAndSplices : Prop :=
  ∀ s : State,
    (∀ m : Nat, s.opens m BIST_CMD true →
      exec (.fullNext m) s = .next (deliver s (s.put BIST_STATUS_FULL_NEXT 1)) ∧ exec (.cancelFull m) s = .next (deliver s (s.put BIST_STATUS_FULL_NEXT 0)) ∧
      exec (.storeMap m) s = .next (deliver s (settleAll (queueMap s)))) ∧
    (s.flag BIST_MAP_STATUS_PENDING = true → exec .repairMapWriteStart s = .next (deliver s (settleAll (queueMap s)))) ∧
    (let t := s.put BIST_MAP_STATUS_PENDING 1
     (7 ∈ s.nvmQueue → queueMap s = t) ∧ (7 ∉ s.nvmQueue → queueMap s = { t with nvmQueue := t.nvmQueue ++ [7] })) ∧
    (∀ (m : Nat) (v : Word), s.opens m WAL_SPLICE true → let k := v.toNat % 1024
      let t := keepRsvl m WAL_SPLICE v s
      let may := t.spliceOk k = true ∧ (t.strand k).bound = true
      (v.toNat < 2 ^ 31 → exec (.walSpliceGo m v) s = .next (deliver s (settleAll t))) ∧
      (2 ^ 31 ≤ v.toNat → ¬may → exec (.walSpliceGo m v) s = .next (deliver s (settleAll (t.put (WAL_EVENT_SPLICE_REJ (k / 16)) 1)))) ∧
      (2 ^ 31 ≤ v.toNat → may → exec (.walSpliceGo m v) s = .next (deliver s (settleAll
        (if t.loadIncludesStrand k then { t with spliceWait := k :: t.spliceWait.filter fun j => j != k } else spliceBegin k t))))) ∧
    (∀ k : Nat, s.spliceOk k = true ↔ s.get (WAL_SPARE_STATE (k / 16)) = 0 ∧ s.splice? (k / 16) = none ∧
      ∀ n g, s.waleRim (k / 16) = some n → (s.rim n).mig = some g → g.hitless = false ∨ g.locked = false) ∧
    (∀ (w : Nat) (x : Splice), s.splice? w = some x → let go := fun y => Host.Outcome.next (deliver s (settleAll (setSplice w y s)))
      (x.phase = .waitShadow → exec (.spliceShadowStart w) s = go { x with phase := if x.parked then .handover else .shadow }) ∧
      (∀ pairs : List (Nat × Nat), 256 ≤ pairs.length → pairs.length ≤ 4096 →
        let l := pairs.map fun p => nearZero (tdcTime (s.tdcBins w) p.1 - tdcTime (s.tdcBins w) p.2)
        let per := l.length * 2 ^ 23 * 1750000000 * s.waleWord w
        let pass := l.sum.natAbs * (10 ^ 15 * 2 ^ 32) ≤ 20 * per ∧
          (l.length * (l.map fun x => x * x).sum - l.sum * l.sum) * (10 ^ 15 * 2 ^ 32) ^ 2 ≤ ((10 * s.get WAL_CHECK_CFG_RMS_LIM * per : Nat) : Int) ^ 2
        (x.phase = .shadow → exec (.spliceAlignEnd w pairs) s =
          go { x with phase := .verify, tries := x.tries + 1, delta := x.delta - roundAway (l.sum * 2 ^ 29) l.length }) ∧
        (x.phase = .verify →
          (pass → exec (.spliceVerifyEnd w pairs) s = go { x with phase := .handover }) ∧
          (¬pass → x.tries < 2 → exec (.spliceVerifyEnd w pairs) s = go { x with phase := .shadow }) ∧
          (¬pass → 2 ≤ x.tries → exec (.spliceVerifyEnd w pairs) s = .next (deliver s (settleAll (spliceFail w s)))))) ∧
      (x.phase = .handover → exec (.spliceHandover w) s = .next (deliver s (settleAll (spliceDone x.strand (shiftStrand true x.delta x.strand s))))))

/-- The life-cycle state that the fuses name, and what LC_STATUS shows of it (R428): The field is bits 4:0 of fuse words 0 and 1, and a bit of it counts
as blown where either copy reads it blown. With no bit blown the state is BLANK (0); with bit b the highest blown one it is b + 1, from FACTORY (1)
for bit 0 to RETIRED (5) for bit 4, whichever lower bits are blown. The refresh that the hub makes of LC_STATUS at a start and after every transition
shows this state, and sets GAP exactly where a bit below the highest blown one is unblown; the hub's state for every rule is the one shown. So fuse
defects that blow further bits of the field never lower the state. -/
def Obligations.LifeCycleState : Prop :=
  ∀ s : State, let blown := fun (b : Nat) => (s.fuse 0).getLsbD b || (s.fuse 1).getLsbD b
    ((∀ b < 5, blown b = false) → s.fusedState = 0) ∧
    (∀ b < 5, blown b = true → (∀ c < 5, b < c → blown c = false) → s.fusedState = b + 1) ∧
    (lcRefresh s).get LC_STATUS_STATE = s.fusedState ∧ (lcRefresh s).lcState = s.fusedState ∧
    ((lcRefresh s).flag LC_STATUS_GAP = true ↔ ∃ b c, b < c ∧ c < 5 ∧ blown c = true ∧ blown b = false) ∧
    (∀ (w : Nat) (v : Word), w < 2 → s.fusedState ≤ (blow w v s).fusedState)

/-- The life-cycle commands, how they end, and the fuses' own command (R429, R430, R431, R432, R433, R434, R435, R441): A command of the keeper is
refused, with its REASON, for the first reason of R432 that holds, and changes nothing else but its arguments, which clear. RET_NONCE accepted puts a
fresh nonce in place and is done. Another accepted one is BUSY with its arguments, the nonce and the token as they stand; a load in progress ends at
once unless the command waits for a token or is REVOKE. A command ends: RETURN spends its nonce; with a token that the vendor key did not sign over
the nonce, SERIAL and 0x52 it is refused with reason 4, and again for 1 s; RETURN and RETIRE drop the plan; with every fuse good the keys, then both
copies of the state or revocation bit are blown, LC_STATUS follows, a transition (not REVOKE) detaches the keeper, ends a load and a debug session,
RETURN and RETIRE erase, and it is DONE; with a word that fails it ends there. A nonce of 3,600 s is gone. A fuse read gives the word, zero for the
plan key (words 80 to 87); PROGRAM blows the bits of LC_FUSE_DATA in FACTORY, from word 88 on, and is otherwise refused. -/
def Obligations.LifeCycleCommands : Prop :=
  ∀ s : State,
    (∀ (m : Nat) (v : Word) (n : Nat) (c : Instr), s.opens m LC_CMD true →
      (n, c) ∈ ([(1, .enterFactory m v), (2, .provision m v), (3, .enterField m v), (4, .retNonce m v), (5, .lcReturn m v), (6, .lcRetire m v), (7, .lcRevoke m v)] : List (Nat × Instr)) →
      let slot := v.toNat / 16 % 2
      let z := keepRsvl m LC_CMD v s
      let job : LcJob := ⟨n, slot, (List.range 56).map z.lcArg, (List.range 12).map fun i => z.reg (LC_NONCE i), (List.range 24).map fun i => z.opnd (LC_TOKEN i)⟩
      (∀ why, lcReason n slot (v.toNat / 256 % 256) z = some why → exec c s = .next (deliver s (settleAll (clearArgs ((z.put LC_STATUS_REASON why).put LC_EVENT_REJ 1))))) ∧
      (lcReason n slot (v.toNat / 256 % 256) z = none → let t := { z.put LC_STATUS_BUSY 1 with lc := { z.lc with job := some job } }
        (n = 4 → exec c s = .next (deliver s (settleAll (retNonce z)))) ∧
        (n = 5 ∨ n = 7 → exec c s = .next (deliver s (settleAll t))) ∧
        (n ≠ 4 → n ≠ 5 → n ≠ 7 → exec c s = .next (deliver s (settleAll (abortLoad 0x84 t)))))) ∧
    (∀ (n slot confirm : Nat), lcReason n slot confirm s = none → s.moveOk n = true ∧ s.keeperKeyOk n slot = true ∧ (n = 4 ∨ confirm = 0xC3) ∧ s.flag LC_STATUS_BUSY = false) ∧
    (∀ j : LcJob, s.lc.job = some j → let t := if j.code = 5 then dropRetNonce s else s
      let token := s.verifies 2 (wordBytes j.nonce ++ s.serialBytes ++ [0x52]) j.token
      (j.code = 5 → token = false → ∀ bad, exec (.lcCommandDone bad) s = .next (deliver s (settleAll (tokenFails t)))) ∧
      (j.code ≠ 5 ∨ token = true → let u := if j.code = 5 ∨ j.code = 6 then dropPlan t else t
        let v := lcRefresh (eachDo (keyWrites j.code (fun i => j.args.getD i 0) ++ stateWrites j.code j.slot) (fun e x => blow e.1 e.2 x) u)
        let x := if j.code = 7 then v else transition v
        exec (.lcCommandDone none) s = .next (deliver s (settleAll (lcOver ((if j.code = 5 ∨ j.code = 6 then erase x else x).put LC_EVENT_DONE 1)))) ∧
        (∀ w, (lcWrites j).any (fun e => e.1 == w) = true → exec (.lcCommandDone (some w)) s = .next (deliver s (settleAll (lcFuseFail j w u)))))) ∧
    (let t := keeperState 0 s
     transition s = (abortLoad 0x84 { t with keeper := { t.keeper with back := 0 } }).put LC_DBG_STATUS_LEVEL 0) ∧
    exec .returnNonceExpire s = .next (deliver s (eachDo (List.range 12) (fun i t => t.setReg (LC_NONCE i) 0) (s.put LC_STATUS_NONCE_VALID 0))) ∧
    exec .tokenRefusalEnd s = .next (deliver s { s with lc := { s.lc with refuse := false } }) ∧
    (∀ (m : Nat) (ok : Bool), s.opens m LC_FUSE_CMD true → let w := s.get LC_FUSE_ADDR_WORD
      exec (.fuseRead m) s = .next (deliver s ((s.setReg LC_FUSE_DATA (if 80 ≤ w ∧ w < 88 then 0 else s.fuse w)).put LC_EVENT_FUSE_DONE 1)) ∧
      (s.get LC_STATUS_STATE = 1 → 88 ≤ w → exec (.fuseProgram m true) s = .next (deliver s (settleAll ((blow w (s.reg LC_FUSE_DATA) s).put LC_EVENT_FUSE_DONE 1))) ∧
        exec (.fuseProgram m false) s = .next (deliver s (settleAll (fuseFails (w, s.reg LC_FUSE_DATA) s)))) ∧
      (s.get LC_STATUS_STATE ≠ 1 ∨ w < 88 → exec (.fuseProgram m ok) s = .next (deliver s (settleAll (s.put LC_EVENT_FUSE_REJ 1)))))

/-- The test access port's instructions and the authenticated debug session (R436, R437, R438, R439, R440): While VDD_IO is good: IDCODE (0x01) gives the
identification register, SAMPLE/PRELOAD (0x02) passes the 3,164 boundary cells, what comes out being a free value (DESIGN CHOICE), BYPASS takes 0xFF,
and TEST_LOGIC_RESET takes IDCODE and ends a debug session. The pin-taking instructions (0x03 to 0x07) are allowed unless the part is PROVISIONED or
in FIELD with a plan in force, SCAN_NS and SCAN_SEC (0x20, 0x21) as R436 says; one that is not allowed takes BYPASS and sets JTAG_REJ. A scan
instruction marks the core's state as destroyed and shows SCANNING. DBG_CHAL gives a fresh nonce of 384 bits, or zeros while refused. DBG_RESP spends
the nonce: a signature over the nonce, SERIAL and 0x44 that verifies, in FIELD, under a usable slot opens the session; another counts a failure and
refuses for 1 s. DBG_STATUS gives its register. A nonce of 10 s is gone. -/
def Obligations.TestAccess : Prop :=
  ∀ s : State,
    (s.vddIoGood = true →
      exec .idcode s = .next (deliver s ((tapLoad 0x01 s).emit (.tdo 32 (s.reg LC_IDCODE).toNat))) ∧
      (∀ cells : Nat, exec (.samplePreload cells) s = .next (deliver s (boundaryScan cells (tapLoad 0x02 s)))) ∧
      exec .jtagBypass s = .next (deliver s (tapLoad 0xFF s)) ∧
      exec .testLogicReset s = .next (deliver s ((tapLoad 0x01 s).put LC_DBG_STATUS_LEVEL 0)) ∧
      exec .dbgStatus s = .next (deliver s ((tapLoad 0x12 s).emit (.tdo 32 ((tapLoad 0x12 s).reg LC_DBG_STATUS).toNat))) ∧
      (let rej := (tapLoad 0xFF s).put LC_EVENT_JTAG_REJ 1
       (∀ (cells n : Nat) (c : Instr), (n, c) ∈ ([(3, .extest cells), (6, .extestPulse cells), (7, .extestTrain cells)] : List (Nat × Instr)) →
        exec c s = .next (deliver s (if s.pinsOk then boundaryScan cells (tapLoad n s) else rej))) ∧
       exec .jtagClamp s = .next (deliver s (if s.pinsOk then tapLoad 4 s else rej)) ∧
       exec .highz s = .next (deliver s (if s.pinsOk then tapLoad 5 s else rej)) ∧
       exec .scanNs s = .next (deliver s (if s.scanNsOk then tapLoad 0x20 s else rej)) ∧
       exec .scanSec s = .next (deliver s (if s.scanSecOk then tapLoad 0x21 s else rej))) ∧
      (let t := tapLoad 0x10 s
       (s.tap.refuse = true → exec .dbgChal s = .next (deliver s (t.emit (.tdo 384 0)))) ∧
       (s.tap.refuse = false → let ws := (List.range 12).map fun j => (Config.freeWords s.freeCtr).getD j 0
        exec .dbgChal s = .next (deliver s ({ t with freeCtr := s.freeCtr + 1, tap := { t.tap with nonce := some ws } }.emit (.tdo 384 (wordsNat ws)))))) ∧
      (∀ (key : Nat) (sig : List Word), let t := tapLoad 0x11 s
        let good := s.get LC_STATUS_STATE = 3 ∧ s.flag ⟨LC_STATUS, 13 + key % 2, 1⟩ = true ∧
          ∃ ws, s.tap.nonce = some ws ∧ s.verifies (key % 2) (wordBytes ws ++ s.serialBytes ++ [0x44]) sig = true
        let u := { t with tap := { t.tap with nonce := none } }
        (good → exec (.dbgResp key sig) s = .next (deliver s ((u.put LC_DBG_STATUS_LEVEL 1).put LC_EVENT_DBG_AUTH 1))) ∧
        (¬good → let v := (u.incSat LC_DBG_STATUS_FAILS).put LC_EVENT_DBG_FAIL 1
          exec (.dbgResp key sig) s = .next (deliver s { v with tap := { v.tap with refuse := true } })))) ∧
    (∀ n : Nat, let t := { s with tap := { s.tap with ir := n, scanned := s.tap.scanned || (n == 0x20 || n == 0x21) } }
      tapLoad n s = t.put LC_DBG_STATUS_SCANNING (if n = 0x20 ∨ n = 0x21 then 1 else 0)) ∧
    (∀ cells : Nat, boundaryScan cells s =
      { s with freeCtr := s.freeCtr + 1, tap := { s.tap with cells := cells % 2 ^ 3164 } }.emit (.tdo 3164 (Config.freeNat s.freeCtr % 2 ^ 3164))) ∧
    (s.pinsOk = false ↔ (s.get LC_STATUS_STATE = 2 ∨ s.get LC_STATUS_STATE = 3) ∧ s.plan.isSome = true) ∧
    exec .dbgNonceExpire s = .next (deliver s { s with tap := { s.tap with nonce := none } }) ∧
    exec .dbgRefusalEnd s = .next (deliver s { s with tap := { s.tap with refuse := false } })
end

