-- ==== Sys2Proof/Laws/Tables.lean ====
section
/-! SUPPORT. The laws of the sparse tables: a read after a write, and the canonical form that every write keeps. -/

namespace Sys2Proof.Machine

variable {α : Type}

theorem rising_iff_pairwise (m : List (Nat × α)) : rising m = true ↔ m.Pairwise fun a b => a.1 < b.1 := by
  induction m with
  | nil => simp [rising]
  | cons a r ih =>
    cases r with
    | nil => simp [rising]
    | cons b q =>
      simp only [rising, Bool.and_eq_true, decide_eq_true_eq, ih]
      constructor
      · rintro ⟨h, hp⟩
        refine List.pairwise_cons.2 ⟨fun c hc => ?_, hp⟩
        rcases List.mem_cons.1 hc with rfl | hc
        · exact h
        · exact lt_trans h ((List.pairwise_cons.1 hp).1 c hc)
      · intro h
        exact ⟨(List.pairwise_cons.1 h).1 b (by simp), (List.pairwise_cons.1 h).2⟩

theorem tabWf_iff [DecidableEq α] (d : Nat → α) (m : List (Nat × α)) :
    tabWf d m = true ↔ (m.Pairwise fun a b => a.1 < b.1) ∧ ∀ c ∈ m, c.2 ≠ d c.1 := by
  simp [tabWf, rising_iff_pairwise]

theorem tabWf_filter [DecidableEq α] (d : Nat → α) (m : List (Nat × α)) (p : Nat × α → Bool) (h : tabWf d m = true) :
    tabWf d (m.filter p) = true := by
  rw [tabWf_iff] at *
  exact ⟨h.1.filter p, fun c hc => h.2 c (List.mem_filter.1 hc).1⟩

theorem mem_tabIns (k : Nat) (x : α) (m : List (Nat × α)) (c : Nat × α) : c ∈ tabIns k x m ↔ c = (k, x) ∨ c ∈ m := by
  induction m with
  | nil => simp [tabIns]
  | cons b r ih =>
    simp only [tabIns]
    split
    · simp
    · simp only [List.mem_cons, ih]
      tauto

theorem tabIns_pairwise (k : Nat) (x : α) (m : List (Nat × α)) (hk : ∀ c ∈ m, c.1 ≠ k) (h : m.Pairwise fun a b => a.1 < b.1) :
    (tabIns k x m).Pairwise fun a b => a.1 < b.1 := by
  induction m with
  | nil => simp [tabIns]
  | cons b r ih =>
    have hb := List.pairwise_cons.1 h
    simp only [tabIns]
    split
    · next hlt =>
      refine List.pairwise_cons.2 ⟨fun c hc => ?_, h⟩
      rcases List.mem_cons.1 hc with rfl | hc
      · exact hlt
      · exact lt_trans hlt (hb.1 c hc)
    · next hge =>
      refine List.pairwise_cons.2 ⟨fun c hc => ?_, ih (fun c hc => hk c (List.mem_cons_of_mem b hc)) hb.2⟩
      rcases (mem_tabIns k x r c).1 hc with rfl | hc
      · have := hk b (by simp)
        simp only
        omega
      · exact hb.1 c hc

/-- A write keeps the canonical form. -/
theorem tabWf_tabSet [DecidableEq α] (d : Nat → α) (m : List (Nat × α)) (k : Nat) (x : α) (h : tabWf d m = true) :
    tabWf d (tabSet d m k x) = true := by
  have hf := tabWf_filter d m (fun c => c.1 ≠ k) h
  simp only [tabSet]
  split
  · exact hf
  · next hx =>
    rw [tabWf_iff] at *
    refine ⟨tabIns_pairwise k x _ (fun c hc => by simpa using (List.mem_filter.1 hc).2) hf.1, fun c hc => ?_⟩
    rcases (mem_tabIns k x _ c).1 hc with rfl | hc
    · exact hx
    · exact hf.2 c hc

theorem tabGet_tabIns_self (d : Nat → α) (m : List (Nat × α)) (k : Nat) (x : α) (hk : ∀ c ∈ m, c.1 ≠ k) : tabGet d (tabIns k x m) k = x := by
  induction m with
  | nil => simp [tabIns, tabGet]
  | cons b r ih =>
    have hb := hk b (by simp)
    simp only [tabIns]
    split
    · simp [tabGet]
    · simp [tabGet, hb, ih fun c hc => hk c (List.mem_cons_of_mem b hc)]

theorem tabGet_tabIns_ne (d : Nat → α) (m : List (Nat × α)) (k j : Nat) (x : α) (hj : j ≠ k) : tabGet d (tabIns k x m) j = tabGet d m j := by
  induction m with
  | nil => simp [tabIns, tabGet, hj.symm]
  | cons b r ih =>
    simp only [tabIns]
    split
    · simp [tabGet, hj.symm]
    · simp [tabGet, ih]

theorem tabGet_filter_self (d : Nat → α) (m : List (Nat × α)) (k : Nat) : tabGet d (m.filter fun c => c.1 ≠ k) k = d k := by
  induction m with
  | nil => rfl
  | cons b r ih =>
    by_cases hb : b.1 = k
    · simpa [List.filter_cons, hb] using ih
    · simpa [List.filter_cons, hb, tabGet] using ih

theorem tabGet_filter_ne (d : Nat → α) (m : List (Nat × α)) (k j : Nat) (hj : j ≠ k) :
    tabGet d (m.filter fun c => c.1 ≠ k) j = tabGet d m j := by
  induction m with
  | nil => rfl
  | cons b r ih =>
    by_cases hb : b.1 = k
    · have : b.1 ≠ j := fun h => hj (h ▸ hb)
      simpa [List.filter_cons, hb, tabGet, this, hj.symm] using ih
    · by_cases hc : b.1 = j
      · simp [tabGet, hc, hj]
      · simpa [List.filter_cons, hb, tabGet, hc] using ih

/-- A read after a write to the same key gives what was written. -/
@[simp] theorem tabGet_tabSet_self [DecidableEq α] (d : Nat → α) (m : List (Nat × α)) (k : Nat) (x : α) :
    tabGet d (tabSet d m k x) k = x := by
  simp only [tabSet]
  split
  · next h => rw [tabGet_filter_self, h]
  · exact tabGet_tabIns_self d _ k x fun c hc => by simpa using (List.mem_filter.1 hc).2

/-- A write leaves every other key alone. -/
theorem tabGet_tabSet_ne [DecidableEq α] (d : Nat → α) (m : List (Nat × α)) (k j : Nat) (x : α) (hj : j ≠ k) :
    tabGet d (tabSet d m k x) j = tabGet d m j := by
  simp only [tabSet]
  split
  · exact tabGet_filter_ne d m k j hj
  · rw [tabGet_tabIns_ne d _ k j x hj, tabGet_filter_ne d m k j hj]

theorem tabGet_tabSet [DecidableEq α] (d : Nat → α) (m : List (Nat × α)) (k j : Nat) (x : α) :
    tabGet d (tabSet d m k x) j = if j = k then x else tabGet d m j := by
  split
  · next h => rw [h, tabGet_tabSet_self]
  · next h => exact tabGet_tabSet_ne d m k j x h

end Sys2Proof.Machine
end

