-- ==== Sys2Proof/Laws/Fields.lean ====
section
/-! SUPPORT. The laws of registers, of their fields and of the stores: a read after a write, and what a write leaves alone. -/

namespace Sys2Proof.Machine

/-! ## Bits of a word -/

/-- What `withBits` makes, part by part: the bits above the field, the field, and the bits below. -/
theorem withBits_toNat (v : Word) (lo w x : Nat) (h : lo + w ≤ 32) :
    (withBits v lo w x).toNat = v.toNat / 2 ^ (lo + w) * 2 ^ (lo + w) + x % 2 ^ w * 2 ^ lo + v.toNat % 2 ^ lo := by
  have hv := v.isLt
  have h1 := Nat.div_add_mod v.toNat (2 ^ lo)
  have h2 := Nat.div_add_mod (v.toNat / 2 ^ lo) (2 ^ w)
  have h3 : v.toNat / 2 ^ lo / 2 ^ w = v.toNat / 2 ^ (lo + w) := by rw [Nat.div_div_eq_div_mul, ← pow_add]
  have hx := Nat.mod_lt x (Nat.two_pow_pos w)
  have hl := Nat.mod_lt v.toNat (Nat.two_pow_pos lo)
  have hq : v.toNat / 2 ^ (lo + w) + 1 ≤ 2 ^ (32 - (lo + w)) :=
    Nat.div_lt_of_lt_mul (by rw [← pow_add, Nat.add_sub_cancel' h]; exact hv)
  have hp : 2 ^ (32 - (lo + w)) * 2 ^ (lo + w) = 2 ^ 32 := by rw [← pow_add, Nat.sub_add_cancel h]
  rw [h3] at h2
  have hn : v.toNat = v.toNat / 2 ^ (lo + w) * 2 ^ (lo + w) + v.toNat / 2 ^ lo % 2 ^ w * 2 ^ lo + v.toNat % 2 ^ lo := by
    conv_lhs => rw [← h1, ← h2]
    rw [pow_add]
    ring
  have hm : v.toNat / 2 ^ lo % 2 ^ w * 2 ^ lo ≤ v.toNat := by omega
  have hb : (v.toNat / 2 ^ (lo + w) + 1) * 2 ^ (lo + w) ≤ 2 ^ 32 := hp ▸ Nat.mul_le_mul_right _ hq
  have hf : x % 2 ^ w * 2 ^ lo + v.toNat % 2 ^ lo < 2 ^ (lo + w) := by
    have : (x % 2 ^ w + 1) * 2 ^ lo ≤ 2 ^ w * 2 ^ lo := Nat.mul_le_mul_right _ hx
    rw [pow_add, Nat.mul_comm (2 ^ lo)]
    rw [Nat.add_mul] at this
    omega
  rw [Nat.add_mul] at hb
  simp only [withBits, BitVec.toNat_ofNat]
  rw [Nat.mod_eq_of_lt] <;> omega

theorem bitsAt_withBits_self (v : Word) (lo w x : Nat) (h : lo + w ≤ 32) : bitsAt (withBits v lo w x) lo w = x % 2 ^ w := by
  have hl := Nat.mod_lt v.toNat (Nat.two_pow_pos lo)
  rw [bitsAt, withBits_toNat v lo w x h]
  have : v.toNat / 2 ^ (lo + w) * 2 ^ (lo + w) + x % 2 ^ w * 2 ^ lo + v.toNat % 2 ^ lo =
      (v.toNat / 2 ^ (lo + w) * 2 ^ w + x % 2 ^ w) * 2 ^ lo + v.toNat % 2 ^ lo := by
    rw [pow_add]
    ring
  rw [this, Nat.mul_comm _ (2 ^ lo), Nat.mul_add_div (Nat.two_pow_pos lo), Nat.div_eq_of_lt hl, Nat.add_zero, Nat.mul_comm _ (2 ^ w),
    Nat.mul_add_mod, Nat.mod_mod]

theorem bitsAt_withBits_above (v : Word) (lo w x lo' w' : Nat) (h : lo + w ≤ 32) (hd : lo + w ≤ lo') :
    bitsAt (withBits v lo w x) lo' w' = bitsAt v lo' w' := by
  have hx := Nat.mod_lt x (Nat.two_pow_pos w)
  have hl := Nat.mod_lt v.toNat (Nat.two_pow_pos lo)
  have hf : x % 2 ^ w * 2 ^ lo + v.toNat % 2 ^ lo < 2 ^ (lo + w) := by
    have : (x % 2 ^ w + 1) * 2 ^ lo ≤ 2 ^ w * 2 ^ lo := Nat.mul_le_mul_right _ hx
    rw [pow_add, Nat.mul_comm (2 ^ lo)]
    rw [Nat.add_mul] at this
    omega
  simp only [bitsAt]
  rw [withBits_toNat v lo w x h, Nat.add_assoc]
  obtain ⟨k, rfl⟩ := Nat.exists_eq_add_of_le hd
  rw [pow_add 2 (lo + w), ← Nat.div_div_eq_div_mul, ← Nat.div_div_eq_div_mul, Nat.mul_comm _ (2 ^ (lo + w)),
    Nat.mul_add_div (Nat.two_pow_pos _), Nat.div_eq_of_lt hf, Nat.add_zero]

theorem bitsAt_withBits_below (v : Word) (lo w x lo' w' : Nat) (h : lo + w ≤ 32) (hd : lo' + w' ≤ lo) :
    bitsAt (withBits v lo w x) lo' w' = bitsAt v lo' w' := by
  have e : ∀ n : Nat, n / 2 ^ lo' % 2 ^ w' = n % 2 ^ lo / 2 ^ lo' % 2 ^ w' := by
    intro n
    obtain ⟨k, rfl⟩ := Nat.exists_eq_add_of_le hd
    rw [Nat.add_assoc, pow_add 2 lo', Nat.mod_mul_right_div_self, pow_add, Nat.mod_mul_right_mod]
  simp only [bitsAt]
  rw [e, e v.toNat, withBits_toNat v lo w x h]
  congr 2
  have : v.toNat / 2 ^ (lo + w) * 2 ^ (lo + w) + x % 2 ^ w * 2 ^ lo + v.toNat % 2 ^ lo =
      2 ^ lo * (v.toNat / 2 ^ (lo + w) * 2 ^ w + x % 2 ^ w) + v.toNat % 2 ^ lo := by
    rw [pow_add]
    ring
  rw [this, Nat.mul_add_mod, Nat.mod_mod]

/-! ## Registers -/

@[simp] theorem reg_setReg_self (s : State) (a : Nat) (v : Word) : (s.setReg a v).reg a = v := tabGet_tabSet_self ..

theorem reg_setReg_ne (s : State) (a b : Nat) (v : Word) (h : b ≠ a) : (s.setReg a v).reg b = s.reg b := tabGet_tabSet_ne _ _ _ _ _ h

theorem reg_setReg (s : State) (a b : Nat) (v : Word) : (s.setReg a v).reg b = if b = a then v else s.reg b := tabGet_tabSet ..

/-- Registers depend on nothing but the register table. -/
theorem reg_congr {s t : State} (h : t.regs = s.regs) (a : Nat) : t.reg a = s.reg a := by rw [State.reg, h, State.reg]

theorem get_congr {s t : State} (h : t.regs = s.regs) (f : Fld) : t.get f = s.get f := by rw [State.get, reg_congr h, State.get]

/-! ## Fields -/

theorem get_setReg_ne (s : State) (a : Nat) (v : Word) (f : Fld) (h : f.reg ≠ a) : (s.setReg a v).get f = s.get f := by
  rw [State.get, reg_setReg_ne _ _ _ _ h, State.get]

theorem reg_put_ne (s : State) (f : Fld) (x a : Nat) (h : a ≠ f.reg) : (s.put f x).reg a = s.reg a := reg_setReg_ne _ _ _ _ h

theorem get_put_self (s : State) (f : Fld) (x : Nat) (h : f.lo + f.w ≤ 32) : (s.put f x).get f = x % 2 ^ f.w := by
  rw [State.get, State.put, reg_setReg_self, bitsAt_withBits_self _ _ _ _ h]

theorem get_put_ne (s : State) (f g : Fld) (x : Nat) (h : g.reg ≠ f.reg) : (s.put f x).get g = s.get g := get_setReg_ne _ _ _ _ h

/-- A field of the same register that does not overlap. -/
theorem get_put_disjoint (s : State) (f g : Fld) (x : Nat) (hf : f.lo + f.w ≤ 32) (h : f.lo + f.w ≤ g.lo ∨ g.lo + g.w ≤ f.lo) :
    (s.put f x).get g = s.get g := by
  by_cases hr : g.reg = f.reg
  · simp only [State.get, State.put, hr, reg_setReg_self]
    rcases h with h | h
    · exact bitsAt_withBits_above _ _ _ _ _ _ hf h
    · exact bitsAt_withBits_below _ _ _ _ _ _ hf h
  · exact get_put_ne s f g x hr

/-- Two fields that share no bit. -/
def fieldsApart (f g : Fld) : Bool := decide (f.reg ≠ g.reg) || (decide (f.lo + f.w ≤ 32) && (decide (f.lo + f.w ≤ g.lo) || decide (g.lo + g.w ≤ f.lo)))

theorem get_put_apart (s : State) (f g : Fld) (x : Nat) (h : fieldsApart f g = true) : (s.put f x).get g = s.get g := by
  simp only [fieldsApart, Bool.or_eq_true, Bool.and_eq_true, decide_eq_true_eq] at h
  rcases h with h | ⟨hf, h⟩
  · exact get_put_ne s f g x (Ne.symm h)
  · exact get_put_disjoint s f g x hf h

@[simp] theorem raise_eq_put (s : State) (f : Fld) : s.raise f = s.put f 1 := rfl
@[simp] theorem lower_eq_put (s : State) (f : Fld) : s.lower f = s.put f 0 := rfl
@[simp] theorem putFlag_eq_put (s : State) (f : Fld) (b : Bool) : s.putFlag f b = s.put f (if b then 1 else 0) := rfl

theorem flag_eq (s : State) (f : Fld) : s.flag f = (s.get f == 1) := rfl

/-! ## Stores -/

@[simp] theorem byte_setByte_self (s : State) (a : Nat) (v : BitVec 8) : (s.setByte a v).byte a = v := tabGet_tabSet_self ..

theorem byte_setByte_ne (s : State) (a b : Nat) (v : BitVec 8) (h : b ≠ a) : (s.setByte a v).byte b = s.byte b := tabGet_tabSet_ne _ _ _ _ _ h

/-- A word written leaves every byte outside it alone. -/
theorem byte_setMemWord_ne (s : State) (a b : Nat) (v : Word) (h : b < a ∨ a + 4 ≤ b) : (s.setMemWord a v).byte b = s.byte b := by
  simp only [State.setMemWord]
  rw [byte_setByte_ne _ _ _ _ (by omega), byte_setByte_ne _ _ _ _ (by omega), byte_setByte_ne _ _ _ _ (by omega),
    byte_setByte_ne _ _ _ _ (by omega)]

/-- A word reads as it was written. -/
theorem memWord_setMemWord (s : State) (a : Nat) (v : Word) : (s.setMemWord a v).memWord a = v := by
  have h0 : (s.setMemWord a v).byte a = BitVec.ofNat 8 v.toNat := by
    simp only [State.setMemWord]
    rw [byte_setByte_ne _ _ _ _ (by omega), byte_setByte_ne _ _ _ _ (by omega), byte_setByte_ne _ _ _ _ (by omega), byte_setByte_self]
  have h1 : (s.setMemWord a v).byte (a + 1) = BitVec.ofNat 8 (v.toNat / 256) := by
    simp only [State.setMemWord]
    rw [byte_setByte_ne _ _ _ _ (by omega), byte_setByte_ne _ _ _ _ (by omega), byte_setByte_self]
  have h2 : (s.setMemWord a v).byte (a + 2) = BitVec.ofNat 8 (v.toNat / 65536) := by
    simp only [State.setMemWord]
    rw [byte_setByte_ne _ _ _ _ (by omega), byte_setByte_self]
  have h3 : (s.setMemWord a v).byte (a + 3) = BitVec.ofNat 8 (v.toNat / 16777216) := by
    simp only [State.setMemWord]
    rw [byte_setByte_self]
  have hv := v.isLt
  apply BitVec.eq_of_toNat_eq
  simp only [State.memWord, h0, h1, h2, h3, BitVec.toNat_ofNat]
  omega

end Sys2Proof.Machine
end

