-- ==== Sys2Proof/Laws/State.lean ====
section
/-! SUPPORT. For each update of the state and each part that it leaves alone: that part is as it was. -/

namespace Sys2Proof.Machine

/-! ## `setReg` -/

@[simp] theorem setReg_mem (s : State) (a : Nat) (v : Word) : (s.setReg a v).mem = s.mem := rfl
@[simp] theorem setReg_pending (s : State) (a : Nat) (v : Word) : (s.setReg a v).pending = s.pending := rfl
@[simp] theorem setReg_fine (s : State) (a : Nat) (v : Word) : (s.setReg a v).fine = s.fine := rfl
@[simp] theorem setReg_elapsed (s : State) (a : Nat) (v : Word) : (s.setReg a v).elapsed = s.elapsed := rfl
@[simp] theorem setReg_freeCtr (s : State) (a : Nat) (v : Word) : (s.setReg a v).freeCtr = s.freeCtr := rfl
@[simp] theorem setReg_sent (s : State) (a : Nat) (v : Word) : (s.setReg a v).sent = s.sent := rfl
@[simp] theorem setReg_hrt (s : State) (a : Nat) (v : Word) : (s.setReg a v).hrt = s.hrt := rfl
@[simp] theorem setReg_rims (s : State) (a : Nat) (v : Word) : (s.setReg a v).rims = s.rims := rfl
@[simp] theorem setReg_strands (s : State) (a : Nat) (v : Word) : (s.setReg a v).strands = s.strands := rfl
@[simp] theorem setReg_tal (s : State) (a : Nat) (v : Word) : (s.setReg a v).tal = s.tal := rfl
@[simp] theorem setReg_hops (s : State) (a : Nat) (v : Word) : (s.setReg a v).hops = s.hops := rfl
@[simp] theorem setReg_armCtr (s : State) (a : Nat) (v : Word) : (s.setReg a v).armCtr = s.armCtr := rfl
@[simp] theorem setReg_nextId (s : State) (a : Nat) (v : Word) : (s.setReg a v).nextId = s.nextId := rfl
@[simp] theorem setReg_resv (s : State) (a : Nat) (v : Word) : (s.setReg a v).resv = s.resv := rfl
@[simp] theorem setReg_cplHeld (s : State) (a : Nat) (v : Word) : (s.setReg a v).cplHeld = s.cplHeld := rfl
@[simp] theorem setReg_grants (s : State) (a : Nat) (v : Word) : (s.setReg a v).grants = s.grants := rfl
@[simp] theorem setReg_lastGrant (s : State) (a : Nat) (v : Word) : (s.setReg a v).lastGrant = s.lastGrant := rfl
@[simp] theorem setReg_grantCtr (s : State) (a : Nat) (v : Word) : (s.setReg a v).grantCtr = s.grantCtr := rfl
@[simp] theorem setReg_turn (s : State) (a : Nat) (v : Word) : (s.setReg a v).turn = s.turn := rfl
@[simp] theorem setReg_eccBad (s : State) (a : Nat) (v : Word) : (s.setReg a v).eccBad = s.eccBad := rfl
@[simp] theorem setReg_col (s : State) (a : Nat) (v : Word) : (s.setReg a v).col = s.col := rfl
@[simp] theorem setReg_faultsRecs (s : State) (a : Nat) (v : Word) : (s.setReg a v).faultsRecs = s.faultsRecs := rfl
@[simp] theorem setReg_spokes (s : State) (a : Nat) (v : Word) : (s.setReg a v).spokes = s.spokes := rfl
@[simp] theorem setReg_reeds (s : State) (a : Nat) (v : Word) : (s.setReg a v).reeds = s.reeds := rfl
@[simp] theorem setReg_units (s : State) (a : Nat) (v : Word) : (s.setReg a v).units = s.units := rfl
@[simp] theorem setReg_tdc (s : State) (a : Nat) (v : Word) : (s.setReg a v).tdc = s.tdc := rfl
@[simp] theorem setReg_freshWord (s : State) (a : Nat) (v : Word) : (s.setReg a v).freshWord = s.freshWord := rfl
@[simp] theorem setReg_cellCal (s : State) (a : Nat) (v : Word) : (s.setReg a v).cellCal = s.cellCal := rfl
@[simp] theorem setReg_lfsr (s : State) (a : Nat) (v : Word) : (s.setReg a v).lfsr = s.lfsr := rfl
@[simp] theorem setReg_splices (s : State) (a : Nat) (v : Word) : (s.setReg a v).splices = s.splices := rfl
@[simp] theorem setReg_links (s : State) (a : Nat) (v : Word) : (s.setReg a v).links = s.links := rfl
@[simp] theorem setReg_lanes (s : State) (a : Nat) (v : Word) : (s.setReg a v).lanes = s.lanes := rfl
@[simp] theorem setReg_boxes (s : State) (a : Nat) (v : Word) : (s.setReg a v).boxes = s.boxes := rfl
@[simp] theorem setReg_pctl (s : State) (a : Nat) (v : Word) : (s.setReg a v).pctl = s.pctl := rfl
@[simp] theorem setReg_spliceWait (s : State) (a : Nat) (v : Word) : (s.setReg a v).spliceWait = s.spliceWait := rfl
@[simp] theorem setReg_wear (s : State) (a : Nat) (v : Word) : (s.setReg a v).wear = s.wear := rfl
@[simp] theorem setReg_wearStrands (s : State) (a : Nat) (v : Word) : (s.setReg a v).wearStrands = s.wearStrands := rfl
@[simp] theorem setReg_plan (s : State) (a : Nat) (v : Word) : (s.setReg a v).plan = s.plan := rfl
@[simp] theorem setReg_load (s : State) (a : Nat) (v : Word) : (s.setReg a v).load = s.load := rfl
@[simp] theorem setReg_moving (s : State) (a : Nat) (v : Word) : (s.setReg a v).moving = s.moving := rfl
@[simp] theorem setReg_wearWait (s : State) (a : Nat) (v : Word) : (s.setReg a v).wearWait = s.wearWait := rfl
@[simp] theorem setReg_rimWearWait (s : State) (a : Nat) (v : Word) : (s.setReg a v).rimWearWait = s.rimWearWait := rfl
@[simp] theorem setReg_host (s : State) (a : Nat) (v : Word) : (s.setReg a v).host = s.host := rfl
@[simp] theorem setReg_bufs (s : State) (a : Nat) (v : Word) : (s.setReg a v).bufs = s.bufs := rfl
@[simp] theorem setReg_latched (s : State) (a : Nat) (v : Word) : (s.setReg a v).latched = s.latched := rfl
@[simp] theorem setReg_opnds (s : State) (a : Nat) (v : Word) : (s.setReg a v).opnds = s.opnds := rfl
@[simp] theorem setReg_held (s : State) (a : Nat) (v : Word) : (s.setReg a v).held = s.held := rfl
@[simp] theorem setReg_snaps (s : State) (a : Nat) (v : Word) : (s.setReg a v).snaps = s.snaps := rfl
@[simp] theorem setReg_sb (s : State) (a : Nat) (v : Word) : (s.setReg a v).sb = s.sb := rfl
@[simp] theorem setReg_keeper (s : State) (a : Nat) (v : Word) : (s.setReg a v).keeper = s.keeper := rfl
@[simp] theorem setReg_pwr (s : State) (a : Nat) (v : Word) : (s.setReg a v).pwr = s.pwr := rfl
@[simp] theorem setReg_lc (s : State) (a : Nat) (v : Word) : (s.setReg a v).lc = s.lc := rfl
@[simp] theorem setReg_tap (s : State) (a : Nat) (v : Word) : (s.setReg a v).tap = s.tap := rfl
@[simp] theorem setReg_nvm (s : State) (a : Nat) (v : Word) : (s.setReg a v).nvm = s.nvm := rfl
@[simp] theorem setReg_nvmRun (s : State) (a : Nat) (v : Word) : (s.setReg a v).nvmRun = s.nvmRun := rfl
@[simp] theorem setReg_nvmQueue (s : State) (a : Nat) (v : Word) : (s.setReg a v).nvmQueue = s.nvmQueue := rfl
@[simp] theorem setReg_repair (s : State) (a : Nat) (v : Word) : (s.setReg a v).repair = s.repair := rfl
@[simp] theorem setReg_fuses (s : State) (a : Nat) (v : Word) : (s.setReg a v).fuses = s.fuses := rfl
@[simp] theorem setReg_rings (s : State) (a : Nat) (v : Word) : (s.setReg a v).rings = s.rings := rfl
@[simp] theorem setReg_dbFrom (s : State) (a : Nat) (v : Word) : (s.setReg a v).dbFrom = s.dbFrom := rfl
@[simp] theorem setReg_cap (s : State) (a : Nat) (v : Word) : (s.setReg a v).cap = s.cap := rfl
@[simp] theorem setReg_withdrawn (s : State) (a : Nat) (v : Word) : (s.setReg a v).withdrawn = s.withdrawn := rfl

/-! ## `put` -/

@[simp] theorem put_mem (s : State) (f : Fld) (x : Nat) : (s.put f x).mem = s.mem := rfl
@[simp] theorem put_pending (s : State) (f : Fld) (x : Nat) : (s.put f x).pending = s.pending := rfl
@[simp] theorem put_fine (s : State) (f : Fld) (x : Nat) : (s.put f x).fine = s.fine := rfl
@[simp] theorem put_elapsed (s : State) (f : Fld) (x : Nat) : (s.put f x).elapsed = s.elapsed := rfl
@[simp] theorem put_freeCtr (s : State) (f : Fld) (x : Nat) : (s.put f x).freeCtr = s.freeCtr := rfl
@[simp] theorem put_sent (s : State) (f : Fld) (x : Nat) : (s.put f x).sent = s.sent := rfl
@[simp] theorem put_hrt (s : State) (f : Fld) (x : Nat) : (s.put f x).hrt = s.hrt := rfl
@[simp] theorem put_rims (s : State) (f : Fld) (x : Nat) : (s.put f x).rims = s.rims := rfl
@[simp] theorem put_strands (s : State) (f : Fld) (x : Nat) : (s.put f x).strands = s.strands := rfl
@[simp] theorem put_tal (s : State) (f : Fld) (x : Nat) : (s.put f x).tal = s.tal := rfl
@[simp] theorem put_hops (s : State) (f : Fld) (x : Nat) : (s.put f x).hops = s.hops := rfl
@[simp] theorem put_armCtr (s : State) (f : Fld) (x : Nat) : (s.put f x).armCtr = s.armCtr := rfl
@[simp] theorem put_nextId (s : State) (f : Fld) (x : Nat) : (s.put f x).nextId = s.nextId := rfl
@[simp] theorem put_resv (s : State) (f : Fld) (x : Nat) : (s.put f x).resv = s.resv := rfl
@[simp] theorem put_cplHeld (s : State) (f : Fld) (x : Nat) : (s.put f x).cplHeld = s.cplHeld := rfl
@[simp] theorem put_grants (s : State) (f : Fld) (x : Nat) : (s.put f x).grants = s.grants := rfl
@[simp] theorem put_lastGrant (s : State) (f : Fld) (x : Nat) : (s.put f x).lastGrant = s.lastGrant := rfl
@[simp] theorem put_grantCtr (s : State) (f : Fld) (x : Nat) : (s.put f x).grantCtr = s.grantCtr := rfl
@[simp] theorem put_turn (s : State) (f : Fld) (x : Nat) : (s.put f x).turn = s.turn := rfl
@[simp] theorem put_eccBad (s : State) (f : Fld) (x : Nat) : (s.put f x).eccBad = s.eccBad := rfl
@[simp] theorem put_col (s : State) (f : Fld) (x : Nat) : (s.put f x).col = s.col := rfl
@[simp] theorem put_faultsRecs (s : State) (f : Fld) (x : Nat) : (s.put f x).faultsRecs = s.faultsRecs := rfl
@[simp] theorem put_spokes (s : State) (f : Fld) (x : Nat) : (s.put f x).spokes = s.spokes := rfl
@[simp] theorem put_reeds (s : State) (f : Fld) (x : Nat) : (s.put f x).reeds = s.reeds := rfl
@[simp] theorem put_units (s : State) (f : Fld) (x : Nat) : (s.put f x).units = s.units := rfl
@[simp] theorem put_tdc (s : State) (f : Fld) (x : Nat) : (s.put f x).tdc = s.tdc := rfl
@[simp] theorem put_freshWord (s : State) (f : Fld) (x : Nat) : (s.put f x).freshWord = s.freshWord := rfl
@[simp] theorem put_cellCal (s : State) (f : Fld) (x : Nat) : (s.put f x).cellCal = s.cellCal := rfl
@[simp] theorem put_lfsr (s : State) (f : Fld) (x : Nat) : (s.put f x).lfsr = s.lfsr := rfl
@[simp] theorem put_splices (s : State) (f : Fld) (x : Nat) : (s.put f x).splices = s.splices := rfl
@[simp] theorem put_links (s : State) (f : Fld) (x : Nat) : (s.put f x).links = s.links := rfl
@[simp] theorem put_lanes (s : State) (f : Fld) (x : Nat) : (s.put f x).lanes = s.lanes := rfl
@[simp] theorem put_boxes (s : State) (f : Fld) (x : Nat) : (s.put f x).boxes = s.boxes := rfl
@[simp] theorem put_pctl (s : State) (f : Fld) (x : Nat) : (s.put f x).pctl = s.pctl := rfl
@[simp] theorem put_spliceWait (s : State) (f : Fld) (x : Nat) : (s.put f x).spliceWait = s.spliceWait := rfl
@[simp] theorem put_wear (s : State) (f : Fld) (x : Nat) : (s.put f x).wear = s.wear := rfl
@[simp] theorem put_wearStrands (s : State) (f : Fld) (x : Nat) : (s.put f x).wearStrands = s.wearStrands := rfl
@[simp] theorem put_plan (s : State) (f : Fld) (x : Nat) : (s.put f x).plan = s.plan := rfl
@[simp] theorem put_load (s : State) (f : Fld) (x : Nat) : (s.put f x).load = s.load := rfl
@[simp] theorem put_moving (s : State) (f : Fld) (x : Nat) : (s.put f x).moving = s.moving := rfl
@[simp] theorem put_wearWait (s : State) (f : Fld) (x : Nat) : (s.put f x).wearWait = s.wearWait := rfl
@[simp] theorem put_rimWearWait (s : State) (f : Fld) (x : Nat) : (s.put f x).rimWearWait = s.rimWearWait := rfl
@[simp] theorem put_host (s : State) (f : Fld) (x : Nat) : (s.put f x).host = s.host := rfl
@[simp] theorem put_bufs (s : State) (f : Fld) (x : Nat) : (s.put f x).bufs = s.bufs := rfl
@[simp] theorem put_latched (s : State) (f : Fld) (x : Nat) : (s.put f x).latched = s.latched := rfl
@[simp] theorem put_opnds (s : State) (f : Fld) (x : Nat) : (s.put f x).opnds = s.opnds := rfl
@[simp] theorem put_held (s : State) (f : Fld) (x : Nat) : (s.put f x).held = s.held := rfl
@[simp] theorem put_snaps (s : State) (f : Fld) (x : Nat) : (s.put f x).snaps = s.snaps := rfl
@[simp] theorem put_sb (s : State) (f : Fld) (x : Nat) : (s.put f x).sb = s.sb := rfl
@[simp] theorem put_keeper (s : State) (f : Fld) (x : Nat) : (s.put f x).keeper = s.keeper := rfl
@[simp] theorem put_pwr (s : State) (f : Fld) (x : Nat) : (s.put f x).pwr = s.pwr := rfl
@[simp] theorem put_lc (s : State) (f : Fld) (x : Nat) : (s.put f x).lc = s.lc := rfl
@[simp] theorem put_tap (s : State) (f : Fld) (x : Nat) : (s.put f x).tap = s.tap := rfl
@[simp] theorem put_nvm (s : State) (f : Fld) (x : Nat) : (s.put f x).nvm = s.nvm := rfl
@[simp] theorem put_nvmRun (s : State) (f : Fld) (x : Nat) : (s.put f x).nvmRun = s.nvmRun := rfl
@[simp] theorem put_nvmQueue (s : State) (f : Fld) (x : Nat) : (s.put f x).nvmQueue = s.nvmQueue := rfl
@[simp] theorem put_repair (s : State) (f : Fld) (x : Nat) : (s.put f x).repair = s.repair := rfl
@[simp] theorem put_fuses (s : State) (f : Fld) (x : Nat) : (s.put f x).fuses = s.fuses := rfl
@[simp] theorem put_rings (s : State) (f : Fld) (x : Nat) : (s.put f x).rings = s.rings := rfl
@[simp] theorem put_dbFrom (s : State) (f : Fld) (x : Nat) : (s.put f x).dbFrom = s.dbFrom := rfl
@[simp] theorem put_cap (s : State) (f : Fld) (x : Nat) : (s.put f x).cap = s.cap := rfl
@[simp] theorem put_withdrawn (s : State) (f : Fld) (x : Nat) : (s.put f x).withdrawn = s.withdrawn := rfl

/-! ## `incSat` -/

@[simp] theorem incSat_mem (s : State) (f : Fld) : (s.incSat f).mem = s.mem := rfl
@[simp] theorem incSat_pending (s : State) (f : Fld) : (s.incSat f).pending = s.pending := rfl
@[simp] theorem incSat_fine (s : State) (f : Fld) : (s.incSat f).fine = s.fine := rfl
@[simp] theorem incSat_elapsed (s : State) (f : Fld) : (s.incSat f).elapsed = s.elapsed := rfl
@[simp] theorem incSat_freeCtr (s : State) (f : Fld) : (s.incSat f).freeCtr = s.freeCtr := rfl
@[simp] theorem incSat_sent (s : State) (f : Fld) : (s.incSat f).sent = s.sent := rfl
@[simp] theorem incSat_hrt (s : State) (f : Fld) : (s.incSat f).hrt = s.hrt := rfl
@[simp] theorem incSat_rims (s : State) (f : Fld) : (s.incSat f).rims = s.rims := rfl
@[simp] theorem incSat_strands (s : State) (f : Fld) : (s.incSat f).strands = s.strands := rfl
@[simp] theorem incSat_tal (s : State) (f : Fld) : (s.incSat f).tal = s.tal := rfl
@[simp] theorem incSat_hops (s : State) (f : Fld) : (s.incSat f).hops = s.hops := rfl
@[simp] theorem incSat_armCtr (s : State) (f : Fld) : (s.incSat f).armCtr = s.armCtr := rfl
@[simp] theorem incSat_nextId (s : State) (f : Fld) : (s.incSat f).nextId = s.nextId := rfl
@[simp] theorem incSat_resv (s : State) (f : Fld) : (s.incSat f).resv = s.resv := rfl
@[simp] theorem incSat_cplHeld (s : State) (f : Fld) : (s.incSat f).cplHeld = s.cplHeld := rfl
@[simp] theorem incSat_grants (s : State) (f : Fld) : (s.incSat f).grants = s.grants := rfl
@[simp] theorem incSat_lastGrant (s : State) (f : Fld) : (s.incSat f).lastGrant = s.lastGrant := rfl
@[simp] theorem incSat_grantCtr (s : State) (f : Fld) : (s.incSat f).grantCtr = s.grantCtr := rfl
@[simp] theorem incSat_turn (s : State) (f : Fld) : (s.incSat f).turn = s.turn := rfl
@[simp] theorem incSat_eccBad (s : State) (f : Fld) : (s.incSat f).eccBad = s.eccBad := rfl
@[simp] theorem incSat_col (s : State) (f : Fld) : (s.incSat f).col = s.col := rfl
@[simp] theorem incSat_faultsRecs (s : State) (f : Fld) : (s.incSat f).faultsRecs = s.faultsRecs := rfl
@[simp] theorem incSat_spokes (s : State) (f : Fld) : (s.incSat f).spokes = s.spokes := rfl
@[simp] theorem incSat_reeds (s : State) (f : Fld) : (s.incSat f).reeds = s.reeds := rfl
@[simp] theorem incSat_units (s : State) (f : Fld) : (s.incSat f).units = s.units := rfl
@[simp] theorem incSat_tdc (s : State) (f : Fld) : (s.incSat f).tdc = s.tdc := rfl
@[simp] theorem incSat_freshWord (s : State) (f : Fld) : (s.incSat f).freshWord = s.freshWord := rfl
@[simp] theorem incSat_cellCal (s : State) (f : Fld) : (s.incSat f).cellCal = s.cellCal := rfl
@[simp] theorem incSat_lfsr (s : State) (f : Fld) : (s.incSat f).lfsr = s.lfsr := rfl
@[simp] theorem incSat_splices (s : State) (f : Fld) : (s.incSat f).splices = s.splices := rfl
@[simp] theorem incSat_links (s : State) (f : Fld) : (s.incSat f).links = s.links := rfl
@[simp] theorem incSat_lanes (s : State) (f : Fld) : (s.incSat f).lanes = s.lanes := rfl
@[simp] theorem incSat_boxes (s : State) (f : Fld) : (s.incSat f).boxes = s.boxes := rfl
@[simp] theorem incSat_pctl (s : State) (f : Fld) : (s.incSat f).pctl = s.pctl := rfl
@[simp] theorem incSat_spliceWait (s : State) (f : Fld) : (s.incSat f).spliceWait = s.spliceWait := rfl
@[simp] theorem incSat_wear (s : State) (f : Fld) : (s.incSat f).wear = s.wear := rfl
@[simp] theorem incSat_wearStrands (s : State) (f : Fld) : (s.incSat f).wearStrands = s.wearStrands := rfl
@[simp] theorem incSat_plan (s : State) (f : Fld) : (s.incSat f).plan = s.plan := rfl
@[simp] theorem incSat_load (s : State) (f : Fld) : (s.incSat f).load = s.load := rfl
@[simp] theorem incSat_moving (s : State) (f : Fld) : (s.incSat f).moving = s.moving := rfl
@[simp] theorem incSat_wearWait (s : State) (f : Fld) : (s.incSat f).wearWait = s.wearWait := rfl
@[simp] theorem incSat_rimWearWait (s : State) (f : Fld) : (s.incSat f).rimWearWait = s.rimWearWait := rfl
@[simp] theorem incSat_host (s : State) (f : Fld) : (s.incSat f).host = s.host := rfl
@[simp] theorem incSat_bufs (s : State) (f : Fld) : (s.incSat f).bufs = s.bufs := rfl
@[simp] theorem incSat_latched (s : State) (f : Fld) : (s.incSat f).latched = s.latched := rfl
@[simp] theorem incSat_opnds (s : State) (f : Fld) : (s.incSat f).opnds = s.opnds := rfl
@[simp] theorem incSat_held (s : State) (f : Fld) : (s.incSat f).held = s.held := rfl
@[simp] theorem incSat_snaps (s : State) (f : Fld) : (s.incSat f).snaps = s.snaps := rfl
@[simp] theorem incSat_sb (s : State) (f : Fld) : (s.incSat f).sb = s.sb := rfl
@[simp] theorem incSat_keeper (s : State) (f : Fld) : (s.incSat f).keeper = s.keeper := rfl
@[simp] theorem incSat_pwr (s : State) (f : Fld) : (s.incSat f).pwr = s.pwr := rfl
@[simp] theorem incSat_lc (s : State) (f : Fld) : (s.incSat f).lc = s.lc := rfl
@[simp] theorem incSat_tap (s : State) (f : Fld) : (s.incSat f).tap = s.tap := rfl
@[simp] theorem incSat_nvm (s : State) (f : Fld) : (s.incSat f).nvm = s.nvm := rfl
@[simp] theorem incSat_nvmRun (s : State) (f : Fld) : (s.incSat f).nvmRun = s.nvmRun := rfl
@[simp] theorem incSat_nvmQueue (s : State) (f : Fld) : (s.incSat f).nvmQueue = s.nvmQueue := rfl
@[simp] theorem incSat_repair (s : State) (f : Fld) : (s.incSat f).repair = s.repair := rfl
@[simp] theorem incSat_fuses (s : State) (f : Fld) : (s.incSat f).fuses = s.fuses := rfl
@[simp] theorem incSat_rings (s : State) (f : Fld) : (s.incSat f).rings = s.rings := rfl
@[simp] theorem incSat_dbFrom (s : State) (f : Fld) : (s.incSat f).dbFrom = s.dbFrom := rfl
@[simp] theorem incSat_cap (s : State) (f : Fld) : (s.incSat f).cap = s.cap := rfl
@[simp] theorem incSat_withdrawn (s : State) (f : Fld) : (s.incSat f).withdrawn = s.withdrawn := rfl

/-! ## `addSat` -/

@[simp] theorem addSat_mem (s : State) (f : Fld) (k : Nat) : (s.addSat f k).mem = s.mem := rfl
@[simp] theorem addSat_pending (s : State) (f : Fld) (k : Nat) : (s.addSat f k).pending = s.pending := rfl
@[simp] theorem addSat_fine (s : State) (f : Fld) (k : Nat) : (s.addSat f k).fine = s.fine := rfl
@[simp] theorem addSat_elapsed (s : State) (f : Fld) (k : Nat) : (s.addSat f k).elapsed = s.elapsed := rfl
@[simp] theorem addSat_freeCtr (s : State) (f : Fld) (k : Nat) : (s.addSat f k).freeCtr = s.freeCtr := rfl
@[simp] theorem addSat_sent (s : State) (f : Fld) (k : Nat) : (s.addSat f k).sent = s.sent := rfl
@[simp] theorem addSat_hrt (s : State) (f : Fld) (k : Nat) : (s.addSat f k).hrt = s.hrt := rfl
@[simp] theorem addSat_rims (s : State) (f : Fld) (k : Nat) : (s.addSat f k).rims = s.rims := rfl
@[simp] theorem addSat_strands (s : State) (f : Fld) (k : Nat) : (s.addSat f k).strands = s.strands := rfl
@[simp] theorem addSat_tal (s : State) (f : Fld) (k : Nat) : (s.addSat f k).tal = s.tal := rfl
@[simp] theorem addSat_hops (s : State) (f : Fld) (k : Nat) : (s.addSat f k).hops = s.hops := rfl
@[simp] theorem addSat_armCtr (s : State) (f : Fld) (k : Nat) : (s.addSat f k).armCtr = s.armCtr := rfl
@[simp] theorem addSat_nextId (s : State) (f : Fld) (k : Nat) : (s.addSat f k).nextId = s.nextId := rfl
@[simp] theorem addSat_resv (s : State) (f : Fld) (k : Nat) : (s.addSat f k).resv = s.resv := rfl
@[simp] theorem addSat_cplHeld (s : State) (f : Fld) (k : Nat) : (s.addSat f k).cplHeld = s.cplHeld := rfl
@[simp] theorem addSat_grants (s : State) (f : Fld) (k : Nat) : (s.addSat f k).grants = s.grants := rfl
@[simp] theorem addSat_lastGrant (s : State) (f : Fld) (k : Nat) : (s.addSat f k).lastGrant = s.lastGrant := rfl
@[simp] theorem addSat_grantCtr (s : State) (f : Fld) (k : Nat) : (s.addSat f k).grantCtr = s.grantCtr := rfl
@[simp] theorem addSat_turn (s : State) (f : Fld) (k : Nat) : (s.addSat f k).turn = s.turn := rfl
@[simp] theorem addSat_eccBad (s : State) (f : Fld) (k : Nat) : (s.addSat f k).eccBad = s.eccBad := rfl
@[simp] theorem addSat_col (s : State) (f : Fld) (k : Nat) : (s.addSat f k).col = s.col := rfl
@[simp] theorem addSat_faultsRecs (s : State) (f : Fld) (k : Nat) : (s.addSat f k).faultsRecs = s.faultsRecs := rfl
@[simp] theorem addSat_spokes (s : State) (f : Fld) (k : Nat) : (s.addSat f k).spokes = s.spokes := rfl
@[simp] theorem addSat_reeds (s : State) (f : Fld) (k : Nat) : (s.addSat f k).reeds = s.reeds := rfl
@[simp] theorem addSat_units (s : State) (f : Fld) (k : Nat) : (s.addSat f k).units = s.units := rfl
@[simp] theorem addSat_tdc (s : State) (f : Fld) (k : Nat) : (s.addSat f k).tdc = s.tdc := rfl
@[simp] theorem addSat_freshWord (s : State) (f : Fld) (k : Nat) : (s.addSat f k).freshWord = s.freshWord := rfl
@[simp] theorem addSat_cellCal (s : State) (f : Fld) (k : Nat) : (s.addSat f k).cellCal = s.cellCal := rfl
@[simp] theorem addSat_lfsr (s : State) (f : Fld) (k : Nat) : (s.addSat f k).lfsr = s.lfsr := rfl
@[simp] theorem addSat_splices (s : State) (f : Fld) (k : Nat) : (s.addSat f k).splices = s.splices := rfl
@[simp] theorem addSat_links (s : State) (f : Fld) (k : Nat) : (s.addSat f k).links = s.links := rfl
@[simp] theorem addSat_lanes (s : State) (f : Fld) (k : Nat) : (s.addSat f k).lanes = s.lanes := rfl
@[simp] theorem addSat_boxes (s : State) (f : Fld) (k : Nat) : (s.addSat f k).boxes = s.boxes := rfl
@[simp] theorem addSat_pctl (s : State) (f : Fld) (k : Nat) : (s.addSat f k).pctl = s.pctl := rfl
@[simp] theorem addSat_spliceWait (s : State) (f : Fld) (k : Nat) : (s.addSat f k).spliceWait = s.spliceWait := rfl
@[simp] theorem addSat_wear (s : State) (f : Fld) (k : Nat) : (s.addSat f k).wear = s.wear := rfl
@[simp] theorem addSat_wearStrands (s : State) (f : Fld) (k : Nat) : (s.addSat f k).wearStrands = s.wearStrands := rfl
@[simp] theorem addSat_plan (s : State) (f : Fld) (k : Nat) : (s.addSat f k).plan = s.plan := rfl
@[simp] theorem addSat_load (s : State) (f : Fld) (k : Nat) : (s.addSat f k).load = s.load := rfl
@[simp] theorem addSat_moving (s : State) (f : Fld) (k : Nat) : (s.addSat f k).moving = s.moving := rfl
@[simp] theorem addSat_wearWait (s : State) (f : Fld) (k : Nat) : (s.addSat f k).wearWait = s.wearWait := rfl
@[simp] theorem addSat_rimWearWait (s : State) (f : Fld) (k : Nat) : (s.addSat f k).rimWearWait = s.rimWearWait := rfl
@[simp] theorem addSat_host (s : State) (f : Fld) (k : Nat) : (s.addSat f k).host = s.host := rfl
@[simp] theorem addSat_bufs (s : State) (f : Fld) (k : Nat) : (s.addSat f k).bufs = s.bufs := rfl
@[simp] theorem addSat_latched (s : State) (f : Fld) (k : Nat) : (s.addSat f k).latched = s.latched := rfl
@[simp] theorem addSat_opnds (s : State) (f : Fld) (k : Nat) : (s.addSat f k).opnds = s.opnds := rfl
@[simp] theorem addSat_held (s : State) (f : Fld) (k : Nat) : (s.addSat f k).held = s.held := rfl
@[simp] theorem addSat_snaps (s : State) (f : Fld) (k : Nat) : (s.addSat f k).snaps = s.snaps := rfl
@[simp] theorem addSat_sb (s : State) (f : Fld) (k : Nat) : (s.addSat f k).sb = s.sb := rfl
@[simp] theorem addSat_keeper (s : State) (f : Fld) (k : Nat) : (s.addSat f k).keeper = s.keeper := rfl
@[simp] theorem addSat_pwr (s : State) (f : Fld) (k : Nat) : (s.addSat f k).pwr = s.pwr := rfl
@[simp] theorem addSat_lc (s : State) (f : Fld) (k : Nat) : (s.addSat f k).lc = s.lc := rfl
@[simp] theorem addSat_tap (s : State) (f : Fld) (k : Nat) : (s.addSat f k).tap = s.tap := rfl
@[simp] theorem addSat_nvm (s : State) (f : Fld) (k : Nat) : (s.addSat f k).nvm = s.nvm := rfl
@[simp] theorem addSat_nvmRun (s : State) (f : Fld) (k : Nat) : (s.addSat f k).nvmRun = s.nvmRun := rfl
@[simp] theorem addSat_nvmQueue (s : State) (f : Fld) (k : Nat) : (s.addSat f k).nvmQueue = s.nvmQueue := rfl
@[simp] theorem addSat_repair (s : State) (f : Fld) (k : Nat) : (s.addSat f k).repair = s.repair := rfl
@[simp] theorem addSat_fuses (s : State) (f : Fld) (k : Nat) : (s.addSat f k).fuses = s.fuses := rfl
@[simp] theorem addSat_rings (s : State) (f : Fld) (k : Nat) : (s.addSat f k).rings = s.rings := rfl
@[simp] theorem addSat_dbFrom (s : State) (f : Fld) (k : Nat) : (s.addSat f k).dbFrom = s.dbFrom := rfl
@[simp] theorem addSat_cap (s : State) (f : Fld) (k : Nat) : (s.addSat f k).cap = s.cap := rfl
@[simp] theorem addSat_withdrawn (s : State) (f : Fld) (k : Nat) : (s.addSat f k).withdrawn = s.withdrawn := rfl

/-! ## `incMod` -/

@[simp] theorem incMod_mem (s : State) (f : Fld) : (s.incMod f).mem = s.mem := rfl
@[simp] theorem incMod_pending (s : State) (f : Fld) : (s.incMod f).pending = s.pending := rfl
@[simp] theorem incMod_fine (s : State) (f : Fld) : (s.incMod f).fine = s.fine := rfl
@[simp] theorem incMod_elapsed (s : State) (f : Fld) : (s.incMod f).elapsed = s.elapsed := rfl
@[simp] theorem incMod_freeCtr (s : State) (f : Fld) : (s.incMod f).freeCtr = s.freeCtr := rfl
@[simp] theorem incMod_sent (s : State) (f : Fld) : (s.incMod f).sent = s.sent := rfl
@[simp] theorem incMod_hrt (s : State) (f : Fld) : (s.incMod f).hrt = s.hrt := rfl
@[simp] theorem incMod_rims (s : State) (f : Fld) : (s.incMod f).rims = s.rims := rfl
@[simp] theorem incMod_strands (s : State) (f : Fld) : (s.incMod f).strands = s.strands := rfl
@[simp] theorem incMod_tal (s : State) (f : Fld) : (s.incMod f).tal = s.tal := rfl
@[simp] theorem incMod_hops (s : State) (f : Fld) : (s.incMod f).hops = s.hops := rfl
@[simp] theorem incMod_armCtr (s : State) (f : Fld) : (s.incMod f).armCtr = s.armCtr := rfl
@[simp] theorem incMod_nextId (s : State) (f : Fld) : (s.incMod f).nextId = s.nextId := rfl
@[simp] theorem incMod_resv (s : State) (f : Fld) : (s.incMod f).resv = s.resv := rfl
@[simp] theorem incMod_cplHeld (s : State) (f : Fld) : (s.incMod f).cplHeld = s.cplHeld := rfl
@[simp] theorem incMod_grants (s : State) (f : Fld) : (s.incMod f).grants = s.grants := rfl
@[simp] theorem incMod_lastGrant (s : State) (f : Fld) : (s.incMod f).lastGrant = s.lastGrant := rfl
@[simp] theorem incMod_grantCtr (s : State) (f : Fld) : (s.incMod f).grantCtr = s.grantCtr := rfl
@[simp] theorem incMod_turn (s : State) (f : Fld) : (s.incMod f).turn = s.turn := rfl
@[simp] theorem incMod_eccBad (s : State) (f : Fld) : (s.incMod f).eccBad = s.eccBad := rfl
@[simp] theorem incMod_col (s : State) (f : Fld) : (s.incMod f).col = s.col := rfl
@[simp] theorem incMod_faultsRecs (s : State) (f : Fld) : (s.incMod f).faultsRecs = s.faultsRecs := rfl
@[simp] theorem incMod_spokes (s : State) (f : Fld) : (s.incMod f).spokes = s.spokes := rfl
@[simp] theorem incMod_reeds (s : State) (f : Fld) : (s.incMod f).reeds = s.reeds := rfl
@[simp] theorem incMod_units (s : State) (f : Fld) : (s.incMod f).units = s.units := rfl
@[simp] theorem incMod_tdc (s : State) (f : Fld) : (s.incMod f).tdc = s.tdc := rfl
@[simp] theorem incMod_freshWord (s : State) (f : Fld) : (s.incMod f).freshWord = s.freshWord := rfl
@[simp] theorem incMod_cellCal (s : State) (f : Fld) : (s.incMod f).cellCal = s.cellCal := rfl
@[simp] theorem incMod_lfsr (s : State) (f : Fld) : (s.incMod f).lfsr = s.lfsr := rfl
@[simp] theorem incMod_splices (s : State) (f : Fld) : (s.incMod f).splices = s.splices := rfl
@[simp] theorem incMod_links (s : State) (f : Fld) : (s.incMod f).links = s.links := rfl
@[simp] theorem incMod_lanes (s : State) (f : Fld) : (s.incMod f).lanes = s.lanes := rfl
@[simp] theorem incMod_boxes (s : State) (f : Fld) : (s.incMod f).boxes = s.boxes := rfl
@[simp] theorem incMod_pctl (s : State) (f : Fld) : (s.incMod f).pctl = s.pctl := rfl
@[simp] theorem incMod_spliceWait (s : State) (f : Fld) : (s.incMod f).spliceWait = s.spliceWait := rfl
@[simp] theorem incMod_wear (s : State) (f : Fld) : (s.incMod f).wear = s.wear := rfl
@[simp] theorem incMod_wearStrands (s : State) (f : Fld) : (s.incMod f).wearStrands = s.wearStrands := rfl
@[simp] theorem incMod_plan (s : State) (f : Fld) : (s.incMod f).plan = s.plan := rfl
@[simp] theorem incMod_load (s : State) (f : Fld) : (s.incMod f).load = s.load := rfl
@[simp] theorem incMod_moving (s : State) (f : Fld) : (s.incMod f).moving = s.moving := rfl
@[simp] theorem incMod_wearWait (s : State) (f : Fld) : (s.incMod f).wearWait = s.wearWait := rfl
@[simp] theorem incMod_rimWearWait (s : State) (f : Fld) : (s.incMod f).rimWearWait = s.rimWearWait := rfl
@[simp] theorem incMod_host (s : State) (f : Fld) : (s.incMod f).host = s.host := rfl
@[simp] theorem incMod_bufs (s : State) (f : Fld) : (s.incMod f).bufs = s.bufs := rfl
@[simp] theorem incMod_latched (s : State) (f : Fld) : (s.incMod f).latched = s.latched := rfl
@[simp] theorem incMod_opnds (s : State) (f : Fld) : (s.incMod f).opnds = s.opnds := rfl
@[simp] theorem incMod_held (s : State) (f : Fld) : (s.incMod f).held = s.held := rfl
@[simp] theorem incMod_snaps (s : State) (f : Fld) : (s.incMod f).snaps = s.snaps := rfl
@[simp] theorem incMod_sb (s : State) (f : Fld) : (s.incMod f).sb = s.sb := rfl
@[simp] theorem incMod_keeper (s : State) (f : Fld) : (s.incMod f).keeper = s.keeper := rfl
@[simp] theorem incMod_pwr (s : State) (f : Fld) : (s.incMod f).pwr = s.pwr := rfl
@[simp] theorem incMod_lc (s : State) (f : Fld) : (s.incMod f).lc = s.lc := rfl
@[simp] theorem incMod_tap (s : State) (f : Fld) : (s.incMod f).tap = s.tap := rfl
@[simp] theorem incMod_nvm (s : State) (f : Fld) : (s.incMod f).nvm = s.nvm := rfl
@[simp] theorem incMod_nvmRun (s : State) (f : Fld) : (s.incMod f).nvmRun = s.nvmRun := rfl
@[simp] theorem incMod_nvmQueue (s : State) (f : Fld) : (s.incMod f).nvmQueue = s.nvmQueue := rfl
@[simp] theorem incMod_repair (s : State) (f : Fld) : (s.incMod f).repair = s.repair := rfl
@[simp] theorem incMod_fuses (s : State) (f : Fld) : (s.incMod f).fuses = s.fuses := rfl
@[simp] theorem incMod_rings (s : State) (f : Fld) : (s.incMod f).rings = s.rings := rfl
@[simp] theorem incMod_dbFrom (s : State) (f : Fld) : (s.incMod f).dbFrom = s.dbFrom := rfl
@[simp] theorem incMod_cap (s : State) (f : Fld) : (s.incMod f).cap = s.cap := rfl
@[simp] theorem incMod_withdrawn (s : State) (f : Fld) : (s.incMod f).withdrawn = s.withdrawn := rfl

/-! ## `setByte` -/

@[simp] theorem setByte_regs (s : State) (a : Nat) (v : BitVec 8) : (s.setByte a v).regs = s.regs := rfl
@[simp] theorem setByte_pending (s : State) (a : Nat) (v : BitVec 8) : (s.setByte a v).pending = s.pending := rfl
@[simp] theorem setByte_fine (s : State) (a : Nat) (v : BitVec 8) : (s.setByte a v).fine = s.fine := rfl
@[simp] theorem setByte_elapsed (s : State) (a : Nat) (v : BitVec 8) : (s.setByte a v).elapsed = s.elapsed := rfl
@[simp] theorem setByte_freeCtr (s : State) (a : Nat) (v : BitVec 8) : (s.setByte a v).freeCtr = s.freeCtr := rfl
@[simp] theorem setByte_sent (s : State) (a : Nat) (v : BitVec 8) : (s.setByte a v).sent = s.sent := rfl
@[simp] theorem setByte_hrt (s : State) (a : Nat) (v : BitVec 8) : (s.setByte a v).hrt = s.hrt := rfl
@[simp] theorem setByte_rims (s : State) (a : Nat) (v : BitVec 8) : (s.setByte a v).rims = s.rims := rfl
@[simp] theorem setByte_strands (s : State) (a : Nat) (v : BitVec 8) : (s.setByte a v).strands = s.strands := rfl
@[simp] theorem setByte_tal (s : State) (a : Nat) (v : BitVec 8) : (s.setByte a v).tal = s.tal := rfl
@[simp] theorem setByte_hops (s : State) (a : Nat) (v : BitVec 8) : (s.setByte a v).hops = s.hops := rfl
@[simp] theorem setByte_armCtr (s : State) (a : Nat) (v : BitVec 8) : (s.setByte a v).armCtr = s.armCtr := rfl
@[simp] theorem setByte_nextId (s : State) (a : Nat) (v : BitVec 8) : (s.setByte a v).nextId = s.nextId := rfl
@[simp] theorem setByte_resv (s : State) (a : Nat) (v : BitVec 8) : (s.setByte a v).resv = s.resv := rfl
@[simp] theorem setByte_cplHeld (s : State) (a : Nat) (v : BitVec 8) : (s.setByte a v).cplHeld = s.cplHeld := rfl
@[simp] theorem setByte_grants (s : State) (a : Nat) (v : BitVec 8) : (s.setByte a v).grants = s.grants := rfl
@[simp] theorem setByte_lastGrant (s : State) (a : Nat) (v : BitVec 8) : (s.setByte a v).lastGrant = s.lastGrant := rfl
@[simp] theorem setByte_grantCtr (s : State) (a : Nat) (v : BitVec 8) : (s.setByte a v).grantCtr = s.grantCtr := rfl
@[simp] theorem setByte_turn (s : State) (a : Nat) (v : BitVec 8) : (s.setByte a v).turn = s.turn := rfl
@[simp] theorem setByte_eccBad (s : State) (a : Nat) (v : BitVec 8) : (s.setByte a v).eccBad = s.eccBad := rfl
@[simp] theorem setByte_col (s : State) (a : Nat) (v : BitVec 8) : (s.setByte a v).col = s.col := rfl
@[simp] theorem setByte_faultsRecs (s : State) (a : Nat) (v : BitVec 8) : (s.setByte a v).faultsRecs = s.faultsRecs := rfl
@[simp] theorem setByte_spokes (s : State) (a : Nat) (v : BitVec 8) : (s.setByte a v).spokes = s.spokes := rfl
@[simp] theorem setByte_reeds (s : State) (a : Nat) (v : BitVec 8) : (s.setByte a v).reeds = s.reeds := rfl
@[simp] theorem setByte_units (s : State) (a : Nat) (v : BitVec 8) : (s.setByte a v).units = s.units := rfl
@[simp] theorem setByte_tdc (s : State) (a : Nat) (v : BitVec 8) : (s.setByte a v).tdc = s.tdc := rfl
@[simp] theorem setByte_freshWord (s : State) (a : Nat) (v : BitVec 8) : (s.setByte a v).freshWord = s.freshWord := rfl
@[simp] theorem setByte_cellCal (s : State) (a : Nat) (v : BitVec 8) : (s.setByte a v).cellCal = s.cellCal := rfl
@[simp] theorem setByte_lfsr (s : State) (a : Nat) (v : BitVec 8) : (s.setByte a v).lfsr = s.lfsr := rfl
@[simp] theorem setByte_splices (s : State) (a : Nat) (v : BitVec 8) : (s.setByte a v).splices = s.splices := rfl
@[simp] theorem setByte_links (s : State) (a : Nat) (v : BitVec 8) : (s.setByte a v).links = s.links := rfl
@[simp] theorem setByte_lanes (s : State) (a : Nat) (v : BitVec 8) : (s.setByte a v).lanes = s.lanes := rfl
@[simp] theorem setByte_boxes (s : State) (a : Nat) (v : BitVec 8) : (s.setByte a v).boxes = s.boxes := rfl
@[simp] theorem setByte_pctl (s : State) (a : Nat) (v : BitVec 8) : (s.setByte a v).pctl = s.pctl := rfl
@[simp] theorem setByte_spliceWait (s : State) (a : Nat) (v : BitVec 8) : (s.setByte a v).spliceWait = s.spliceWait := rfl
@[simp] theorem setByte_wear (s : State) (a : Nat) (v : BitVec 8) : (s.setByte a v).wear = s.wear := rfl
@[simp] theorem setByte_wearStrands (s : State) (a : Nat) (v : BitVec 8) : (s.setByte a v).wearStrands = s.wearStrands := rfl
@[simp] theorem setByte_plan (s : State) (a : Nat) (v : BitVec 8) : (s.setByte a v).plan = s.plan := rfl
@[simp] theorem setByte_load (s : State) (a : Nat) (v : BitVec 8) : (s.setByte a v).load = s.load := rfl
@[simp] theorem setByte_moving (s : State) (a : Nat) (v : BitVec 8) : (s.setByte a v).moving = s.moving := rfl
@[simp] theorem setByte_wearWait (s : State) (a : Nat) (v : BitVec 8) : (s.setByte a v).wearWait = s.wearWait := rfl
@[simp] theorem setByte_rimWearWait (s : State) (a : Nat) (v : BitVec 8) : (s.setByte a v).rimWearWait = s.rimWearWait := rfl
@[simp] theorem setByte_host (s : State) (a : Nat) (v : BitVec 8) : (s.setByte a v).host = s.host := rfl
@[simp] theorem setByte_bufs (s : State) (a : Nat) (v : BitVec 8) : (s.setByte a v).bufs = s.bufs := rfl
@[simp] theorem setByte_latched (s : State) (a : Nat) (v : BitVec 8) : (s.setByte a v).latched = s.latched := rfl
@[simp] theorem setByte_opnds (s : State) (a : Nat) (v : BitVec 8) : (s.setByte a v).opnds = s.opnds := rfl
@[simp] theorem setByte_held (s : State) (a : Nat) (v : BitVec 8) : (s.setByte a v).held = s.held := rfl
@[simp] theorem setByte_snaps (s : State) (a : Nat) (v : BitVec 8) : (s.setByte a v).snaps = s.snaps := rfl
@[simp] theorem setByte_sb (s : State) (a : Nat) (v : BitVec 8) : (s.setByte a v).sb = s.sb := rfl
@[simp] theorem setByte_keeper (s : State) (a : Nat) (v : BitVec 8) : (s.setByte a v).keeper = s.keeper := rfl
@[simp] theorem setByte_pwr (s : State) (a : Nat) (v : BitVec 8) : (s.setByte a v).pwr = s.pwr := rfl
@[simp] theorem setByte_lc (s : State) (a : Nat) (v : BitVec 8) : (s.setByte a v).lc = s.lc := rfl
@[simp] theorem setByte_tap (s : State) (a : Nat) (v : BitVec 8) : (s.setByte a v).tap = s.tap := rfl
@[simp] theorem setByte_nvm (s : State) (a : Nat) (v : BitVec 8) : (s.setByte a v).nvm = s.nvm := rfl
@[simp] theorem setByte_nvmRun (s : State) (a : Nat) (v : BitVec 8) : (s.setByte a v).nvmRun = s.nvmRun := rfl
@[simp] theorem setByte_nvmQueue (s : State) (a : Nat) (v : BitVec 8) : (s.setByte a v).nvmQueue = s.nvmQueue := rfl
@[simp] theorem setByte_repair (s : State) (a : Nat) (v : BitVec 8) : (s.setByte a v).repair = s.repair := rfl
@[simp] theorem setByte_fuses (s : State) (a : Nat) (v : BitVec 8) : (s.setByte a v).fuses = s.fuses := rfl
@[simp] theorem setByte_rings (s : State) (a : Nat) (v : BitVec 8) : (s.setByte a v).rings = s.rings := rfl
@[simp] theorem setByte_dbFrom (s : State) (a : Nat) (v : BitVec 8) : (s.setByte a v).dbFrom = s.dbFrom := rfl
@[simp] theorem setByte_cap (s : State) (a : Nat) (v : BitVec 8) : (s.setByte a v).cap = s.cap := rfl
@[simp] theorem setByte_withdrawn (s : State) (a : Nat) (v : BitVec 8) : (s.setByte a v).withdrawn = s.withdrawn := rfl

/-! ## `setMemWord` -/

@[simp] theorem setMemWord_regs (s : State) (a : Nat) (v : Word) : (s.setMemWord a v).regs = s.regs := rfl
@[simp] theorem setMemWord_pending (s : State) (a : Nat) (v : Word) : (s.setMemWord a v).pending = s.pending := rfl
@[simp] theorem setMemWord_fine (s : State) (a : Nat) (v : Word) : (s.setMemWord a v).fine = s.fine := rfl
@[simp] theorem setMemWord_elapsed (s : State) (a : Nat) (v : Word) : (s.setMemWord a v).elapsed = s.elapsed := rfl
@[simp] theorem setMemWord_freeCtr (s : State) (a : Nat) (v : Word) : (s.setMemWord a v).freeCtr = s.freeCtr := rfl
@[simp] theorem setMemWord_sent (s : State) (a : Nat) (v : Word) : (s.setMemWord a v).sent = s.sent := rfl
@[simp] theorem setMemWord_hrt (s : State) (a : Nat) (v : Word) : (s.setMemWord a v).hrt = s.hrt := rfl
@[simp] theorem setMemWord_rims (s : State) (a : Nat) (v : Word) : (s.setMemWord a v).rims = s.rims := rfl
@[simp] theorem setMemWord_strands (s : State) (a : Nat) (v : Word) : (s.setMemWord a v).strands = s.strands := rfl
@[simp] theorem setMemWord_tal (s : State) (a : Nat) (v : Word) : (s.setMemWord a v).tal = s.tal := rfl
@[simp] theorem setMemWord_hops (s : State) (a : Nat) (v : Word) : (s.setMemWord a v).hops = s.hops := rfl
@[simp] theorem setMemWord_armCtr (s : State) (a : Nat) (v : Word) : (s.setMemWord a v).armCtr = s.armCtr := rfl
@[simp] theorem setMemWord_nextId (s : State) (a : Nat) (v : Word) : (s.setMemWord a v).nextId = s.nextId := rfl
@[simp] theorem setMemWord_resv (s : State) (a : Nat) (v : Word) : (s.setMemWord a v).resv = s.resv := rfl
@[simp] theorem setMemWord_cplHeld (s : State) (a : Nat) (v : Word) : (s.setMemWord a v).cplHeld = s.cplHeld := rfl
@[simp] theorem setMemWord_grants (s : State) (a : Nat) (v : Word) : (s.setMemWord a v).grants = s.grants := rfl
@[simp] theorem setMemWord_lastGrant (s : State) (a : Nat) (v : Word) : (s.setMemWord a v).lastGrant = s.lastGrant := rfl
@[simp] theorem setMemWord_grantCtr (s : State) (a : Nat) (v : Word) : (s.setMemWord a v).grantCtr = s.grantCtr := rfl
@[simp] theorem setMemWord_turn (s : State) (a : Nat) (v : Word) : (s.setMemWord a v).turn = s.turn := rfl
@[simp] theorem setMemWord_eccBad (s : State) (a : Nat) (v : Word) : (s.setMemWord a v).eccBad = s.eccBad := rfl
@[simp] theorem setMemWord_col (s : State) (a : Nat) (v : Word) : (s.setMemWord a v).col = s.col := rfl
@[simp] theorem setMemWord_faultsRecs (s : State) (a : Nat) (v : Word) : (s.setMemWord a v).faultsRecs = s.faultsRecs := rfl
@[simp] theorem setMemWord_spokes (s : State) (a : Nat) (v : Word) : (s.setMemWord a v).spokes = s.spokes := rfl
@[simp] theorem setMemWord_reeds (s : State) (a : Nat) (v : Word) : (s.setMemWord a v).reeds = s.reeds := rfl
@[simp] theorem setMemWord_units (s : State) (a : Nat) (v : Word) : (s.setMemWord a v).units = s.units := rfl
@[simp] theorem setMemWord_tdc (s : State) (a : Nat) (v : Word) : (s.setMemWord a v).tdc = s.tdc := rfl
@[simp] theorem setMemWord_freshWord (s : State) (a : Nat) (v : Word) : (s.setMemWord a v).freshWord = s.freshWord := rfl
@[simp] theorem setMemWord_cellCal (s : State) (a : Nat) (v : Word) : (s.setMemWord a v).cellCal = s.cellCal := rfl
@[simp] theorem setMemWord_lfsr (s : State) (a : Nat) (v : Word) : (s.setMemWord a v).lfsr = s.lfsr := rfl
@[simp] theorem setMemWord_splices (s : State) (a : Nat) (v : Word) : (s.setMemWord a v).splices = s.splices := rfl
@[simp] theorem setMemWord_links (s : State) (a : Nat) (v : Word) : (s.setMemWord a v).links = s.links := rfl
@[simp] theorem setMemWord_lanes (s : State) (a : Nat) (v : Word) : (s.setMemWord a v).lanes = s.lanes := rfl
@[simp] theorem setMemWord_boxes (s : State) (a : Nat) (v : Word) : (s.setMemWord a v).boxes = s.boxes := rfl
@[simp] theorem setMemWord_pctl (s : State) (a : Nat) (v : Word) : (s.setMemWord a v).pctl = s.pctl := rfl
@[simp] theorem setMemWord_spliceWait (s : State) (a : Nat) (v : Word) : (s.setMemWord a v).spliceWait = s.spliceWait := rfl
@[simp] theorem setMemWord_wear (s : State) (a : Nat) (v : Word) : (s.setMemWord a v).wear = s.wear := rfl
@[simp] theorem setMemWord_wearStrands (s : State) (a : Nat) (v : Word) : (s.setMemWord a v).wearStrands = s.wearStrands := rfl
@[simp] theorem setMemWord_plan (s : State) (a : Nat) (v : Word) : (s.setMemWord a v).plan = s.plan := rfl
@[simp] theorem setMemWord_load (s : State) (a : Nat) (v : Word) : (s.setMemWord a v).load = s.load := rfl
@[simp] theorem setMemWord_moving (s : State) (a : Nat) (v : Word) : (s.setMemWord a v).moving = s.moving := rfl
@[simp] theorem setMemWord_wearWait (s : State) (a : Nat) (v : Word) : (s.setMemWord a v).wearWait = s.wearWait := rfl
@[simp] theorem setMemWord_rimWearWait (s : State) (a : Nat) (v : Word) : (s.setMemWord a v).rimWearWait = s.rimWearWait := rfl
@[simp] theorem setMemWord_host (s : State) (a : Nat) (v : Word) : (s.setMemWord a v).host = s.host := rfl
@[simp] theorem setMemWord_bufs (s : State) (a : Nat) (v : Word) : (s.setMemWord a v).bufs = s.bufs := rfl
@[simp] theorem setMemWord_latched (s : State) (a : Nat) (v : Word) : (s.setMemWord a v).latched = s.latched := rfl
@[simp] theorem setMemWord_opnds (s : State) (a : Nat) (v : Word) : (s.setMemWord a v).opnds = s.opnds := rfl
@[simp] theorem setMemWord_held (s : State) (a : Nat) (v : Word) : (s.setMemWord a v).held = s.held := rfl
@[simp] theorem setMemWord_snaps (s : State) (a : Nat) (v : Word) : (s.setMemWord a v).snaps = s.snaps := rfl
@[simp] theorem setMemWord_sb (s : State) (a : Nat) (v : Word) : (s.setMemWord a v).sb = s.sb := rfl
@[simp] theorem setMemWord_keeper (s : State) (a : Nat) (v : Word) : (s.setMemWord a v).keeper = s.keeper := rfl
@[simp] theorem setMemWord_pwr (s : State) (a : Nat) (v : Word) : (s.setMemWord a v).pwr = s.pwr := rfl
@[simp] theorem setMemWord_lc (s : State) (a : Nat) (v : Word) : (s.setMemWord a v).lc = s.lc := rfl
@[simp] theorem setMemWord_tap (s : State) (a : Nat) (v : Word) : (s.setMemWord a v).tap = s.tap := rfl
@[simp] theorem setMemWord_nvm (s : State) (a : Nat) (v : Word) : (s.setMemWord a v).nvm = s.nvm := rfl
@[simp] theorem setMemWord_nvmRun (s : State) (a : Nat) (v : Word) : (s.setMemWord a v).nvmRun = s.nvmRun := rfl
@[simp] theorem setMemWord_nvmQueue (s : State) (a : Nat) (v : Word) : (s.setMemWord a v).nvmQueue = s.nvmQueue := rfl
@[simp] theorem setMemWord_repair (s : State) (a : Nat) (v : Word) : (s.setMemWord a v).repair = s.repair := rfl
@[simp] theorem setMemWord_fuses (s : State) (a : Nat) (v : Word) : (s.setMemWord a v).fuses = s.fuses := rfl
@[simp] theorem setMemWord_rings (s : State) (a : Nat) (v : Word) : (s.setMemWord a v).rings = s.rings := rfl
@[simp] theorem setMemWord_dbFrom (s : State) (a : Nat) (v : Word) : (s.setMemWord a v).dbFrom = s.dbFrom := rfl
@[simp] theorem setMemWord_cap (s : State) (a : Nat) (v : Word) : (s.setMemWord a v).cap = s.cap := rfl
@[simp] theorem setMemWord_withdrawn (s : State) (a : Nat) (v : Word) : (s.setMemWord a v).withdrawn = s.withdrawn := rfl

/-! ## `emit` -/

@[simp] theorem emit_regs (s : State) (o : Sent) : (s.emit o).regs = s.regs := rfl
@[simp] theorem emit_mem (s : State) (o : Sent) : (s.emit o).mem = s.mem := rfl
@[simp] theorem emit_pending (s : State) (o : Sent) : (s.emit o).pending = s.pending := rfl
@[simp] theorem emit_fine (s : State) (o : Sent) : (s.emit o).fine = s.fine := rfl
@[simp] theorem emit_elapsed (s : State) (o : Sent) : (s.emit o).elapsed = s.elapsed := rfl
@[simp] theorem emit_freeCtr (s : State) (o : Sent) : (s.emit o).freeCtr = s.freeCtr := rfl
@[simp] theorem emit_hrt (s : State) (o : Sent) : (s.emit o).hrt = s.hrt := rfl
@[simp] theorem emit_rims (s : State) (o : Sent) : (s.emit o).rims = s.rims := rfl
@[simp] theorem emit_strands (s : State) (o : Sent) : (s.emit o).strands = s.strands := rfl
@[simp] theorem emit_tal (s : State) (o : Sent) : (s.emit o).tal = s.tal := rfl
@[simp] theorem emit_hops (s : State) (o : Sent) : (s.emit o).hops = s.hops := rfl
@[simp] theorem emit_armCtr (s : State) (o : Sent) : (s.emit o).armCtr = s.armCtr := rfl
@[simp] theorem emit_nextId (s : State) (o : Sent) : (s.emit o).nextId = s.nextId := rfl
@[simp] theorem emit_resv (s : State) (o : Sent) : (s.emit o).resv = s.resv := rfl
@[simp] theorem emit_cplHeld (s : State) (o : Sent) : (s.emit o).cplHeld = s.cplHeld := rfl
@[simp] theorem emit_grants (s : State) (o : Sent) : (s.emit o).grants = s.grants := rfl
@[simp] theorem emit_lastGrant (s : State) (o : Sent) : (s.emit o).lastGrant = s.lastGrant := rfl
@[simp] theorem emit_grantCtr (s : State) (o : Sent) : (s.emit o).grantCtr = s.grantCtr := rfl
@[simp] theorem emit_turn (s : State) (o : Sent) : (s.emit o).turn = s.turn := rfl
@[simp] theorem emit_eccBad (s : State) (o : Sent) : (s.emit o).eccBad = s.eccBad := rfl
@[simp] theorem emit_col (s : State) (o : Sent) : (s.emit o).col = s.col := rfl
@[simp] theorem emit_faultsRecs (s : State) (o : Sent) : (s.emit o).faultsRecs = s.faultsRecs := rfl
@[simp] theorem emit_spokes (s : State) (o : Sent) : (s.emit o).spokes = s.spokes := rfl
@[simp] theorem emit_reeds (s : State) (o : Sent) : (s.emit o).reeds = s.reeds := rfl
@[simp] theorem emit_units (s : State) (o : Sent) : (s.emit o).units = s.units := rfl
@[simp] theorem emit_tdc (s : State) (o : Sent) : (s.emit o).tdc = s.tdc := rfl
@[simp] theorem emit_freshWord (s : State) (o : Sent) : (s.emit o).freshWord = s.freshWord := rfl
@[simp] theorem emit_cellCal (s : State) (o : Sent) : (s.emit o).cellCal = s.cellCal := rfl
@[simp] theorem emit_lfsr (s : State) (o : Sent) : (s.emit o).lfsr = s.lfsr := rfl
@[simp] theorem emit_splices (s : State) (o : Sent) : (s.emit o).splices = s.splices := rfl
@[simp] theorem emit_links (s : State) (o : Sent) : (s.emit o).links = s.links := rfl
@[simp] theorem emit_lanes (s : State) (o : Sent) : (s.emit o).lanes = s.lanes := rfl
@[simp] theorem emit_boxes (s : State) (o : Sent) : (s.emit o).boxes = s.boxes := rfl
@[simp] theorem emit_pctl (s : State) (o : Sent) : (s.emit o).pctl = s.pctl := rfl
@[simp] theorem emit_spliceWait (s : State) (o : Sent) : (s.emit o).spliceWait = s.spliceWait := rfl
@[simp] theorem emit_wear (s : State) (o : Sent) : (s.emit o).wear = s.wear := rfl
@[simp] theorem emit_wearStrands (s : State) (o : Sent) : (s.emit o).wearStrands = s.wearStrands := rfl
@[simp] theorem emit_plan (s : State) (o : Sent) : (s.emit o).plan = s.plan := rfl
@[simp] theorem emit_load (s : State) (o : Sent) : (s.emit o).load = s.load := rfl
@[simp] theorem emit_moving (s : State) (o : Sent) : (s.emit o).moving = s.moving := rfl
@[simp] theorem emit_wearWait (s : State) (o : Sent) : (s.emit o).wearWait = s.wearWait := rfl
@[simp] theorem emit_rimWearWait (s : State) (o : Sent) : (s.emit o).rimWearWait = s.rimWearWait := rfl
@[simp] theorem emit_host (s : State) (o : Sent) : (s.emit o).host = s.host := rfl
@[simp] theorem emit_bufs (s : State) (o : Sent) : (s.emit o).bufs = s.bufs := rfl
@[simp] theorem emit_latched (s : State) (o : Sent) : (s.emit o).latched = s.latched := rfl
@[simp] theorem emit_opnds (s : State) (o : Sent) : (s.emit o).opnds = s.opnds := rfl
@[simp] theorem emit_held (s : State) (o : Sent) : (s.emit o).held = s.held := rfl
@[simp] theorem emit_snaps (s : State) (o : Sent) : (s.emit o).snaps = s.snaps := rfl
@[simp] theorem emit_sb (s : State) (o : Sent) : (s.emit o).sb = s.sb := rfl
@[simp] theorem emit_keeper (s : State) (o : Sent) : (s.emit o).keeper = s.keeper := rfl
@[simp] theorem emit_pwr (s : State) (o : Sent) : (s.emit o).pwr = s.pwr := rfl
@[simp] theorem emit_lc (s : State) (o : Sent) : (s.emit o).lc = s.lc := rfl
@[simp] theorem emit_tap (s : State) (o : Sent) : (s.emit o).tap = s.tap := rfl
@[simp] theorem emit_nvm (s : State) (o : Sent) : (s.emit o).nvm = s.nvm := rfl
@[simp] theorem emit_nvmRun (s : State) (o : Sent) : (s.emit o).nvmRun = s.nvmRun := rfl
@[simp] theorem emit_nvmQueue (s : State) (o : Sent) : (s.emit o).nvmQueue = s.nvmQueue := rfl
@[simp] theorem emit_repair (s : State) (o : Sent) : (s.emit o).repair = s.repair := rfl
@[simp] theorem emit_fuses (s : State) (o : Sent) : (s.emit o).fuses = s.fuses := rfl
@[simp] theorem emit_rings (s : State) (o : Sent) : (s.emit o).rings = s.rings := rfl
@[simp] theorem emit_dbFrom (s : State) (o : Sent) : (s.emit o).dbFrom = s.dbFrom := rfl
@[simp] theorem emit_cap (s : State) (o : Sent) : (s.emit o).cap = s.cap := rfl
@[simp] theorem emit_withdrawn (s : State) (o : Sent) : (s.emit o).withdrawn = s.withdrawn := rfl

/-! ## `setRim` -/

@[simp] theorem setRim_regs (s : State) (n : Nat) (r : Rim) : (s.setRim n r).regs = s.regs := rfl
@[simp] theorem setRim_mem (s : State) (n : Nat) (r : Rim) : (s.setRim n r).mem = s.mem := rfl
@[simp] theorem setRim_pending (s : State) (n : Nat) (r : Rim) : (s.setRim n r).pending = s.pending := rfl
@[simp] theorem setRim_fine (s : State) (n : Nat) (r : Rim) : (s.setRim n r).fine = s.fine := rfl
@[simp] theorem setRim_elapsed (s : State) (n : Nat) (r : Rim) : (s.setRim n r).elapsed = s.elapsed := rfl
@[simp] theorem setRim_freeCtr (s : State) (n : Nat) (r : Rim) : (s.setRim n r).freeCtr = s.freeCtr := rfl
@[simp] theorem setRim_sent (s : State) (n : Nat) (r : Rim) : (s.setRim n r).sent = s.sent := rfl
@[simp] theorem setRim_hrt (s : State) (n : Nat) (r : Rim) : (s.setRim n r).hrt = s.hrt := rfl
@[simp] theorem setRim_strands (s : State) (n : Nat) (r : Rim) : (s.setRim n r).strands = s.strands := rfl
@[simp] theorem setRim_tal (s : State) (n : Nat) (r : Rim) : (s.setRim n r).tal = s.tal := rfl
@[simp] theorem setRim_hops (s : State) (n : Nat) (r : Rim) : (s.setRim n r).hops = s.hops := rfl
@[simp] theorem setRim_armCtr (s : State) (n : Nat) (r : Rim) : (s.setRim n r).armCtr = s.armCtr := rfl
@[simp] theorem setRim_nextId (s : State) (n : Nat) (r : Rim) : (s.setRim n r).nextId = s.nextId := rfl
@[simp] theorem setRim_resv (s : State) (n : Nat) (r : Rim) : (s.setRim n r).resv = s.resv := rfl
@[simp] theorem setRim_cplHeld (s : State) (n : Nat) (r : Rim) : (s.setRim n r).cplHeld = s.cplHeld := rfl
@[simp] theorem setRim_grants (s : State) (n : Nat) (r : Rim) : (s.setRim n r).grants = s.grants := rfl
@[simp] theorem setRim_lastGrant (s : State) (n : Nat) (r : Rim) : (s.setRim n r).lastGrant = s.lastGrant := rfl
@[simp] theorem setRim_grantCtr (s : State) (n : Nat) (r : Rim) : (s.setRim n r).grantCtr = s.grantCtr := rfl
@[simp] theorem setRim_turn (s : State) (n : Nat) (r : Rim) : (s.setRim n r).turn = s.turn := rfl
@[simp] theorem setRim_eccBad (s : State) (n : Nat) (r : Rim) : (s.setRim n r).eccBad = s.eccBad := rfl
@[simp] theorem setRim_col (s : State) (n : Nat) (r : Rim) : (s.setRim n r).col = s.col := rfl
@[simp] theorem setRim_faultsRecs (s : State) (n : Nat) (r : Rim) : (s.setRim n r).faultsRecs = s.faultsRecs := rfl
@[simp] theorem setRim_spokes (s : State) (n : Nat) (r : Rim) : (s.setRim n r).spokes = s.spokes := rfl
@[simp] theorem setRim_reeds (s : State) (n : Nat) (r : Rim) : (s.setRim n r).reeds = s.reeds := rfl
@[simp] theorem setRim_units (s : State) (n : Nat) (r : Rim) : (s.setRim n r).units = s.units := rfl
@[simp] theorem setRim_tdc (s : State) (n : Nat) (r : Rim) : (s.setRim n r).tdc = s.tdc := rfl
@[simp] theorem setRim_freshWord (s : State) (n : Nat) (r : Rim) : (s.setRim n r).freshWord = s.freshWord := rfl
@[simp] theorem setRim_cellCal (s : State) (n : Nat) (r : Rim) : (s.setRim n r).cellCal = s.cellCal := rfl
@[simp] theorem setRim_lfsr (s : State) (n : Nat) (r : Rim) : (s.setRim n r).lfsr = s.lfsr := rfl
@[simp] theorem setRim_splices (s : State) (n : Nat) (r : Rim) : (s.setRim n r).splices = s.splices := rfl
@[simp] theorem setRim_links (s : State) (n : Nat) (r : Rim) : (s.setRim n r).links = s.links := rfl
@[simp] theorem setRim_lanes (s : State) (n : Nat) (r : Rim) : (s.setRim n r).lanes = s.lanes := rfl
@[simp] theorem setRim_boxes (s : State) (n : Nat) (r : Rim) : (s.setRim n r).boxes = s.boxes := rfl
@[simp] theorem setRim_pctl (s : State) (n : Nat) (r : Rim) : (s.setRim n r).pctl = s.pctl := rfl
@[simp] theorem setRim_spliceWait (s : State) (n : Nat) (r : Rim) : (s.setRim n r).spliceWait = s.spliceWait := rfl
@[simp] theorem setRim_wear (s : State) (n : Nat) (r : Rim) : (s.setRim n r).wear = s.wear := rfl
@[simp] theorem setRim_wearStrands (s : State) (n : Nat) (r : Rim) : (s.setRim n r).wearStrands = s.wearStrands := rfl
@[simp] theorem setRim_plan (s : State) (n : Nat) (r : Rim) : (s.setRim n r).plan = s.plan := rfl
@[simp] theorem setRim_load (s : State) (n : Nat) (r : Rim) : (s.setRim n r).load = s.load := rfl
@[simp] theorem setRim_moving (s : State) (n : Nat) (r : Rim) : (s.setRim n r).moving = s.moving := rfl
@[simp] theorem setRim_wearWait (s : State) (n : Nat) (r : Rim) : (s.setRim n r).wearWait = s.wearWait := rfl
@[simp] theorem setRim_rimWearWait (s : State) (n : Nat) (r : Rim) : (s.setRim n r).rimWearWait = s.rimWearWait := rfl
@[simp] theorem setRim_host (s : State) (n : Nat) (r : Rim) : (s.setRim n r).host = s.host := rfl
@[simp] theorem setRim_bufs (s : State) (n : Nat) (r : Rim) : (s.setRim n r).bufs = s.bufs := rfl
@[simp] theorem setRim_latched (s : State) (n : Nat) (r : Rim) : (s.setRim n r).latched = s.latched := rfl
@[simp] theorem setRim_opnds (s : State) (n : Nat) (r : Rim) : (s.setRim n r).opnds = s.opnds := rfl
@[simp] theorem setRim_held (s : State) (n : Nat) (r : Rim) : (s.setRim n r).held = s.held := rfl
@[simp] theorem setRim_snaps (s : State) (n : Nat) (r : Rim) : (s.setRim n r).snaps = s.snaps := rfl
@[simp] theorem setRim_sb (s : State) (n : Nat) (r : Rim) : (s.setRim n r).sb = s.sb := rfl
@[simp] theorem setRim_keeper (s : State) (n : Nat) (r : Rim) : (s.setRim n r).keeper = s.keeper := rfl
@[simp] theorem setRim_pwr (s : State) (n : Nat) (r : Rim) : (s.setRim n r).pwr = s.pwr := rfl
@[simp] theorem setRim_lc (s : State) (n : Nat) (r : Rim) : (s.setRim n r).lc = s.lc := rfl
@[simp] theorem setRim_tap (s : State) (n : Nat) (r : Rim) : (s.setRim n r).tap = s.tap := rfl
@[simp] theorem setRim_nvm (s : State) (n : Nat) (r : Rim) : (s.setRim n r).nvm = s.nvm := rfl
@[simp] theorem setRim_nvmRun (s : State) (n : Nat) (r : Rim) : (s.setRim n r).nvmRun = s.nvmRun := rfl
@[simp] theorem setRim_nvmQueue (s : State) (n : Nat) (r : Rim) : (s.setRim n r).nvmQueue = s.nvmQueue := rfl
@[simp] theorem setRim_repair (s : State) (n : Nat) (r : Rim) : (s.setRim n r).repair = s.repair := rfl
@[simp] theorem setRim_fuses (s : State) (n : Nat) (r : Rim) : (s.setRim n r).fuses = s.fuses := rfl
@[simp] theorem setRim_rings (s : State) (n : Nat) (r : Rim) : (s.setRim n r).rings = s.rings := rfl
@[simp] theorem setRim_dbFrom (s : State) (n : Nat) (r : Rim) : (s.setRim n r).dbFrom = s.dbFrom := rfl
@[simp] theorem setRim_cap (s : State) (n : Nat) (r : Rim) : (s.setRim n r).cap = s.cap := rfl
@[simp] theorem setRim_withdrawn (s : State) (n : Nat) (r : Rim) : (s.setRim n r).withdrawn = s.withdrawn := rfl

/-! ## `setStrand` -/

@[simp] theorem setStrand_regs (s : State) (n : Nat) (r : Strand) : (s.setStrand n r).regs = s.regs := rfl
@[simp] theorem setStrand_mem (s : State) (n : Nat) (r : Strand) : (s.setStrand n r).mem = s.mem := rfl
@[simp] theorem setStrand_pending (s : State) (n : Nat) (r : Strand) : (s.setStrand n r).pending = s.pending := rfl
@[simp] theorem setStrand_fine (s : State) (n : Nat) (r : Strand) : (s.setStrand n r).fine = s.fine := rfl
@[simp] theorem setStrand_elapsed (s : State) (n : Nat) (r : Strand) : (s.setStrand n r).elapsed = s.elapsed := rfl
@[simp] theorem setStrand_freeCtr (s : State) (n : Nat) (r : Strand) : (s.setStrand n r).freeCtr = s.freeCtr := rfl
@[simp] theorem setStrand_sent (s : State) (n : Nat) (r : Strand) : (s.setStrand n r).sent = s.sent := rfl
@[simp] theorem setStrand_hrt (s : State) (n : Nat) (r : Strand) : (s.setStrand n r).hrt = s.hrt := rfl
@[simp] theorem setStrand_rims (s : State) (n : Nat) (r : Strand) : (s.setStrand n r).rims = s.rims := rfl
@[simp] theorem setStrand_tal (s : State) (n : Nat) (r : Strand) : (s.setStrand n r).tal = s.tal := rfl
@[simp] theorem setStrand_hops (s : State) (n : Nat) (r : Strand) : (s.setStrand n r).hops = s.hops := rfl
@[simp] theorem setStrand_armCtr (s : State) (n : Nat) (r : Strand) : (s.setStrand n r).armCtr = s.armCtr := rfl
@[simp] theorem setStrand_nextId (s : State) (n : Nat) (r : Strand) : (s.setStrand n r).nextId = s.nextId := rfl
@[simp] theorem setStrand_resv (s : State) (n : Nat) (r : Strand) : (s.setStrand n r).resv = s.resv := rfl
@[simp] theorem setStrand_cplHeld (s : State) (n : Nat) (r : Strand) : (s.setStrand n r).cplHeld = s.cplHeld := rfl
@[simp] theorem setStrand_grants (s : State) (n : Nat) (r : Strand) : (s.setStrand n r).grants = s.grants := rfl
@[simp] theorem setStrand_lastGrant (s : State) (n : Nat) (r : Strand) : (s.setStrand n r).lastGrant = s.lastGrant := rfl
@[simp] theorem setStrand_grantCtr (s : State) (n : Nat) (r : Strand) : (s.setStrand n r).grantCtr = s.grantCtr := rfl
@[simp] theorem setStrand_turn (s : State) (n : Nat) (r : Strand) : (s.setStrand n r).turn = s.turn := rfl
@[simp] theorem setStrand_eccBad (s : State) (n : Nat) (r : Strand) : (s.setStrand n r).eccBad = s.eccBad := rfl
@[simp] theorem setStrand_col (s : State) (n : Nat) (r : Strand) : (s.setStrand n r).col = s.col := rfl
@[simp] theorem setStrand_faultsRecs (s : State) (n : Nat) (r : Strand) : (s.setStrand n r).faultsRecs = s.faultsRecs := rfl
@[simp] theorem setStrand_spokes (s : State) (n : Nat) (r : Strand) : (s.setStrand n r).spokes = s.spokes := rfl
@[simp] theorem setStrand_reeds (s : State) (n : Nat) (r : Strand) : (s.setStrand n r).reeds = s.reeds := rfl
@[simp] theorem setStrand_units (s : State) (n : Nat) (r : Strand) : (s.setStrand n r).units = s.units := rfl
@[simp] theorem setStrand_tdc (s : State) (n : Nat) (r : Strand) : (s.setStrand n r).tdc = s.tdc := rfl
@[simp] theorem setStrand_freshWord (s : State) (n : Nat) (r : Strand) : (s.setStrand n r).freshWord = s.freshWord := rfl
@[simp] theorem setStrand_cellCal (s : State) (n : Nat) (r : Strand) : (s.setStrand n r).cellCal = s.cellCal := rfl
@[simp] theorem setStrand_lfsr (s : State) (n : Nat) (r : Strand) : (s.setStrand n r).lfsr = s.lfsr := rfl
@[simp] theorem setStrand_splices (s : State) (n : Nat) (r : Strand) : (s.setStrand n r).splices = s.splices := rfl
@[simp] theorem setStrand_links (s : State) (n : Nat) (r : Strand) : (s.setStrand n r).links = s.links := rfl
@[simp] theorem setStrand_lanes (s : State) (n : Nat) (r : Strand) : (s.setStrand n r).lanes = s.lanes := rfl
@[simp] theorem setStrand_boxes (s : State) (n : Nat) (r : Strand) : (s.setStrand n r).boxes = s.boxes := rfl
@[simp] theorem setStrand_pctl (s : State) (n : Nat) (r : Strand) : (s.setStrand n r).pctl = s.pctl := rfl
@[simp] theorem setStrand_spliceWait (s : State) (n : Nat) (r : Strand) : (s.setStrand n r).spliceWait = s.spliceWait := rfl
@[simp] theorem setStrand_wear (s : State) (n : Nat) (r : Strand) : (s.setStrand n r).wear = s.wear := rfl
@[simp] theorem setStrand_wearStrands (s : State) (n : Nat) (r : Strand) : (s.setStrand n r).wearStrands = s.wearStrands := rfl
@[simp] theorem setStrand_plan (s : State) (n : Nat) (r : Strand) : (s.setStrand n r).plan = s.plan := rfl
@[simp] theorem setStrand_load (s : State) (n : Nat) (r : Strand) : (s.setStrand n r).load = s.load := rfl
@[simp] theorem setStrand_moving (s : State) (n : Nat) (r : Strand) : (s.setStrand n r).moving = s.moving := rfl
@[simp] theorem setStrand_wearWait (s : State) (n : Nat) (r : Strand) : (s.setStrand n r).wearWait = s.wearWait := rfl
@[simp] theorem setStrand_rimWearWait (s : State) (n : Nat) (r : Strand) : (s.setStrand n r).rimWearWait = s.rimWearWait := rfl
@[simp] theorem setStrand_host (s : State) (n : Nat) (r : Strand) : (s.setStrand n r).host = s.host := rfl
@[simp] theorem setStrand_bufs (s : State) (n : Nat) (r : Strand) : (s.setStrand n r).bufs = s.bufs := rfl
@[simp] theorem setStrand_latched (s : State) (n : Nat) (r : Strand) : (s.setStrand n r).latched = s.latched := rfl
@[simp] theorem setStrand_opnds (s : State) (n : Nat) (r : Strand) : (s.setStrand n r).opnds = s.opnds := rfl
@[simp] theorem setStrand_held (s : State) (n : Nat) (r : Strand) : (s.setStrand n r).held = s.held := rfl
@[simp] theorem setStrand_snaps (s : State) (n : Nat) (r : Strand) : (s.setStrand n r).snaps = s.snaps := rfl
@[simp] theorem setStrand_sb (s : State) (n : Nat) (r : Strand) : (s.setStrand n r).sb = s.sb := rfl
@[simp] theorem setStrand_keeper (s : State) (n : Nat) (r : Strand) : (s.setStrand n r).keeper = s.keeper := rfl
@[simp] theorem setStrand_pwr (s : State) (n : Nat) (r : Strand) : (s.setStrand n r).pwr = s.pwr := rfl
@[simp] theorem setStrand_lc (s : State) (n : Nat) (r : Strand) : (s.setStrand n r).lc = s.lc := rfl
@[simp] theorem setStrand_tap (s : State) (n : Nat) (r : Strand) : (s.setStrand n r).tap = s.tap := rfl
@[simp] theorem setStrand_nvm (s : State) (n : Nat) (r : Strand) : (s.setStrand n r).nvm = s.nvm := rfl
@[simp] theorem setStrand_nvmRun (s : State) (n : Nat) (r : Strand) : (s.setStrand n r).nvmRun = s.nvmRun := rfl
@[simp] theorem setStrand_nvmQueue (s : State) (n : Nat) (r : Strand) : (s.setStrand n r).nvmQueue = s.nvmQueue := rfl
@[simp] theorem setStrand_repair (s : State) (n : Nat) (r : Strand) : (s.setStrand n r).repair = s.repair := rfl
@[simp] theorem setStrand_fuses (s : State) (n : Nat) (r : Strand) : (s.setStrand n r).fuses = s.fuses := rfl
@[simp] theorem setStrand_rings (s : State) (n : Nat) (r : Strand) : (s.setStrand n r).rings = s.rings := rfl
@[simp] theorem setStrand_dbFrom (s : State) (n : Nat) (r : Strand) : (s.setStrand n r).dbFrom = s.dbFrom := rfl
@[simp] theorem setStrand_cap (s : State) (n : Nat) (r : Strand) : (s.setStrand n r).cap = s.cap := rfl
@[simp] theorem setStrand_withdrawn (s : State) (n : Nat) (r : Strand) : (s.setStrand n r).withdrawn = s.withdrawn := rfl

/-! ## `deliver`: it sends and holds messages and leaves everything else alone -/

@[simp] theorem deliver_regs (s t : State) : (deliver s t).regs = t.regs := rfl
@[simp] theorem deliver_mem (s t : State) : (deliver s t).mem = t.mem := rfl
@[simp] theorem deliver_pending (s t : State) : (deliver s t).pending = t.pending := rfl
@[simp] theorem deliver_fine (s t : State) : (deliver s t).fine = t.fine := rfl
@[simp] theorem deliver_elapsed (s t : State) : (deliver s t).elapsed = t.elapsed := rfl
@[simp] theorem deliver_freeCtr (s t : State) : (deliver s t).freeCtr = t.freeCtr := rfl
@[simp] theorem deliver_hrt (s t : State) : (deliver s t).hrt = t.hrt := rfl
@[simp] theorem deliver_rims (s t : State) : (deliver s t).rims = t.rims := rfl
@[simp] theorem deliver_strands (s t : State) : (deliver s t).strands = t.strands := rfl
@[simp] theorem deliver_tal (s t : State) : (deliver s t).tal = t.tal := rfl
@[simp] theorem deliver_hops (s t : State) : (deliver s t).hops = t.hops := rfl
@[simp] theorem deliver_armCtr (s t : State) : (deliver s t).armCtr = t.armCtr := rfl
@[simp] theorem deliver_nextId (s t : State) : (deliver s t).nextId = t.nextId := rfl
@[simp] theorem deliver_resv (s t : State) : (deliver s t).resv = t.resv := rfl
@[simp] theorem deliver_cplHeld (s t : State) : (deliver s t).cplHeld = t.cplHeld := rfl
@[simp] theorem deliver_grants (s t : State) : (deliver s t).grants = t.grants := rfl
@[simp] theorem deliver_lastGrant (s t : State) : (deliver s t).lastGrant = t.lastGrant := rfl
@[simp] theorem deliver_grantCtr (s t : State) : (deliver s t).grantCtr = t.grantCtr := rfl
@[simp] theorem deliver_turn (s t : State) : (deliver s t).turn = t.turn := rfl
@[simp] theorem deliver_eccBad (s t : State) : (deliver s t).eccBad = t.eccBad := rfl
@[simp] theorem deliver_col (s t : State) : (deliver s t).col = t.col := rfl
@[simp] theorem deliver_faultsRecs (s t : State) : (deliver s t).faultsRecs = t.faultsRecs := rfl
@[simp] theorem deliver_spokes (s t : State) : (deliver s t).spokes = t.spokes := rfl
@[simp] theorem deliver_units (s t : State) : (deliver s t).units = t.units := rfl
@[simp] theorem deliver_tdc (s t : State) : (deliver s t).tdc = t.tdc := rfl
@[simp] theorem deliver_freshWord (s t : State) : (deliver s t).freshWord = t.freshWord := rfl
@[simp] theorem deliver_cellCal (s t : State) : (deliver s t).cellCal = t.cellCal := rfl
@[simp] theorem deliver_lfsr (s t : State) : (deliver s t).lfsr = t.lfsr := rfl
@[simp] theorem deliver_splices (s t : State) : (deliver s t).splices = t.splices := rfl
@[simp] theorem deliver_links (s t : State) : (deliver s t).links = t.links := rfl
@[simp] theorem deliver_lanes (s t : State) : (deliver s t).lanes = t.lanes := rfl
@[simp] theorem deliver_boxes (s t : State) : (deliver s t).boxes = t.boxes := rfl
@[simp] theorem deliver_pctl (s t : State) : (deliver s t).pctl = t.pctl := rfl
@[simp] theorem deliver_spliceWait (s t : State) : (deliver s t).spliceWait = t.spliceWait := rfl
@[simp] theorem deliver_wear (s t : State) : (deliver s t).wear = t.wear := rfl
@[simp] theorem deliver_wearStrands (s t : State) : (deliver s t).wearStrands = t.wearStrands := rfl
@[simp] theorem deliver_plan (s t : State) : (deliver s t).plan = t.plan := rfl
@[simp] theorem deliver_load (s t : State) : (deliver s t).load = t.load := rfl
@[simp] theorem deliver_moving (s t : State) : (deliver s t).moving = t.moving := rfl
@[simp] theorem deliver_wearWait (s t : State) : (deliver s t).wearWait = t.wearWait := rfl
@[simp] theorem deliver_rimWearWait (s t : State) : (deliver s t).rimWearWait = t.rimWearWait := rfl
@[simp] theorem deliver_host (s t : State) : (deliver s t).host = t.host := rfl
@[simp] theorem deliver_bufs (s t : State) : (deliver s t).bufs = t.bufs := rfl
@[simp] theorem deliver_latched (s t : State) : (deliver s t).latched = t.latched := rfl
@[simp] theorem deliver_opnds (s t : State) : (deliver s t).opnds = t.opnds := rfl
@[simp] theorem deliver_snaps (s t : State) : (deliver s t).snaps = t.snaps := rfl
@[simp] theorem deliver_sb (s t : State) : (deliver s t).sb = t.sb := rfl
@[simp] theorem deliver_keeper (s t : State) : (deliver s t).keeper = t.keeper := rfl
@[simp] theorem deliver_pwr (s t : State) : (deliver s t).pwr = t.pwr := rfl
@[simp] theorem deliver_lc (s t : State) : (deliver s t).lc = t.lc := rfl
@[simp] theorem deliver_tap (s t : State) : (deliver s t).tap = t.tap := rfl
@[simp] theorem deliver_nvm (s t : State) : (deliver s t).nvm = t.nvm := rfl
@[simp] theorem deliver_nvmRun (s t : State) : (deliver s t).nvmRun = t.nvmRun := rfl
@[simp] theorem deliver_nvmQueue (s t : State) : (deliver s t).nvmQueue = t.nvmQueue := rfl
@[simp] theorem deliver_repair (s t : State) : (deliver s t).repair = t.repair := rfl
@[simp] theorem deliver_fuses (s t : State) : (deliver s t).fuses = t.fuses := rfl
@[simp] theorem deliver_rings (s t : State) : (deliver s t).rings = t.rings := rfl
@[simp] theorem deliver_dbFrom (s t : State) : (deliver s t).dbFrom = t.dbFrom := rfl
@[simp] theorem deliver_cap (s t : State) : (deliver s t).cap = t.cap := rfl
@[simp] theorem deliver_withdrawn (s t : State) : (deliver s t).withdrawn = t.withdrawn := rfl

@[simp] theorem deliver_reg (s t : State) (a : Nat) : (deliver s t).reg a = t.reg a := rfl
@[simp] theorem deliver_get (s t : State) (f : Fld) : (deliver s t).get f = t.get f := rfl
@[simp] theorem deliver_byte (s t : State) (a : Nat) : (deliver s t).byte a = t.byte a := rfl
@[simp] theorem emit_reg (s : State) (o : Sent) (a : Nat) : (s.emit o).reg a = s.reg a := rfl
@[simp] theorem emit_get (s : State) (o : Sent) (f : Fld) : (s.emit o).get f = s.get f := rfl
@[simp] theorem setByte_get (s : State) (a : Nat) (v : BitVec 8) (f : Fld) : (s.setByte a v).get f = s.get f := rfl
@[simp] theorem setMemWord_get (s : State) (a : Nat) (v : Word) (f : Fld) : (s.setMemWord a v).get f = s.get f := rfl
@[simp] theorem setRim_get (s : State) (n : Nat) (r : Rim) (f : Fld) : (s.setRim n r).get f = s.get f := rfl
@[simp] theorem setStrand_get (s : State) (n : Nat) (r : Strand) (f : Fld) : (s.setStrand n r).get f = s.get f := rfl
@[simp] theorem setReg_byte (s : State) (a : Nat) (v : Word) (b : Nat) : (s.setReg a v).byte b = s.byte b := rfl
@[simp] theorem put_byte (s : State) (f : Fld) (x b : Nat) : (s.put f x).byte b = s.byte b := rfl

/-- What has left the hub stays recorded: `deliver` adds before it. -/
@[simp] theorem deliver_reeds (s t : State) : (deliver s t).reeds = t.reedsNow := rfl

theorem deliver_sent (s t : State) : t.sent <:+ (deliver s t).sent := List.suffix_append _ _

end Sys2Proof.Machine
end

