-- ==== Sys2Proof/Laws/Gate.lean ====
section
/-! SUPPORT. What the gate of every register access does: an access that goes through has its effect, and one that does not changes nothing that the
effect would have changed. -/

namespace Sys2Proof.Machine

/-- An access that goes through has its effect. -/
theorem gateWrite_of_opens {s : State} {m a : Nat} {kp : Bool} (h : s.opens m a kp) (k : State → State) : gateWrite m a kp k s = k s := by
  have hb : dropBuf m s = s := by simp only [dropBuf, h.buf]
  have hk : (kp && !s.isKeeper m) = false := by
    rcases kp with _ | _
    · rfl
    · simp [h.keeper rfl]
  simp only [gateWrite, h.host, hb, h.block, h.fused, hk, Bool.not_true, Bool.or_self, Bool.false_eq_true, if_false]
  simp only [h.reach, if_false]

/-- A read that goes through has its effect. -/
theorem gateRead_of_opens {s : State} {m a : Nat} (h : s.opens m a false) (k : State → State) : gateRead m a k s = k s := by
  simp only [gateRead, h.host, h.block, h.fused, Bool.not_false, Bool.true_and, bne_iff_ne]
  rw [if_pos h.reach]

/-- A function that the host cannot reach changes nothing (R345). -/
theorem gateWrite_of_unreached {s : State} {m a : Nat} {kp : Bool} (h : s.hostOk m = false) (k : State → State) : gateWrite m a kp k s = s := by
  simp [gateWrite, h]

/-- An access to a gated block has no effect but that of ending a wide write (R39, R351). -/
theorem gateWrite_of_gated {s : State} {m a : Nat} {kp : Bool} (h : (dropBuf m s).enabledAt a = false) (k : State → State) :
    gateWrite m a kp k s = s ∨ gateWrite m a kp k s = dropBuf m s := by
  by_cases hh : s.hostOk m = true <;> simp [gateWrite, hh, h]

theorem OnlyRegs.refl (s : State) : OnlyRegs [] s s := ⟨rfl, fun _ _ => rfl⟩

theorem OnlyRegs.setReg {rs : List Nat} {s t : State} (h : OnlyRegs rs s t) (a : Nat) (v : Word) (ha : a ∈ rs) : OnlyRegs rs s (t.setReg a v) := by
  refine ⟨?_, fun b hb => ?_⟩
  · have := h.1
    rw [State.setReg, this]
  · rw [reg_setReg_ne _ _ _ _ (by rintro rfl; exact hb ha), h.2 b hb]

theorem OnlyRegs.put {rs : List Nat} {s t : State} (h : OnlyRegs rs s t) (f : Fld) (x : Nat) (ha : f.reg ∈ rs) : OnlyRegs rs s (t.put f x) :=
  h.setReg _ _ ha

end Sys2Proof.Machine
end

