-- ==== Sys2Proof/Laws/KeepsBase.lean ====
section
/-! SUPPORT. The relation of what every command keeps: reflexive, kept by every update of a part of the state that it does not speak of, by the
writes of registers and of stores, and by blowing a fuse. -/

namespace Sys2Proof.Machine

theorem Keeps.refl (z : State) : Keeps z z := ⟨id, id, fun _ _ h => h, rfl, List.suffix_refl _, le_rfl⟩

/-- Nothing that `Keeps` speaks of differs. -/
theorem Keeps.of_eq {z s t : State} (h : Keeps z s) (hr : t.regs = s.regs) (hm : t.mem = s.mem) (hf : t.fuses = s.fuses)
    (hp : t.pending = s.pending) (hs : t.sent = s.sent) (hc : s.freeCtr ≤ t.freeCtr) : Keeps z t := by
  refine ⟨fun q => hr ▸ h.regs q, fun q => hm ▸ h.mem q, fun w i q => ?_, hp.trans h.pend, hs ▸ h.sent, le_trans h.free hc⟩
  have := h.fuse w i q
  simpa only [State.blown, State.fuse, hf] using this

/-- An update of the other parts of the state. -/
theorem Keeps.upd {z s : State} (h : Keeps z s) (fine : Nat) (elapsed : Nat) (hrt : Hearth) (rims : List (Nat × Rim)) (strands : List (Nat × Strand)) (tal : Tally) (hops : List Hop) (armCtr : Nat) (nextId : Nat) (resv : List (Nat × Nat)) (cplHeld : Bool) (grants : List (Nat × List Nat)) (lastGrant : List (Nat × Option Nat)) (grantCtr : Nat) (turn : List (Nat × Nat)) (eccBad : List Nat) (col : Collector) (faultsRecs : List FaultsRec) (spokes : List (Nat × Spoke)) (reeds : List (Nat × ReedRun)) (units : List (Nat × CalUnit)) (tdc : List (Nat × TdcTable)) (freshWord : List (Nat × Nat)) (cellCal : List (Nat × Option CellCal)) (lfsr : List (Nat × Nat)) (splices : List (Nat × Splice)) (links : List (Nat × Link)) (lanes : List (Nat × LaneRun)) (boxes : List (Nat × Mailbox)) (pctl : List (Nat × Nat)) (spliceWait : List Nat) (wear : Wear) (wearStrands : List Nat) (plan : Option Plan) (load : Load) (moving : List Nat) (wearWait : List Nat) (rimWearWait : List Nat) (host : HostIf) (bufs : List (Nat × WideBuf)) (latched : List (Nat × Word)) (opnds : List (Nat × Word)) (held : List (Nat × Nat × Nat)) (snaps : List (Nat × Snap)) (sb : Sideband) (keeper : Keeper) (pwr : Power) (lc : LifeCycle) (tap : Tap) (nvm : List (Nat × NvmSlot)) (nvmRun : Option NvmJob) (nvmQueue : List Nat) (repair : List Host.Cell) (rings : List Nat) (dbFrom : List (Nat × Nat)) (cap : Nat) (withdrawn : List Nat) :
    Keeps z ⟨s.regs, s.mem, s.pending, fine, elapsed, s.freeCtr, s.sent, hrt, rims, strands, tal, hops, armCtr, nextId, resv, cplHeld, grants, lastGrant, grantCtr, turn, eccBad, col, faultsRecs, spokes, reeds, units, tdc, freshWord, cellCal, lfsr, splices, links, lanes, boxes, pctl, spliceWait, wear, wearStrands, plan, load, moving, wearWait, rimWearWait, host, bufs, latched, opnds, held, snaps, sb, keeper, pwr, lc, tap, nvm, nvmRun, nvmQueue, repair, s.fuses, rings, dbFrom, cap, withdrawn⟩ :=
  h.of_eq rfl rfl rfl rfl rfl le_rfl

/-- An update of the other parts of the state that has used up free values. -/
theorem Keeps.updFree {z s : State} (h : Keeps z s) (n : Nat) (fine : Nat) (elapsed : Nat) (hrt : Hearth) (rims : List (Nat × Rim)) (strands : List (Nat × Strand)) (tal : Tally) (hops : List Hop) (armCtr : Nat) (nextId : Nat) (resv : List (Nat × Nat)) (cplHeld : Bool) (grants : List (Nat × List Nat)) (lastGrant : List (Nat × Option Nat)) (grantCtr : Nat) (turn : List (Nat × Nat)) (eccBad : List Nat) (col : Collector) (faultsRecs : List FaultsRec) (spokes : List (Nat × Spoke)) (reeds : List (Nat × ReedRun)) (units : List (Nat × CalUnit)) (tdc : List (Nat × TdcTable)) (freshWord : List (Nat × Nat)) (cellCal : List (Nat × Option CellCal)) (lfsr : List (Nat × Nat)) (splices : List (Nat × Splice)) (links : List (Nat × Link)) (lanes : List (Nat × LaneRun)) (boxes : List (Nat × Mailbox)) (pctl : List (Nat × Nat)) (spliceWait : List Nat) (wear : Wear) (wearStrands : List Nat) (plan : Option Plan) (load : Load) (moving : List Nat) (wearWait : List Nat) (rimWearWait : List Nat) (host : HostIf) (bufs : List (Nat × WideBuf)) (latched : List (Nat × Word)) (opnds : List (Nat × Word)) (held : List (Nat × Nat × Nat)) (snaps : List (Nat × Snap)) (sb : Sideband) (keeper : Keeper) (pwr : Power) (lc : LifeCycle) (tap : Tap) (nvm : List (Nat × NvmSlot)) (nvmRun : Option NvmJob) (nvmQueue : List Nat) (repair : List Host.Cell) (rings : List Nat) (dbFrom : List (Nat × Nat)) (cap : Nat) (withdrawn : List Nat) :
    Keeps z ⟨s.regs, s.mem, s.pending, fine, elapsed, s.freeCtr + n, s.sent, hrt, rims, strands, tal, hops, armCtr, nextId, resv, cplHeld, grants, lastGrant, grantCtr, turn, eccBad, col, faultsRecs, spokes, reeds, units, tdc, freshWord, cellCal, lfsr, splices, links, lanes, boxes, pctl, spliceWait, wear, wearStrands, plan, load, moving, wearWait, rimWearWait, host, bufs, latched, opnds, held, snaps, sb, keeper, pwr, lc, tap, nvm, nvmRun, nvmQueue, repair, s.fuses, rings, dbFrom, cap, withdrawn⟩ :=
  h.of_eq rfl rfl rfl rfl rfl (Nat.le_add_right _ _)

/-- An update of the other parts of the state that sends something. -/
theorem Keeps.updSent {z s : State} (h : Keeps z s) (l : List Sent) (fine : Nat) (elapsed : Nat) (hrt : Hearth) (rims : List (Nat × Rim)) (strands : List (Nat × Strand)) (tal : Tally) (hops : List Hop) (armCtr : Nat) (nextId : Nat) (resv : List (Nat × Nat)) (cplHeld : Bool) (grants : List (Nat × List Nat)) (lastGrant : List (Nat × Option Nat)) (grantCtr : Nat) (turn : List (Nat × Nat)) (eccBad : List Nat) (col : Collector) (faultsRecs : List FaultsRec) (spokes : List (Nat × Spoke)) (reeds : List (Nat × ReedRun)) (units : List (Nat × CalUnit)) (tdc : List (Nat × TdcTable)) (freshWord : List (Nat × Nat)) (cellCal : List (Nat × Option CellCal)) (lfsr : List (Nat × Nat)) (splices : List (Nat × Splice)) (links : List (Nat × Link)) (lanes : List (Nat × LaneRun)) (boxes : List (Nat × Mailbox)) (pctl : List (Nat × Nat)) (spliceWait : List Nat) (wear : Wear) (wearStrands : List Nat) (plan : Option Plan) (load : Load) (moving : List Nat) (wearWait : List Nat) (rimWearWait : List Nat) (host : HostIf) (bufs : List (Nat × WideBuf)) (latched : List (Nat × Word)) (opnds : List (Nat × Word)) (held : List (Nat × Nat × Nat)) (snaps : List (Nat × Snap)) (sb : Sideband) (keeper : Keeper) (pwr : Power) (lc : LifeCycle) (tap : Tap) (nvm : List (Nat × NvmSlot)) (nvmRun : Option NvmJob) (nvmQueue : List Nat) (repair : List Host.Cell) (rings : List Nat) (dbFrom : List (Nat × Nat)) (cap : Nat) (withdrawn : List Nat) :
    Keeps z ⟨s.regs, s.mem, s.pending, fine, elapsed, s.freeCtr, l ++ s.sent, hrt, rims, strands, tal, hops, armCtr, nextId, resv, cplHeld, grants, lastGrant, grantCtr, turn, eccBad, col, faultsRecs, spokes, reeds, units, tdc, freshWord, cellCal, lfsr, splices, links, lanes, boxes, pctl, spliceWait, wear, wearStrands, plan, load, moving, wearWait, rimWearWait, host, bufs, latched, opnds, held, snaps, sb, keeper, pwr, lc, tap, nvm, nvmRun, nvmQueue, repair, s.fuses, rings, dbFrom, cap, withdrawn⟩ :=
  ⟨h.regs, h.mem, h.fuse, h.pend, h.sent.trans (List.suffix_append _ _), h.free⟩

theorem id_keeps {z s : State} (h : Keeps z s) : Keeps z (id s) := h

theorem Keeps.ite {z a b : State} {c : Prop} [Decidable c] (ha : Keeps z a) (hb : Keeps z b) : Keeps z (if c then a else b) := by
  split <;> assumption

theorem Keeps.foldl {α : Type} {z s : State} {l : List α} {f : State → α → State} (hs : Keeps z s)
    (hf : ∀ t a, Keeps z t → Keeps z (f t a)) : Keeps z (l.foldl f s) := by
  induction l generalizing s with
  | nil => exact hs
  | cons a r ih => exact ih (hf s a hs)

theorem eachDo_keeps {α : Type} {z s : State} {l : List α} {f : α → State → State} (hs : Keeps z s)
    (hf : ∀ a t, Keeps z t → Keeps z (f a t)) : Keeps z (eachDo l f s) :=
  Keeps.foldl hs fun t a => hf a t

theorem setReg_keeps {z s : State} (h : Keeps z s) (a : Nat) (v : Word) : Keeps z (s.setReg a v) :=
  ⟨fun q => tabWf_tabSet _ _ _ _ (h.regs q), h.mem, h.fuse, h.pend, h.sent, h.free⟩

theorem setByte_keeps {z s : State} (h : Keeps z s) (a : Nat) (v : BitVec 8) : Keeps z (s.setByte a v) :=
  ⟨h.regs, fun q => tabWf_tabSet _ _ _ _ (h.mem q), h.fuse, h.pend, h.sent, h.free⟩

/-- Dropping stored bytes leaves the canonical form. -/
theorem Keeps.memFilter {z s : State} (h : Keeps z s) (p : Host.Cell → Bool) : Keeps z { s with mem := s.mem.filter p } :=
  ⟨h.regs, fun q => tabWf_filter _ _ _ (h.mem q), h.fuse, h.pend, h.sent, h.free⟩

theorem Keeps.regsFilter {z s : State} (h : Keeps z s) (p : Nat × Word → Bool) : Keeps z { s with regs := s.regs.filter p } :=
  ⟨fun q => tabWf_filter _ _ _ (h.regs q), h.mem, h.fuse, h.pend, h.sent, h.free⟩

theorem Keeps.memNil {z s : State} (h : Keeps z s) : Keeps z { s with mem := [] } :=
  ⟨h.regs, fun _ => rfl, h.fuse, h.pend, h.sent, h.free⟩

/-- Stored bytes dropped and others written into their place. -/
theorem Keeps.memFold {z s : State} (h : Keeps z s) (l : List Host.Cell) (p : Host.Cell → Bool) :
    Keeps z { s with mem := l.foldl (fun m c => tabSet memDefault m c.1 c.2) (s.mem.filter p) } := by
  refine ⟨h.regs, fun q => ?_, h.fuse, h.pend, h.sent, h.free⟩
  have : ∀ m, tabWf memDefault m = true → tabWf memDefault (l.foldl (fun m c => tabSet memDefault m c.1 c.2) m) = true := by
    induction l with
    | nil => exact fun _ hm => hm
    | cons c r ih => exact fun m hm => ih _ (tabWf_tabSet _ _ _ _ hm)
  exact this _ (tabWf_filter _ _ _ (h.mem q))

theorem blow_keeps {z s : State} (h : Keeps z s) (w : Nat) (v : Word) : Keeps z (blow w v s) := by
  refine ⟨h.regs, h.mem, fun x i q => ?_, h.pend, h.sent, h.free⟩
  have hb := h.fuse x i q
  simp only [State.blown, State.fuse, blow, tabGet_tabSet] at *
  split
  · next e => subst e; exact (BitVec.getLsbD_or ..).trans (by rw [hb]; rfl)
  · exact hb

/-- A meaning answers a next state, and that keeps what every command keeps. -/
def OutKeeps (z : State) (o : Out) : Prop := ∃ t, o = .next t ∧ Keeps z t

theorem next_keeps {z t : State} (h : Keeps z t) : OutKeeps z (.next t) := ⟨t, rfl, h⟩

/-- Where a meaning is chosen, it keeps what every command keeps. -/
structure OptKeeps (z : State) (x : Option Out) : Prop where
  out : ∀ o, x = some o → OutKeeps z o

theorem none_keeps {z : State} : OptKeeps z none := ⟨fun _ e => by cases e⟩

theorem some_keeps {z : State} {o : Out} (h : OutKeeps z o) : OptKeeps z (some o) :=
  ⟨fun _ e => Option.some.inj e ▸ h⟩

theorem OptKeeps.ite {z : State} {a b : Option Out} {c : Prop} [Decidable c] (ha : OptKeeps z a) (hb : OptKeeps z b) :
    OptKeeps z (if c then a else b) := by
  split <;> assumption

theorem OptKeeps.getD {z : State} {x : Option Out} {o : Out} (hx : OptKeeps z x) (ho : OutKeeps z o) : OutKeeps z (x.getD o) := by
  rcases e : x with _ | y
  · exact ho
  · exact hx.out y e

theorem OutKeeps.ite {z : State} {a b : Out} {c : Prop} [Decidable c] (ha : OutKeeps z a) (hb : OutKeeps z b) :
    OutKeeps z (if c then a else b) := by
  split <;> assumption

end Sys2Proof.Machine
end

