-- ==== Sys2Proof/Laws/KeepsOps.lean ====
section
/-! SUPPORT. One lemma for each operation that answers a state: it keeps what every command keeps. Here registers, links, strands, faults and the other shared operations. -/

namespace Sys2Proof.Machine

theorem put_keeps {z s : State} (f : Fld) (x : Nat) (hz : Keeps z s) : Keeps z (State.put s f x) := by
  unfold State.put
  repeat' first
    | with_reducible assumption
    | with_reducible apply setReg_keeps

theorem raise_keeps {z s : State} (f : Fld) (hz : Keeps z s) : Keeps z (State.raise s f) := by
  unfold State.raise
  repeat' first
    | with_reducible assumption
    | with_reducible apply put_keeps

theorem lower_keeps {z s : State} (f : Fld) (hz : Keeps z s) : Keeps z (State.lower s f) := by
  unfold State.lower
  repeat' first
    | with_reducible assumption
    | with_reducible apply put_keeps

theorem putFlag_keeps {z s : State} (f : Fld) (b : Bool) (hz : Keeps z s) : Keeps z (State.putFlag s f b) := by
  unfold State.putFlag
  repeat' first
    | with_reducible assumption
    | with_reducible apply put_keeps

theorem incSat_keeps {z s : State} (f : Fld) (hz : Keeps z s) : Keeps z (State.incSat s f) := by
  unfold State.incSat
  repeat' first
    | with_reducible assumption
    | with_reducible apply put_keeps

theorem addSat_keeps {z s : State} (f : Fld) (k : Nat) (hz : Keeps z s) : Keeps z (State.addSat s f k) := by
  unfold State.addSat
  repeat' first
    | with_reducible assumption
    | with_reducible apply put_keeps

theorem incMod_keeps {z s : State} (f : Fld) (hz : Keeps z s) : Keeps z (State.incMod s f) := by
  unfold State.incMod
  repeat' first
    | with_reducible assumption
    | with_reducible apply put_keeps

theorem setMemWord_keeps {z s : State} (a : Nat) (v : Word) (hz : Keeps z s) : Keeps z (State.setMemWord s a v) := by
  unfold State.setMemWord
  try dsimp only
  repeat' first
    | with_reducible assumption
    | with_reducible apply setByte_keeps

theorem emit_keeps {z s : State} (o : Sent) (h : Keeps z s) : Keeps z (s.emit o) :=
  h.updSent [o] _ _ _ _ _ _ _ _ _ _ _ _ _ _ _ _ _ _ _ _ _ _ _ _ _ _ _ _ _ _ _ _ _ _ _ _ _ _ _ _ _ _ _ _ _ _ _ _ _ _ _ _ _ _ _ _ _

theorem setRim_keeps {z s : State} (n : Nat) (r : Rim) (hz : Keeps z s) : Keeps z (State.setRim s n r) := by
  unfold State.setRim
  try dsimp only
  repeat' first
    | with_reducible assumption
    | (intro _ _ _)
    | (intro _ _)
    | with_reducible apply Keeps.upd

theorem setStrand_keeps {z s : State} (n : Nat) (r : Strand) (hz : Keeps z s) : Keeps z (State.setStrand s n r) := by
  unfold State.setStrand
  try dsimp only
  repeat' first
    | with_reducible assumption
    | (intro _ _ _)
    | (intro _ _)
    | with_reducible apply Keeps.upd

theorem modStrand_keeps {z s : State} (n : Nat) (f : Strand → Strand) (hz : Keeps z s) : Keeps z (State.modStrand s n f) := by
  unfold State.modStrand
  repeat' first
    | with_reducible assumption
    | with_reducible apply setStrand_keeps

theorem modRim_keeps {z s : State} (n : Nat) (f : Rim → Rim) (hz : Keeps z s) : Keeps z (State.modRim s n f) := by
  unfold State.modRim
  repeat' first
    | with_reducible assumption
    | with_reducible apply setRim_keeps

theorem setLink_keeps {z s : State} (l : Nat) (x : Link) (hz : Keeps z s) : Keeps z (State.setLink s l x) := by
  unfold State.setLink
  try dsimp only
  repeat' first
    | with_reducible assumption
    | (intro _ _ _)
    | (intro _ _)
    | with_reducible apply Keeps.upd

theorem setLane_keeps {z s : State} (p : Nat) (x : LaneRun) (hz : Keeps z s) : Keeps z (State.setLane s p x) := by
  unfold State.setLane
  try dsimp only
  repeat' first
    | with_reducible assumption
    | (intro _ _ _)
    | (intro _ _)
    | with_reducible apply Keeps.upd

theorem openFrame_keeps {z s : State} (l : Nat) (f : Frame) (hz : Keeps z s) : Keeps z (openFrame l f s) := by
  unfold openFrame
  try dsimp only
  repeat' first
    | with_reducible assumption
    | with_reducible apply setLink_keeps
    | with_reducible apply emit_keeps

theorem drainLink_keeps {z : State} (n l : Nat) {s : State} (h : Keeps z s) : Keeps z (drainLink n l s) := by
  induction n generalizing s with
  | zero => exact h
  | succ n ih =>
    unfold drainLink
    split
    · exact ih (openFrame_keeps _ _ (setLink_keeps _ _ h))
    · exact h

theorem drain_keeps {z s : State} (l : Nat) (hz : Keeps z s) : Keeps z (drain l s) := by
  unfold drain
  try dsimp only
  repeat' first
    | with_reducible assumption
    | with_reducible apply drainLink_keeps

theorem sendFrame_keeps {z s : State} (l : Nat) (f : Frame) (hz : Keeps z s) : Keeps z (sendFrame l f s) := by
  unfold sendFrame
  try dsimp only
  repeat' first
    | with_reducible assumption
    | with_reducible apply drain_keeps
    | with_reducible apply setLink_keeps

theorem storeEntry_keeps {z s : State} (a : Nat) (ws : List Word) (hz : Keeps z s) : Keeps z (storeEntry a ws s) := by
  unfold storeEntry
  try dsimp only
  repeat' first
    | with_reducible assumption
    | with_reducible apply eachDo_keeps
    | with_reducible apply setMemWord_keeps
    | with_reducible apply eachDo_keeps
    | (intro _ _ _)

theorem setReserved_keeps {z s : State} (b : Nat) (k : Nat) (hz : Keeps z s) : Keeps z (State.setReserved s b k) := by
  unfold State.setReserved
  try dsimp only
  repeat' first
    | with_reducible assumption
    | (intro _ _ _)
    | (intro _ _)
    | with_reducible apply Keeps.upd

theorem cplToRing_keeps {z s : State} (b : Nat) (ws : List Word) (hz : Keeps z s) : Keeps z (cplToRing b ws s) := by
  unfold cplToRing
  try dsimp only
  repeat' first
    | with_reducible assumption
    | with_reducible apply storeEntry_keeps
    | with_reducible apply put_keeps
    | with_reducible apply setReserved_keeps
    | with_reducible apply raise_keeps

theorem cplToLane_keeps {z s : State} (p : Nat) (b : Nat) (ws : List Word) (hz : Keeps z s) : Keeps z (cplToLane p b ws s) := by
  unfold cplToLane
  repeat' first
    | with_reducible assumption
    | with_reducible apply sendFrame_keeps
    | with_reducible apply incSat_keeps
    | with_reducible apply Keeps.ite

theorem writeCpl_keeps {z s : State} (src : CmdSrc) (viaRing : Bool) (w0 : Word) (w1 : Word) (code : Nat) (detail : Nat) (edge : Nat) (hz : Keeps z s) : Keeps z (writeCpl src viaRing w0 w1 code detail edge s) := by
  unfold writeCpl
  try dsimp only
  repeat' first
    | with_reducible assumption
    | with_reducible apply cplToRing_keeps
    | with_reducible apply incSat_keeps
    | with_reducible apply setReserved_keeps
    | with_reducible apply cplToLane_keeps
    | with_reducible apply Keeps.ite
    | split

theorem countSlots_keeps {z s : State} (b : Nat) (hz : Keeps z s) : Keeps z (countSlots b s) := by
  unfold countSlots
  try dsimp only
  repeat' first
    | with_reducible assumption
    | with_reducible apply put_keeps
    | with_reducible apply Keeps.ite

theorem modHop_keeps {z s : State} (i : Nat) (f : Hop → Hop) (hz : Keeps z s) : Keeps z (State.modHop s i f) := by
  unfold State.modHop
  try dsimp only
  repeat' first
    | with_reducible assumption
    | with_reducible apply id_keeps
    | with_reducible apply Keeps.ite
    | (intro _ _ _)
    | (intro _ _)
    | split
    | with_reducible apply Keeps.upd

theorem leaveRing_keeps {z s : State} (h : Hop) (hz : Keeps z s) : Keeps z (leaveRing h s) := by
  unfold leaveRing
  try dsimp only
  repeat' first
    | with_reducible assumption
    | with_reducible apply put_keeps
    | with_reducible apply eachDo_keeps
    | with_reducible apply addSat_keeps
    | with_reducible apply eachDo_keeps
    | with_reducible apply Keeps.ite
    | (intro _ _ _)
    | (intro _ _)
    | split

theorem completeHop_keeps {z s : State} (h : Hop) (code : Nat) (detail : Nat) (edge : Nat) (hz : Keeps z s) : Keeps z (completeHop h code detail edge s) := by
  unfold completeHop
  try dsimp only
  repeat' first
    | with_reducible assumption
    | with_reducible apply countSlots_keeps
    | with_reducible apply writeCpl_keeps
    | with_reducible apply id_keeps
    | (intro _ _ _)
    | (intro _ _)
    | with_reducible apply Keeps.upd

theorem completeQueued_keeps {z s : State} (h : Hop) (code : Nat) (detail : Nat) (edge : Nat) (hz : Keeps z s) : Keeps z (completeQueued h code detail edge s) := by
  unfold completeQueued
  try dsimp only
  repeat' first
    | with_reducible assumption
    | with_reducible apply setReserved_keeps
    | with_reducible apply completeHop_keeps
    | with_reducible apply leaveRing_keeps
    | with_reducible apply Keeps.ite

theorem abortEntry_keeps {z s : State} (nw : Bool) (h : Hop) (hz : Keeps z s) : Keeps z (abortEntry nw h s) := by
  unfold abortEntry
  try dsimp only
  repeat' first
    | with_reducible assumption
    | with_reducible apply setReserved_keeps
    | with_reducible apply incSat_keeps
    | with_reducible apply id_keeps
    | with_reducible apply Keeps.ite

theorem abortReply_keeps {z s : State} (nw : Bool) (h : Hop) (hz : Keeps z s) : Keeps z (abortReply nw h s) := by
  unfold abortReply
  try dsimp only
  repeat' first
    | with_reducible assumption
    | with_reducible apply writeCpl_keeps
    | with_reducible apply cplToLane_keeps
    | with_reducible apply id_keeps
    | with_reducible apply Keeps.ite
    | (intro _ _ _)
    | (intro _ _)
    | split

theorem dropHop_keeps {z s : State} (h : Hop) (hz : Keeps z s) : Keeps z (dropHop h s) := by
  unfold dropHop
  try dsimp only
  repeat' first
    | with_reducible assumption
    | with_reducible apply eachDo_keeps
    | with_reducible apply modRim_keeps
    | with_reducible apply eachDo_keeps
    | with_reducible apply id_keeps
    | with_reducible apply Keeps.ite
    | (intro _ _ _)
    | (intro _ _)
    | split
    | with_reducible apply Keeps.upd

theorem abortHop_keeps {z s : State} (nw : Bool) (h : Hop) (hz : Keeps z s) : Keeps z (abortHop nw h s) := by
  unfold abortHop
  try dsimp only
  repeat' first
    | with_reducible assumption
    | with_reducible apply modHop_keeps
    | with_reducible apply countSlots_keeps
    | with_reducible apply abortReply_keeps
    | with_reducible apply abortEntry_keeps
    | with_reducible apply dropHop_keeps
    | with_reducible apply leaveRing_keeps
    | with_reducible apply id_keeps
    | with_reducible apply Keeps.ite

theorem abortHops_keeps {z s : State} (nw : Bool) (p : Hop → Bool) (hz : Keeps z s) : Keeps z (abortHops nw p s) := by
  unfold abortHops
  repeat' first
    | with_reducible assumption
    | with_reducible apply eachDo_keeps
    | with_reducible apply abortHop_keeps
    | with_reducible apply eachDo_keeps
    | (intro _ _ _)

theorem parkSpoke_keeps {z s : State} (c : Nat → Fld) (n : Nat) (hz : Keeps z s) : Keeps z (parkSpoke c n s) := by
  unfold parkSpoke
  try dsimp only
  repeat' first
    | with_reducible assumption
    | with_reducible apply raise_keeps
    | with_reducible apply put_keeps
    | with_reducible apply incSat_keeps
    | with_reducible apply Keeps.ite

theorem leaveParked_keeps {z s : State} (n : Nat) (st : Nat) (hz : Keeps z s) : Keeps z (leaveParked n st s) := by
  unfold leaveParked
  repeat' first
    | with_reducible assumption
    | with_reducible apply put_keeps
    | with_reducible apply raise_keeps

theorem setSpoke_keeps {z s : State} (n : Nat) (x : Spoke) (hz : Keeps z s) : Keeps z (State.setSpoke s n x) := by
  unfold State.setSpoke
  try dsimp only
  repeat' first
    | with_reducible assumption
    | (intro _ _ _)
    | (intro _ _)
    | with_reducible apply Keeps.upd

theorem spokeApply_keeps {z s : State} (n : Nat) (hz : Keeps z s) : Keeps z (spokeApply n s) := by
  unfold spokeApply
  try dsimp only
  repeat' first
    | with_reducible assumption
    | with_reducible apply setSpoke_keeps
    | with_reducible apply lower_keeps
    | with_reducible apply parkSpoke_keeps
    | with_reducible apply Keeps.ite

theorem spokePending_keeps {z s : State} (n : Nat) (hz : Keeps z s) : Keeps z (spokePending n s) := by
  unfold spokePending
  try dsimp only
  repeat' first
    | with_reducible assumption
    | with_reducible apply spokeApply_keeps
    | with_reducible apply id_keeps
    | with_reducible apply Keeps.ite

theorem releaseSpoke_keeps {z s : State} (n : Nat) (hz : Keeps z s) : Keeps z (releaseSpoke n s) := by
  unfold releaseSpoke
  try dsimp only
  repeat' first
    | with_reducible assumption
    | with_reducible apply put_keeps
    | with_reducible apply spokePending_keeps
    | with_reducible apply raise_keeps
    | with_reducible apply leaveParked_keeps
    | with_reducible apply id_keeps
    | with_reducible apply Keeps.ite

theorem unparkSpoke_keeps {z s : State} (c : Nat → Fld) (n : Nat) (hz : Keeps z s) : Keeps z (unparkSpoke c n s) := by
  unfold unparkSpoke
  try dsimp only
  repeat' first
    | with_reducible assumption
    | with_reducible apply lower_keeps
    | with_reducible apply releaseSpoke_keeps
    | with_reducible apply Keeps.ite

theorem parkSpokes_keeps {z s : State} (c : Nat → Fld) (l : List Nat) (hz : Keeps z s) : Keeps z (parkSpokes c l s) := by
  unfold parkSpokes
  repeat' first
    | with_reducible assumption
    | with_reducible apply eachDo_keeps
    | with_reducible apply parkSpoke_keeps
    | with_reducible apply eachDo_keeps
    | (intro _ _ _)

theorem unparkSpokes_keeps {z s : State} (c : Nat → Fld) (l : List Nat) (hz : Keeps z s) : Keeps z (unparkSpokes c l s) := by
  unfold unparkSpokes
  repeat' first
    | with_reducible assumption
    | with_reducible apply eachDo_keeps
    | with_reducible apply unparkSpoke_keeps
    | with_reducible apply eachDo_keeps
    | (intro _ _ _)

theorem spokeStop_keeps {z s : State} (n : Nat) (hz : Keeps z s) : Keeps z (spokeStop n s) := by
  unfold spokeStop
  try dsimp only
  repeat' first
    | with_reducible assumption
    | with_reducible apply spokePending_keeps
    | with_reducible apply parkSpoke_keeps
    | with_reducible apply put_keeps
    | with_reducible apply leaveParked_keeps
    | with_reducible apply id_keeps
    | with_reducible apply Keeps.ite

theorem spokeStart_keeps {z s : State} (n : Nat) (hz : Keeps z s) : Keeps z (spokeStart n s) := by
  unfold spokeStart
  repeat' first
    | with_reducible assumption
    | with_reducible apply put_keeps
    | with_reducible apply unparkSpoke_keeps
    | with_reducible apply Keeps.ite

theorem setReedRun_keeps {z s : State} (n : Nat) (r : ReedRun) (hz : Keeps z s) : Keeps z (State.setReedRun s n r) := by
  unfold State.setReedRun
  try dsimp only
  repeat' first
    | with_reducible assumption
    | (intro _ _ _)
    | (intro _ _)
    | with_reducible apply Keeps.upd

theorem reedsHop_keeps {z s : State} (k : Nat) (hz : Keeps z s) : Keeps z (reedsHop k s) := by
  unfold reedsHop
  try dsimp only
  repeat' first
    | with_reducible assumption
    | with_reducible apply id_keeps
    | with_reducible apply Keeps.ite
    | (intro _ _ _)
    | (intro _ _)
    | split
    | with_reducible apply Keeps.upd

theorem setSplice_keeps {z s : State} (w : Nat) (x : Splice) (hz : Keeps z s) : Keeps z (setSplice w x s) := by
  unfold setSplice
  try dsimp only
  repeat' first
    | with_reducible assumption
    | (intro _ _ _)
    | (intro _ _)
    | with_reducible apply Keeps.upd

theorem spliceAbandon_keeps {z s : State} (st : Nat) (w : Nat) (hz : Keeps z s) : Keeps z (spliceAbandon st w s) := by
  unfold spliceAbandon
  try dsimp only
  repeat' first
    | with_reducible assumption
    | with_reducible apply put_keeps
    | (intro _ _ _)
    | (intro _ _)
    | split
    | with_reducible apply Keeps.upd

theorem abandonSplicesRim_keeps {z s : State} (n : Nat) (hz : Keeps z s) : Keeps z (abandonSplicesRim n s) := by
  unfold abandonSplicesRim
  repeat' first
    | with_reducible assumption
    | with_reducible apply eachDo_keeps
    | with_reducible apply spliceAbandon_keeps
    | with_reducible apply eachDo_keeps
    | (intro _ _ _)

theorem abortLoad_keeps {z s : State} (why : Nat) (hz : Keeps z s) : Keeps z (abortLoad why s) := by
  unfold abortLoad
  try dsimp only
  repeat' first
    | with_reducible assumption
    | with_reducible apply put_keeps
    | with_reducible apply raise_keeps
    | with_reducible apply Keeps.ite
    | split
    | with_reducible apply Keeps.upd

theorem slewOn_keeps {z s : State} (hz : Keeps z s) : Keeps z (slewOn s) := by
  unfold slewOn
  split
  · exact putFlag_keeps _ _ (hz.of_eq rfl rfl rfl rfl rfl (Nat.le_add_right _ 2))
  · exact hz

theorem tick_keeps {z s : State} (hz : Keeps z s) : Keeps z (tick s) :=
  (slewOn_keeps hz).of_eq rfl rfl rfl rfl rfl le_rfl

theorem setRate_keeps {z s : State} (r : Int) (w : Int) (hz : Keeps z s) : Keeps z (setRate r w s) := by
  unfold setRate
  try dsimp only
  repeat' first
    | with_reducible assumption
    | with_reducible apply put_keeps
    | with_reducible apply id_keeps
    | with_reducible apply Keeps.ite
    | (intro _ _ _)
    | (intro _ _)
    | split
    | with_reducible apply Keeps.upd

theorem setAvg_keeps {z s : State} (p : Nat) (l : List Int) (hz : Keeps z s) : Keeps z (setAvg p l s) := by
  unfold setAvg
  try dsimp only
  repeat' first
    | with_reducible assumption
    | (intro _ _ _)
    | (intro _ _)
    | with_reducible apply Keeps.upd

theorem showCount_keeps {z s : State} (p : Nat) (hz : Keeps z s) : Keeps z (showCount p s) := by
  unfold showCount
  try dsimp only
  repeat' first
    | with_reducible assumption
    | with_reducible apply put_keeps
    | with_reducible apply putFlag_keeps
    | with_reducible apply Keeps.ite

theorem restartAvg_keeps {z s : State} (p : Nat) (hz : Keeps z s) : Keeps z (restartAvg p s) := by
  unfold restartAvg
  try dsimp only
  repeat' first
    | with_reducible assumption
    | with_reducible apply showCount_keeps
    | with_reducible apply setAvg_keeps
    | with_reducible apply setReg_keeps
    | with_reducible apply setReg_keeps
    | with_reducible apply Keeps.ite

theorem tallyHandover_keeps {z s : State} (hz : Keeps z s) : Keeps z (tallyHandover s) := by
  unfold tallyHandover
  try dsimp only
  repeat' first
    | with_reducible assumption
    | with_reducible apply eachDo_keeps
    | with_reducible apply restartAvg_keeps
    | with_reducible apply eachDo_keeps
    | with_reducible apply id_keeps
    | with_reducible apply Keeps.ite
    | (intro _ _ _)
    | (intro _ _)
    | split
    | with_reducible apply Keeps.upd

theorem mput_keeps {z s : State} (f : Fld) (x : Nat) (hz : Keeps z s) : Keeps z (State.mput s f x) := by
  unfold State.mput
  try dsimp only
  repeat' first
    | with_reducible assumption
    | with_reducible apply setMemWord_keeps
    | with_reducible apply id_keeps
    | with_reducible apply Keeps.ite
    | (intro _ _ _)
    | (intro _ _)
    | split

theorem reedFull_keeps {z s : State} (n : Nat) (hz : Keeps z s) : Keeps z (reedFull n s) := by
  unfold reedFull
  repeat' first
    | with_reducible assumption
    | with_reducible apply putFlag_keeps

theorem clearBytes_keeps {z s : State} (a len : Nat) (h : Keeps z s) : Keeps z (clearBytes a len s) := h.memFilter _

theorem clearHist_keeps {z s : State} (n : Nat) (hz : Keeps z s) : Keeps z (clearHist n s) := by
  unfold clearHist
  repeat' first
    | with_reducible assumption
    | with_reducible apply clearBytes_keeps

theorem reedTryStart_keeps {z s : State} (n : Nat) (hz : Keeps z s) : Keeps z (reedTryStart n s) := by
  unfold reedTryStart
  try dsimp only
  repeat' first
    | with_reducible assumption
    | with_reducible apply put_keeps
    | with_reducible apply clearHist_keeps
    | with_reducible apply setReedRun_keeps
    | with_reducible apply Keeps.ite

theorem bumpBin_keeps {z s : State} (n : Nat) (b : Nat) (hz : Keeps z s) : Keeps z (bumpBin n b s) := by
  unfold bumpBin
  try dsimp only
  repeat' first
    | with_reducible assumption
    | with_reducible apply setMemWord_keeps

theorem reedFinish_keeps {z s : State} (n : Nat) (cut : Bool) (timeout : Bool) (nr : Bool) (d : ReedData) (hz : Keeps z s) : Keeps z (reedFinish n cut timeout nr d s) := by
  unfold reedFinish
  try dsimp only
  repeat' first
    | with_reducible assumption
    | with_reducible apply eachDo_keeps
    | with_reducible apply bumpBin_keeps
    | with_reducible apply setMemWord_keeps
    | with_reducible apply put_keeps
    | with_reducible apply reedFull_keeps
    | with_reducible apply raise_keeps
    | with_reducible apply eachDo_keeps
    | with_reducible apply id_keeps
    | with_reducible apply Keeps.ite
    | (intro _ _ _)

theorem freeReed_keeps {z s : State} (h : Keeps z s) : Keeps z s.freeReed.2 :=
  h.of_eq rfl rfl rfl rfl rfl (Nat.le_add_right _ 2)

theorem reedCut_keeps {z s : State} (n : Nat) (h : Keeps z s) : Keeps z (reedCut n s) := by
  unfold reedCut
  split
  · exact reedFinish_keeps _ _ _ _ _ (freeReed_keeps h)
  · exact put_keeps _ _ h

theorem cutReeds_keeps {z s : State} (p : Nat → Bool) (hz : Keeps z s) : Keeps z (cutReeds p s) := by
  unfold cutReeds
  try dsimp only
  repeat' first
    | with_reducible assumption
    | with_reducible apply eachDo_keeps
    | with_reducible apply reedCut_keeps
    | with_reducible apply eachDo_keeps
    | (intro _ _ _)

theorem reedsStopped_keeps {z s : State} (k : Nat) (hz : Keeps z s) : Keeps z (reedsStopped k s) := by
  unfold reedsStopped
  try dsimp only
  repeat' first
    | with_reducible assumption
    | with_reducible apply eachDo_keeps
    | with_reducible apply freeReed_keeps
    | with_reducible apply reedFinish_keeps
    | with_reducible apply eachDo_keeps
    | with_reducible apply id_keeps
    | with_reducible apply Keeps.ite
    | (intro _ _ _)

theorem reedRequest_keeps {z s : State} (n : Nat) (hz : Keeps z s) : Keeps z (reedRequest n s) := by
  unfold reedRequest
  try dsimp only
  repeat' first
    | with_reducible assumption
    | with_reducible apply reedCut_keeps
    | with_reducible apply reedTryStart_keeps
    | with_reducible apply setReedRun_keeps
    | with_reducible apply put_keeps

theorem runEdges_keeps {z s : State} (k : Nat) (n : Nat) (hz : Keeps z s) : Keeps z (runEdges k n s) := by
  unfold runEdges
  try dsimp only
  repeat' first
    | with_reducible assumption
    | with_reducible apply reedsHop_keeps
    | with_reducible apply setStrand_keeps
    | with_reducible apply Keeps.ite

theorem stopStrand_keeps {z : State} (d k : Nat) {s : State} (h : Keeps z s) : Keeps z (stopStrand d k s) := by
  have hb : ∀ k t, Keeps z t → Keeps z (eachDo (((reedsStopped k (t.lower (STR_STATUS_RUN k))).modStrand k fun x =>
      { x with ramp := none, pend := false }).strandSpokes k) spokeStop ((reedsStopped k (t.lower (STR_STATUS_RUN k))).modStrand k fun x =>
      { x with ramp := none, pend := false })) :=
    fun _ t ht => eachDo_keeps (modStrand_keeps _ _ (reedsStopped_keeps _ (lower_keeps _ ht))) fun _ _ hu => spokeStop_keeps _ hu
  induction d generalizing k s with
  | zero => exact hb k s h
  | succ d ih => exact eachDo_keeps (hb k s h) fun c u hu => ih c (runEdges_keeps _ _ hu)

theorem shiftStrand_keeps {z s : State} (splice : Bool) (delta : Int) (k : Nat) (hz : Keeps z s) : Keeps z (shiftStrand splice delta k s) := by
  unfold shiftStrand
  try dsimp only
  repeat' first
    | with_reducible assumption
    | with_reducible apply modStrand_keeps

theorem becomeDue_keeps {z s : State} (h : Hop) (hz : Keeps z s) : Keeps z (becomeDue h s) := by
  unfold becomeDue
  try dsimp only
  repeat' first
    | with_reducible assumption
    | with_reducible apply completeHop_keeps
    | with_reducible apply incSat_keeps
    | with_reducible apply modHop_keeps
    | with_reducible apply id_keeps
    | with_reducible apply Keeps.ite

theorem settleArmed_keeps {z s : State} (h : Hop) (hz : Keeps z s) : Keeps z (settleArmed h s) := by
  unfold settleArmed
  try dsimp only [State.fresh]
  repeat' first
    | with_reducible assumption
    | with_reducible apply modHop_keeps
    | with_reducible apply becomeDue_keeps
    | with_reducible apply completeHop_keeps
    | with_reducible apply id_keeps
    | with_reducible apply Keeps.ite
    | (intro _ _ _)
    | (intro _ _)
    | split
    | with_reducible apply Keeps.upd
    | with_reducible apply Keeps.updFree

theorem armHop_keeps {z s : State} (h : Hop) (hz : Keeps z s) : Keeps z (armHop h s) := by
  unfold armHop
  try dsimp only
  repeat' first
    | with_reducible assumption
    | with_reducible apply settleArmed_keeps
    | with_reducible apply modHop_keeps
    | with_reducible apply id_keeps
    | (intro _ _ _)
    | (intro _ _)
    | with_reducible apply Keeps.upd

theorem resettle_keeps {z s : State} (p : Hop → Bool) (hz : Keeps z s) : Keeps z (resettle p s) := by
  unfold resettle
  try dsimp only
  repeat' first
    | with_reducible assumption
    | with_reducible apply eachDo_keeps
    | with_reducible apply settleArmed_keeps
    | with_reducible apply modHop_keeps
    | with_reducible apply id_keeps
    | with_reducible apply eachDo_keeps
    | with_reducible apply Keeps.ite
    | (intro _ _ _)
    | (intro _ _)
    | split

theorem settleStrand_keeps {z s : State} (k : Nat) (hz : Keeps z s) : Keeps z (settleStrand k s) := by
  unfold settleStrand
  repeat' first
    | with_reducible assumption
    | with_reducible apply resettle_keeps

theorem settleRim_keeps {z s : State} (n : Nat) (hz : Keeps z s) : Keeps z (settleRim n s) := by
  unfold settleRim
  try dsimp only
  repeat' first
    | with_reducible assumption
    | with_reducible apply resettle_keeps

theorem setReady_keeps {z s : State} (n : Nat) (hz : Keeps z s) : Keeps z (setReady n s) := by
  unfold setReady
  try dsimp only
  repeat' first
    | with_reducible assumption
    | with_reducible apply putFlag_keeps
    | with_reducible apply reedsNotReady_keeps
    | with_reducible apply raise_keeps
    | with_reducible apply spliceAbandon_keeps
    | with_reducible apply settleStrand_keeps
    | with_reducible apply Keeps.ite

theorem refreshReady_keeps {z : State} (d n : Nat) {s : State} (h : Keeps z s) : Keeps z (refreshReady d n s) := by
  induction d generalizing n s with
  | zero => exact setReady_keeps _ h
  | succ d ih => exact eachDo_keeps (setReady_keeps _ h) fun c u hu => ih c (putFlag_keeps _ _ hu)

theorem setReason_keeps {z s : State} (f : Nat → Fld) (b : Bool) (n : Nat) (hz : Keeps z s) : Keeps z (setReason f b n s) := by
  unfold setReason
  try dsimp only
  repeat' first
    | with_reducible assumption
    | with_reducible apply refreshReady_keeps
    | with_reducible apply putFlag_keeps

theorem logLevel_keeps {z s : State}  (hz : Keeps z s) : Keeps z (logLevel s) := by
  unfold logLevel
  try dsimp only
  repeat' first
    | with_reducible assumption
    | with_reducible apply putFlag_keeps
    | with_reducible apply raise_keeps
    | with_reducible apply Keeps.ite

theorem logPut_keeps {z s : State} (msg : Nat) (hz : Keeps z s) : Keeps z (logPut msg s) := by
  unfold logPut
  try dsimp only
  repeat' first
    | with_reducible assumption
    | with_reducible apply setMemWord_keeps
    | with_reducible apply logLevel_keeps
    | with_reducible apply put_keeps

theorem logMark_keeps {z s : State} (hz : Keeps z s) : Keeps z (logMark s) := by
  unfold logMark
  try dsimp only
  repeat' first
    | with_reducible assumption
    | with_reducible apply logPut_keeps
    | with_reducible apply id_keeps
    | with_reducible apply Keeps.ite
    | (intro _ _ _)
    | (intro _ _)
    | split
    | with_reducible apply Keeps.upd

theorem logWrite_keeps {z s : State} (msg : Nat) (hz : Keeps z s) : Keeps z (logWrite msg s) := by
  unfold logWrite
  try dsimp only
  repeat' first
    | with_reducible assumption
    | with_reducible apply logMark_keeps
    | with_reducible apply logPut_keeps
    | with_reducible apply id_keeps
    | with_reducible apply Keeps.ite

theorem logResume_keeps {z s : State}  (hz : Keeps z s) : Keeps z (logResume s) := by
  unfold logResume
  try dsimp only
  repeat' first
    | with_reducible assumption
    | with_reducible apply logWrite_keeps
    | with_reducible apply setReg_keeps
    | with_reducible apply setReg_keeps
    | with_reducible apply Keeps.ite

theorem logInfo_keeps {z s : State} (k : FaultKind) (b : Option Nat) (detail : Nat) (hz : Keeps z s) : Keeps z (logInfo k b detail s) := by
  unfold logInfo
  repeat' first
    | with_reducible assumption
    | with_reducible apply logWrite_keeps

theorem logGB_keeps {z s : State} (msg : Nat) (hz : Keeps z s) : Keeps z (logGB msg s) := by
  unfold logGB
  try dsimp only
  repeat' first
    | with_reducible assumption
    | with_reducible apply logMark_keeps
    | with_reducible apply incSat_keeps
    | with_reducible apply raise_keeps
    | with_reducible apply logPut_keeps
    | with_reducible apply id_keeps
    | with_reducible apply Keeps.ite

theorem logW_keeps {z s : State} (msg : Nat) (src : Nat) (k : FaultKind) (b : Option Nat) (hz : Keeps z s) : Keeps z (logW msg src k b s) := by
  unfold logW
  try dsimp only
  repeat' first
    | with_reducible assumption
    | with_reducible apply incSat_keeps
    | with_reducible apply raise_keeps
    | with_reducible apply logWrite_keeps
    | with_reducible apply Keeps.ite
    | (intro _ _ _)
    | (intro _ _)
    | split
    | with_reducible apply Keeps.upd

theorem faultN_keeps {z s : State}  (hz : Keeps z s) : Keeps z (faultN s) := by
  unfold faultN
  try dsimp only
  repeat' first
    | with_reducible assumption
    | with_reducible apply putFlag_keeps
    | with_reducible apply put_keeps
    | with_reducible apply raise_keeps
    | with_reducible apply Keeps.ite

theorem countCauses_keeps {z s : State} (b : Nat) (hz : Keeps z s) : Keeps z (countCauses b s) := by
  unfold countCauses
  try dsimp only
  repeat' first
    | with_reducible assumption
    | with_reducible apply put_keeps

theorem showHeld_keeps {z s : State} (m : Nat) (hz : Keeps z s) : Keeps z (showHeld m s) := by
  unfold showHeld
  repeat' first
    | with_reducible assumption
    | with_reducible apply put_keeps

theorem setQuiet_keeps {z s : State} (b : Nat) (run : Bool) (hz : Keeps z s) : Keeps z (setQuiet b run s) := by
  unfold setQuiet
  try dsimp only
  repeat' first
    | with_reducible assumption
    | with_reducible apply put_keeps
    | with_reducible apply Keeps.ite
    | (intro _ _ _)
    | (intro _ _)
    | split
    | with_reducible apply Keeps.upd

theorem startQuiet_keeps {z s : State} (b : Nat) (hz : Keeps z s) : Keeps z (startQuiet b s) := by
  unfold startQuiet
  repeat' first
    | with_reducible assumption
    | with_reducible apply setQuiet_keeps

theorem dropCause_keeps {z s : State} (src : Nat) (k : FaultKind) (b : Nat) (hz : Keeps z s) : Keeps z (dropCause src k b s) := by
  unfold dropCause
  try dsimp only
  repeat' first
    | with_reducible assumption
    | with_reducible apply logInfo_keeps
    | with_reducible apply startQuiet_keeps
    | with_reducible apply countCauses_keeps
    | (intro _ _ _)
    | (intro _ _)
    | with_reducible apply Keeps.upd

theorem clearCause_keeps {z s : State} (src : Nat) (k : FaultKind) (b : Nat) (hz : Keeps z s) : Keeps z (clearCause src k b s) := by
  unfold clearCause
  try dsimp only
  repeat' first
    | with_reducible assumption
    | with_reducible apply dropCause_keeps
    | with_reducible apply Keeps.ite
    | (intro _ _ _)
    | (intro _ _)
    | split
    | with_reducible apply Keeps.upd

theorem basketFault_keeps {z s : State} (b : Nat) (hz : Keeps z s) : Keeps z (basketFault b s) := by
  unfold basketFault
  try dsimp only
  repeat' first
    | with_reducible assumption
    | with_reducible apply parkSpokes_keeps
    | with_reducible apply logInfo_keeps
    | with_reducible apply put_keeps
    | with_reducible apply raise_keeps
    | with_reducible apply faultN_keeps
    | with_reducible apply startQuiet_keeps
    | with_reducible apply Keeps.ite

theorem setEsc_keeps {z s : State} (src : Nat) (k : FaultKind) (b : Option Nat) (ts : List Nat) (hz : Keeps z s) : Keeps z (setEsc src k b ts s) := by
  unfold setEsc
  try dsimp only
  repeat' first
    | with_reducible assumption
    | with_reducible apply Keeps.ite
    | (intro _ _ _)
    | (intro _ _)
    | split
    | with_reducible apply Keeps.upd

theorem noteB_keeps {z s : State} (b : Nat) (msg : Nat) (hz : Keeps z s) : Keeps z (noteB b msg s) := by
  unfold noteB
  try dsimp only
  repeat' first
    | with_reducible assumption
    | with_reducible apply incSat_keeps
    | with_reducible apply setReg_keeps
    | with_reducible apply raise_keeps

theorem raiseB_keeps {z s : State} (src : Nat) (k : FaultKind) (b : Nat) (detail : Nat) (injected : Option Nat) (hz : Keeps z s) : Keeps z (raiseB src k b detail injected s) := by
  unfold raiseB
  try dsimp only
  repeat' first
    | with_reducible assumption
    | with_reducible apply logGB_keeps
    | with_reducible apply noteB_keeps
    | with_reducible apply basketFault_keeps
    | with_reducible apply countCauses_keeps
    | with_reducible apply Keeps.ite
    | split
    | with_reducible apply Keeps.upd

theorem escalateDevice_keeps {z s : State} (src : Nat) (hz : Keeps z s) : Keeps z (escalateDevice src s) := by
  unfold escalateDevice
  try dsimp only
  repeat' first
    | with_reducible assumption
    | with_reducible apply Keeps.ite
    | split
    | with_reducible apply Keeps.upd

theorem raiseW_keeps {z s : State} (src : Nat) (k : FaultKind) (b : Option Nat) (detail : Nat) (hz : Keeps z s) : Keeps z (raiseW src k b detail s) := by
  unfold raiseW
  try dsimp only
  repeat' first
    | with_reducible assumption
    | with_reducible apply incMod_keeps
    | with_reducible apply logW_keeps
    | with_reducible apply setEsc_keeps
    | with_reducible apply basketFault_keeps
    | with_reducible apply logGB_keeps
    | with_reducible apply noteB_keeps
    | with_reducible apply escalateDevice_keeps
    | with_reducible apply raise_keeps
    | with_reducible apply Keeps.ite
    | (intro _ _ _)
    | (intro _ _)
    | split

theorem worseCell_keeps {z s : State} (phys : Nat) (hz : Keeps z s) : Keeps z (worseCell phys s) := by
  unfold worseCell
  try dsimp only
  repeat' first
    | with_reducible assumption
    | with_reducible apply mput_keeps

theorem setCellCal_keeps {z s : State} (phys : Nat) (c : Nat) (x : Option CellCal) (hz : Keeps z s) : Keeps z (setCellCal phys c x s) := by
  unfold setCellCal
  try dsimp only
  repeat' first
    | with_reducible assumption
    | with_reducible apply id_keeps
    | with_reducible apply Keeps.ite
    | (intro _ _ _)
    | (intro _ _)
    | split
    | with_reducible apply Keeps.upd

theorem refreshCal_keeps {z s : State} (k : Nat) (hz : Keeps z s) : Keeps z (refreshCal k s) := by
  unfold refreshCal
  try dsimp only
  repeat' first
    | with_reducible assumption
    | with_reducible apply setReason_keeps
    | with_reducible apply parkSpokes_keeps
    | with_reducible apply unparkSpokes_keeps
    | with_reducible apply Keeps.ite

theorem cellsChanged_keeps {z s : State} (phys : Nat) (hz : Keeps z s) : Keeps z (cellsChanged phys s) := by
  unfold cellsChanged
  try dsimp only
  repeat' first
    | with_reducible assumption
    | with_reducible apply worseCell_keeps
    | with_reducible apply refreshCal_keeps
    | with_reducible apply id_keeps
    | with_reducible apply Keeps.ite
    | (intro _ _ _)
    | (intro _ _)
    | split

theorem setStale_keeps {z s : State} (k : Nat) (b : Bool) (hz : Keeps z s) : Keeps z (setStale k b s) := by
  unfold setStale
  try dsimp only
  repeat' first
    | with_reducible assumption
    | with_reducible apply putFlag_keeps
    | with_reducible apply settleStrand_keeps

theorem showUnit_keeps {z s : State} (u : Nat) (hz : Keeps z s) : Keeps z (showUnit u s) := by
  unfold showUnit
  try dsimp only
  repeat' first
    | with_reducible assumption
    | with_reducible apply mput_keeps
    | with_reducible apply Keeps.ite
    | split

theorem setUnit_keeps {z s : State} (u : Nat) (x : CalUnit) (hz : Keeps z s) : Keeps z (setUnit u x s) := by
  unfold setUnit
  try dsimp only
  repeat' first
    | with_reducible assumption
    | with_reducible apply showUnit_keeps
    | (intro _ _ _)
    | (intro _ _)
    | with_reducible apply Keeps.upd

theorem unitIdle_keeps {z s : State} (u : Nat) (hz : Keeps z s) : Keeps z (unitIdle u s) := by
  unfold unitIdle
  try dsimp only
  repeat' first
    | with_reducible assumption
    | with_reducible apply setUnit_keeps

theorem writeResult_keeps {z s : State} (a : Nat) (result : Nat) (check : Nat) (hz : Keeps z s) : Keeps z (writeResult a result check s) := by
  unfold writeResult
  repeat' first
    | with_reducible assumption
    | with_reducible apply mput_keeps

theorem dropStore_keeps {z s : State}  (hz : Keeps z s) : Keeps z (dropStore s) := by
  unfold dropStore
  try dsimp only
  repeat' first
    | with_reducible assumption
    | with_reducible apply Keeps.ite
    | split
    | with_reducible apply Keeps.upd

theorem calAbandon_keeps {z s : State} (cause : Nat) (u : Nat) (hz : Keeps z s) : Keeps z (calAbandon cause u s) := by
  unfold calAbandon
  try dsimp only
  repeat' first
    | with_reducible assumption
    | with_reducible apply dropStore_keeps
    | with_reducible apply writeResult_keeps
    | with_reducible apply setStale_keeps
    | with_reducible apply lower_keeps
    | with_reducible apply setLane_keeps
    | with_reducible apply unitIdle_keeps
    | with_reducible apply id_keeps
    | with_reducible apply Keeps.ite
    | (intro _ _ _)
    | (intro _ _)
    | split

theorem dropPending_keeps {z s : State} (u : Nat) (x : Nat) (hz : Keeps z s) : Keeps z (dropPending u x s) := by
  unfold dropPending
  try dsimp only
  repeat' first
    | with_reducible assumption
    | with_reducible apply setUnit_keeps

theorem calEndWhere_keeps {z s : State} (cause : Nat) (p : Nat → Nat → Bool) (hz : Keeps z s) : Keeps z (calEndWhere cause p s) := by
  unfold calEndWhere
  try dsimp only
  repeat' first
    | with_reducible assumption
    | with_reducible apply eachDo_keeps
    | with_reducible apply setUnit_keeps
    | with_reducible apply calAbandon_keeps
    | with_reducible apply eachDo_keeps
    | with_reducible apply Keeps.ite
    | (intro _ _ _)
    | (intro _ _)
    | split

theorem abandonCalRim_keeps {z s : State} (n : Nat) (hz : Keeps z s) : Keeps z (abandonCalRim n s) := by
  unfold abandonCalRim
  try dsimp only
  repeat' first
    | with_reducible assumption
    | with_reducible apply eachDo_keeps
    | with_reducible apply calAbandon_keeps
    | with_reducible apply setUnit_keeps
    | with_reducible apply eachDo_keeps
    | with_reducible apply id_keeps
    | with_reducible apply Keeps.ite
    | (intro _ _ _)
    | (intro _ _)
    | split

theorem abandonCalHearth_keeps {z s : State}  (hz : Keeps z s) : Keeps z (abandonCalHearth s) := by
  unfold abandonCalHearth
  try dsimp only
  repeat' first
    | with_reducible assumption
    | with_reducible apply calAbandon_keeps
    | with_reducible apply Keeps.ite
    | split

theorem abandonCalSpare_keeps {z s : State} (p : Nat) (hz : Keeps z s) : Keeps z (abandonCalSpare p s) := by
  unfold abandonCalSpare
  try dsimp only
  repeat' first
    | with_reducible assumption
    | with_reducible apply calAbandon_keeps
    | with_reducible apply Keeps.ite
    | split

theorem queueRepairMap_keeps {z s : State}  (hz : Keeps z s) : Keeps z (queueRepairMap s) := by
  unfold queueRepairMap
  repeat' first
    | with_reducible assumption
    | with_reducible apply raise_keeps

theorem showWear_keeps {z s : State} (w : Nat) (hz : Keeps z s) : Keeps z (showWear w s) := by
  unfold showWear
  repeat' first
    | with_reducible assumption
    | with_reducible apply putFlag_keeps

theorem dischargeWear_keeps {z s : State} (k : Nat) (hz : Keeps z s) : Keeps z (dischargeWear k s) := by
  unfold dischargeWear
  try dsimp only
  repeat' first
    | with_reducible assumption
    | with_reducible apply showWear_keeps
    | with_reducible apply raise_keeps
    | with_reducible apply Keeps.ite
    | (intro _ _ _)
    | (intro _ _)
    | split
    | with_reducible apply Keeps.upd

theorem spliceDone_keeps {z s : State} (k : Nat) (hz : Keeps z s) : Keeps z (spliceDone k s) := by
  unfold spliceDone
  try dsimp only
  repeat' first
    | with_reducible assumption
    | with_reducible apply put_keeps
    | with_reducible apply raise_keeps
    | with_reducible apply modStrand_keeps
    | with_reducible apply setReason_keeps
    | with_reducible apply unparkSpokes_keeps
    | with_reducible apply clearCause_keeps
    | with_reducible apply settleStrand_keeps
    | with_reducible apply dischargeWear_keeps
    | with_reducible apply queueRepairMap_keeps
    | with_reducible apply refreshCal_keeps
    | (intro _ _ _)
    | (intro _ _)
    | split
    | with_reducible apply Keeps.upd

theorem spliceBegin_keeps {z s : State} (k : Nat) (hz : Keeps z s) : Keeps z (spliceBegin k s) := by
  unfold spliceBegin
  try dsimp only
  repeat' first
    | with_reducible assumption
    | with_reducible apply calAbandon_keeps
    | with_reducible apply put_keeps
    | with_reducible apply spliceDone_keeps
    | with_reducible apply reedsStale_keeps
    | with_reducible apply setSplice_keeps
    | with_reducible apply setUnit_keeps
    | with_reducible apply Keeps.ite

theorem spliceStart_keeps {z s : State} (k : Nat) (hz : Keeps z s) : Keeps z (spliceStart k s) := by
  unfold spliceStart
  try dsimp only
  repeat' first
    | with_reducible assumption
    | with_reducible apply spliceBegin_keeps
    | with_reducible apply Keeps.ite
    | (intro _ _ _)
    | (intro _ _)
    | split
    | with_reducible apply Keeps.upd

theorem spliceIfFree_keeps {z s : State} (k : Nat) (hz : Keeps z s) : Keeps z (spliceIfFree k s) := by
  unfold spliceIfFree
  repeat' first
    | with_reducible assumption
    | with_reducible apply spliceStart_keeps
    | with_reducible apply Keeps.ite

theorem wearSplice_keeps {z s : State} (k : Nat) (hz : Keeps z s) : Keeps z (wearSplice k s) := by
  unfold wearSplice
  try dsimp only
  repeat' first
    | with_reducible assumption
    | with_reducible apply spliceStart_keeps
    | with_reducible apply Keeps.ite
    | (intro _ _ _)
    | (intro _ _)
    | split
    | with_reducible apply Keeps.upd

theorem wearStrand_keeps {z s : State} (k : Nat) (hz : Keeps z s) : Keeps z (wearStrand k s) := by
  unfold wearStrand
  try dsimp only
  repeat' first
    | with_reducible assumption
    | with_reducible apply raiseW_keeps
    | with_reducible apply showWear_keeps
    | with_reducible apply raise_keeps
    | with_reducible apply wearSplice_keeps
    | with_reducible apply Keeps.ite
    | split
    | with_reducible apply Keeps.upd

theorem spliceCalDone_keeps {z s : State} (w : Nat) (ok : Bool) (hz : Keeps z s) : Keeps z (spliceCalDone w ok s) := by
  unfold spliceCalDone
  try dsimp only
  repeat' first
    | with_reducible assumption
    | with_reducible apply setSplice_keeps
    | with_reducible apply spliceAbandon_keeps
    | with_reducible apply Keeps.ite
    | split

theorem spliceFail_keeps {z s : State} (w : Nat) (hz : Keeps z s) : Keeps z (spliceFail w s) := by
  unfold spliceFail
  try dsimp only
  repeat' first
    | with_reducible assumption
    | with_reducible apply spliceAbandon_keeps
    | with_reducible apply raise_keeps
    | with_reducible apply raiseW_keeps
    | split

theorem spliceParked_keeps {z s : State} (k : Nat) (hz : Keeps z s) : Keeps z (spliceParked k s) := by
  unfold spliceParked
  try dsimp only
  repeat' first
    | with_reducible assumption
    | with_reducible apply setSplice_keeps
    | with_reducible apply Keeps.ite
    | split

theorem spliceStopped_keeps {z s : State} (k : Nat) (hz : Keeps z s) : Keeps z (spliceStopped k s) := by
  unfold spliceStopped
  try dsimp only
  repeat' first
    | with_reducible assumption
    | with_reducible apply spliceDone_keeps
    | with_reducible apply Keeps.ite
    | split

theorem raiseG_keeps {z s : State} (src : Nat) (k : FaultKind) (detail : Nat) (hz : Keeps z s) : Keeps z (raiseG src k detail s) := by
  unfold raiseG
  try dsimp only
  repeat' first
    | with_reducible assumption
    | with_reducible apply logGB_keeps
    | with_reducible apply incSat_keeps
    | with_reducible apply setReg_keeps
    | with_reducible apply raise_keeps
    | with_reducible apply parkSpokes_keeps
    | with_reducible apply abortHops_keeps
    | with_reducible apply eachDo_keeps
    | with_reducible apply spliceAbandon_keeps
    | with_reducible apply cutReeds_keeps
    | with_reducible apply calEndWhere_keeps
    | with_reducible apply abortLoad_keeps
    | with_reducible apply faultN_keeps
    | with_reducible apply put_keeps
    | with_reducible apply eachDo_keeps
    | with_reducible apply setReg_keeps
    | with_reducible apply Keeps.ite
    | (intro _ _ _)
    | (intro _ _)
    | split
    | with_reducible apply Keeps.upd

theorem raiseFault_keeps {z s : State} (src : Nat) (k : FaultKind) (b : Option Nat) (detail : Nat) (hz : Keeps z s) : Keeps z (raiseFault src k b detail s) := by
  unfold raiseFault
  try dsimp only
  repeat' first
    | with_reducible assumption
    | with_reducible apply raiseB_keeps
    | with_reducible apply raiseW_keeps
    | with_reducible apply raiseG_keeps
    | with_reducible apply logInfo_keeps
    | with_reducible apply Keeps.ite
    | (intro _ _ _)
    | (intro _ _)
    | split
    | with_reducible apply Keeps.upd

end Sys2Proof.Machine
end

