-- ==== Sys2Proof/Laws/KeepsUnits.lean ====
section
/-! SUPPORT. One lemma for each operation that answers a state: it keeps what every command keeps. Here the hearth, the tally, interrupts, accesses, calibration units, NVM and lanes, up to the end of every meaning. -/

namespace Sys2Proof.Machine

theorem deliver_keeps {z t : State} (s : State) (h : Keeps z t) : Keeps z (deliver s t) :=
  ⟨h.regs, h.mem, h.fuse, h.pend, h.sent.trans (List.suffix_append _ _), h.free⟩

theorem done_keeps {z t : State} (s : State) (h : Keeps z t) : OutKeeps z (done s t) := next_keeps (deliver_keeps s h)

theorem countViol_keeps {z s : State} (f : Nat → Fld) (m : Nat) (hz : Keeps z s) : Keeps z (countViol f m s) := by
  unfold countViol
  repeat' first
    | with_reducible assumption
    | with_reducible apply incSat_keeps
    | with_reducible apply raise_keeps

theorem countKp_keeps {z s : State} (m : Nat) (hz : Keeps z s) : Keeps z (countKp m s) := by
  unfold countKp
  repeat' first
    | with_reducible assumption
    | with_reducible apply countViol_keeps

theorem countForeign_keeps {z s : State} (m : Nat) (hz : Keeps z s) : Keeps z (countForeign m s) := by
  unfold countForeign
  repeat' first
    | with_reducible assumption
    | with_reducible apply countViol_keeps

theorem dropBuf_keeps {z s : State} (m : Nat) (hz : Keeps z s) : Keeps z (dropBuf m s) := by
  unfold dropBuf
  try dsimp only
  repeat' first
    | with_reducible assumption
    | with_reducible apply raise_keeps
    | with_reducible apply setReg_keeps
    | with_reducible apply setReg_keeps
    | with_reducible apply Keeps.ite
    | (intro _ _ _)
    | (intro _ _)
    | split
    | with_reducible apply Keeps.upd

theorem gateWrite_keeps {z s : State} (m : Nat) (a : Nat) (kp : Bool) (k : State → State) (hk : ∀ (t : State), Keeps z t → Keeps z (k t)) (hz : Keeps z s) : Keeps z (gateWrite m a kp k s) := by
  unfold gateWrite
  try dsimp only
  repeat' first
    | with_reducible assumption
    | with_reducible apply hk
    | with_reducible apply dropBuf_keeps
    | with_reducible apply countKp_keeps
    | with_reducible apply Keeps.ite

theorem gateRead_keeps {z s : State} (m : Nat) (a : Nat) (k : State → State) (hk : ∀ (t : State), Keeps z t → Keeps z (k t)) (hz : Keeps z s) : Keeps z (gateRead m a k s) := by
  unfold gateRead
  repeat' first
    | with_reducible assumption
    | with_reducible apply hk
    | with_reducible apply Keeps.ite

theorem cfgReject_keeps {z s : State} (m : Nat) (at_ : Nat) (ind : Bool) (hz : Keeps z s) : Keeps z (cfgReject m at_ ind s) := by
  unfold cfgReject
  repeat' first
    | with_reducible assumption
    | with_reducible apply raise_keeps
    | with_reducible apply putFlag_keeps
    | with_reducible apply setReg_keeps
    | with_reducible apply setReg_keeps
    | with_reducible apply Keeps.ite

theorem storeAt_keeps {z s : State} (m : Nat) (a : Nat) (at_ : Nat) (ind : Bool) (v : Word) (hz : Keeps z s) : Keeps z (storeAt m a at_ ind v s) := by
  unfold storeAt
  try dsimp only
  repeat' first
    | with_reducible assumption
    | with_reducible apply setReg_keeps
    | with_reducible apply cfgReject_keeps
    | with_reducible apply countKp_keeps
    | with_reducible apply setReg_keeps
    | with_reducible apply Keeps.ite
    | split

theorem keepRsvl_keeps {z s : State} (m : Nat) (a : Nat) (v : Word) (hz : Keeps z s) : Keeps z (keepRsvl m a v s) := by
  unfold keepRsvl
  try dsimp only
  repeat' first
    | with_reducible assumption
    | with_reducible apply setReg_keeps
    | with_reducible apply id_keeps
    | with_reducible apply Keeps.ite
    | (intro _ _ _)
    | (intro _ _)
    | split

theorem storeRw_keeps {z s : State} (m : Nat) (a : Nat) (v : Word) (hz : Keeps z s) : Keeps z (storeRw m a v s) := by
  unfold storeRw
  repeat' first
    | with_reducible assumption
    | with_reducible apply storeAt_keeps

theorem dischargeRimWear_keeps {z s : State} (n : Nat) (hz : Keeps z s) : Keeps z (dischargeRimWear n s) := by
  unfold dischargeRimWear
  try dsimp only
  repeat' first
    | with_reducible assumption
    | with_reducible apply put_keeps
    | with_reducible apply raise_keeps
    | with_reducible apply Keeps.ite
    | (intro _ _ _)
    | (intro _ _)
    | split
    | with_reducible apply Keeps.upd

theorem rimWear_keeps {z s : State} (n : Nat) (hz : Keeps z s) : Keeps z (rimWear n s) := by
  unfold rimWear
  try dsimp only [State.fresh]
  repeat' first
    | with_reducible assumption
    | with_reducible apply put_keeps
    | with_reducible apply mput_keeps
    | with_reducible apply raiseW_keeps
    | with_reducible apply raise_keeps
    | with_reducible apply Keeps.ite
    | (intro _ _ _)
    | (intro _ _)
    | split
    | with_reducible apply Keeps.upd

theorem putBand_keeps {z s : State} (p : Nat) (b : Nat) (lo : Nat) (hi : Nat) (st : Nat) (hz : Keeps z s) : Keeps z (putBand p b lo hi st s) := by
  unfold putBand
  try dsimp only
  repeat' first
    | with_reducible assumption
    | with_reducible apply mput_keeps

theorem lockBand_keeps {z s : State} (n : Nat) (p : Nat) (band : Nat) (hz : Keeps z s) : Keeps z (lockBand n p band s).2 := by
  unfold lockBand
  try dsimp only
  repeat' first
    | with_reducible assumption
    | with_reducible apply raise_keeps
    | with_reducible apply putBand_keeps
    | with_reducible apply id_keeps
    | with_reducible apply Keeps.ite
    | (intro _ _ _)
    | (intro _ _)
    | split

theorem showLock_keeps {z s : State} (n : Nat) (code : Nat) (band : Nat) (stored : Bool) (hz : Keeps z s) : Keeps z (showLock n code band stored s) := by
  unfold showLock
  try dsimp only
  repeat' first
    | with_reducible assumption
    | with_reducible apply put_keeps
    | with_reducible apply putFlag_keeps
    | with_reducible apply rimWear_keeps
    | with_reducible apply mput_keeps

theorem noteLock_keeps {z s : State} (n : Nat) (p : Nat) (code : Nat) (band : Nat) (hz : Keeps z s) : Keeps z (noteLock n p code band s) := by
  unfold noteLock
  try dsimp only
  repeat' first
    | with_reducible assumption
    | with_reducible apply lockBand_keeps
    | with_reducible apply showLock_keeps

theorem rimReady_keeps {z s : State} (n : Nat) (hz : Keeps z s) : Keeps z (rimReady n s) := by
  unfold rimReady
  try dsimp only
  repeat' first
    | with_reducible assumption
    | with_reducible apply eachDo_keeps
    | with_reducible apply setReason_keeps
    | with_reducible apply unparkSpokes_keeps
    | with_reducible apply eachDo_keeps
    | (intro _ _ _)

theorem clearRimCauses_keeps {z s : State} (n : Nat) (hz : Keeps z s) : Keeps z (clearRimCauses n s) := by
  unfold clearRimCauses
  repeat' first
    | with_reducible assumption
    | with_reducible apply eachDo_keeps
    | with_reducible apply clearCause_keeps
    | with_reducible apply eachDo_keeps
    | (intro _ _ _)

theorem rimRelocked_keeps {z s : State} (n : Nat) (hz : Keeps z s) : Keeps z (rimRelocked n s) := by
  unfold rimRelocked
  try dsimp only
  repeat' first
    | with_reducible assumption
    | with_reducible apply raise_keeps
    | with_reducible apply put_keeps
    | with_reducible apply modRim_keeps
    | with_reducible apply clearRimCauses_keeps
    | with_reducible apply rimReady_keeps
    | with_reducible apply Keeps.ite

theorem endRetunePark_keeps {z s : State} (n : Nat) (hz : Keeps z s) : Keeps z (endRetunePark n s) := by
  unfold endRetunePark
  repeat' first
    | with_reducible assumption
    | with_reducible apply unparkSpokes_keeps

theorem endRetuneHop_keeps {z t : State} (s : State) (n : Nat) (code : Nat) (hz : Keeps z t) : Keeps z (endRetuneHop n code s t) := by
  unfold endRetuneHop
  try dsimp only
  repeat' first
    | with_reducible assumption
    | with_reducible apply abortHop_keeps
    | with_reducible apply completeHop_keeps
    | with_reducible apply Keeps.ite
    | split

theorem retuneTo_keeps {z s : State} (n : Nat) (hop : Option Nat) (lo : Word) (hi : Nat) (hz : Keeps z s) : Keeps z (retuneTo n hop lo hi s) := by
  unfold retuneTo
  try dsimp only
  repeat' first
    | with_reducible assumption
    | with_reducible apply put_keeps
    | with_reducible apply setReg_keeps
    | with_reducible apply modRim_keeps
    | with_reducible apply eachDo_keeps
    | with_reducible apply setReason_keeps
    | with_reducible apply parkSpokes_keeps
    | with_reducible apply abandonCalRim_keeps
    | with_reducible apply settleRim_keeps
    | with_reducible apply eachDo_keeps
    | with_reducible apply setReg_keeps
    | with_reducible apply Keeps.ite
    | (intro _ _ _)

theorem retuneDone_keeps {z s : State} (n : Nat) (hz : Keeps z s) : Keeps z (retuneDone n s) := by
  unfold retuneDone
  try dsimp only
  repeat' first
    | with_reducible assumption
    | with_reducible apply put_keeps
    | with_reducible apply raise_keeps
    | with_reducible apply endRetuneHop_keeps
    | with_reducible apply modRim_keeps
    | with_reducible apply eachDo_keeps
    | with_reducible apply setReason_keeps
    | with_reducible apply endRetunePark_keeps
    | with_reducible apply eachDo_keeps
    | (intro _ _ _)

theorem rimUnlocked_keeps {z s : State} (n : Nat) (late : Bool) (hz : Keeps z s) : Keeps z (rimUnlocked n late s) := by
  unfold rimUnlocked
  try dsimp only
  repeat' first
    | with_reducible assumption
    | with_reducible apply put_keeps
    | with_reducible apply raise_keeps
    | with_reducible apply modRim_keeps
    | with_reducible apply eachDo_keeps
    | with_reducible apply setReason_keeps
    | with_reducible apply parkSpokes_keeps
    | with_reducible apply raiseFault_keeps
    | with_reducible apply abandonSplicesRim_keeps
    | with_reducible apply abandonCalRim_keeps
    | with_reducible apply eachDo_keeps
    | with_reducible apply Keeps.ite
    | (intro _ _ _)

theorem showMig_keeps {z s : State} (n : Nat) (g : Migration) (hz : Keeps z s) : Keeps z (showMig n g s) := by
  unfold showMig
  try dsimp only
  repeat' first
    | with_reducible assumption
    | with_reducible apply put_keeps

theorem endMig_keeps {z s : State} (n : Nat) (st : Nat) (moved : Nat) (hz : Keeps z s) : Keeps z (endMig n st moved s) := by
  unfold endMig
  try dsimp only
  repeat' first
    | with_reducible assumption
    | with_reducible apply modRim_keeps
    | with_reducible apply showMig_keeps
    | with_reducible apply put_keeps
    | with_reducible apply id_keeps
    | with_reducible apply Keeps.ite
    | (intro _ _ _)
    | (intro _ _)
    | split

theorem beginMigration_keeps {z s : State} (n : Nat) (p : Nat) (hitless : Bool) (hz : Keeps z s) : Keeps z (beginMigration n p hitless s) := by
  unfold beginMigration
  try dsimp only
  repeat' first
    | with_reducible assumption
    | with_reducible apply put_keeps
    | with_reducible apply modRim_keeps
    | with_reducible apply showMig_keeps
    | with_reducible apply settleRim_keeps
    | with_reducible apply abandonSplicesRim_keeps
    | with_reducible apply abandonCalSpare_keeps

theorem unlockMigrate_keeps {z s : State} (n : Nat) (hz : Keeps z s) : Keeps z (unlockMigrate n s) := by
  unfold unlockMigrate
  try dsimp only
  repeat' first
    | with_reducible assumption
    | with_reducible apply modRim_keeps
    | with_reducible apply beginMigration_keeps
    | with_reducible apply Keeps.ite
    | (intro _ _ _)
    | (intro _ _)
    | split

theorem failRim_keeps {z s : State} (p : Nat) (hz : Keeps z s) : Keeps z (failRim p s) := by
  unfold failRim
  repeat' first
    | with_reducible assumption
    | with_reducible apply queueRepairMap_keeps
    | with_reducible apply put_keeps

theorem awaitVisits_keeps {z s : State} (ws : List Nat) (hz : Keeps z s) : Keeps z (awaitVisits ws s) := by
  unfold awaitVisits
  try dsimp only
  repeat' first
    | with_reducible assumption
    | with_reducible apply eachDo_keeps
    | with_reducible apply setReason_keeps
    | with_reducible apply modStrand_keeps
    | with_reducible apply eachDo_keeps
    | with_reducible apply Keeps.ite
    | (intro _ _ _)

theorem rimChecksDone_keeps {z s : State} (n : Nat) (hz : Keeps z s) : Keeps z (rimChecksDone n s) := by
  unfold rimChecksDone
  repeat' first
    | with_reducible assumption
    | with_reducible apply clearRimCauses_keeps
    | with_reducible apply unparkSpokes_keeps
    | with_reducible apply Keeps.ite

theorem spareTakesOver_keeps {z s : State} (n : Nat) (code : Nat) (band : Nat) (g : Migration) (hz : Keeps z s) : Keeps z (spareTakesOver n code band g s) := by
  unfold spareTakesOver
  try dsimp only
  repeat' first
    | with_reducible assumption
    | with_reducible apply put_keeps
    | with_reducible apply noteLock_keeps
    | with_reducible apply failRim_keeps
    | with_reducible apply raise_keeps
    | with_reducible apply endMig_keeps
    | with_reducible apply modRim_keeps
    | with_reducible apply rimChecksDone_keeps
    | with_reducible apply awaitVisits_keeps

theorem spareLost_keeps {z s : State} (n : Nat) (g : Migration) (hz : Keeps z s) : Keeps z (spareLost n g s) := by
  unfold spareLost
  try dsimp only
  repeat' first
    | with_reducible assumption
    | with_reducible apply failRim_keeps
    | with_reducible apply unlockMigrate_keeps
    | with_reducible apply endMig_keeps
    | with_reducible apply put_keeps

theorem migrationAbandon_keeps {z s : State} (n : Nat) (g : Migration) (hz : Keeps z s) : Keeps z (migrationAbandon n g s) := by
  unfold migrationAbandon
  try dsimp only
  repeat' first
    | with_reducible assumption
    | with_reducible apply failRim_keeps
    | with_reducible apply endMig_keeps
    | with_reducible apply put_keeps
    | with_reducible apply parkSpokes_keeps
    | with_reducible apply eachDo_keeps
    | with_reducible apply raiseFault_keeps
    | with_reducible apply settleRim_keeps
    | with_reducible apply rimChecksDone_keeps
    | with_reducible apply awaitVisits_keeps
    | with_reducible apply eachDo_keeps
    | with_reducible apply id_keeps
    | with_reducible apply Keeps.ite
    | (intro _ _ _)

theorem migrationComplete_keeps {z s : State} (n : Nat) (g : Migration) (hz : Keeps z s) : Keeps z (migrationComplete n g s) := by
  unfold migrationComplete
  try dsimp only
  repeat' first
    | with_reducible assumption
    | with_reducible apply put_keeps
    | with_reducible apply showLock_keeps
    | with_reducible apply raise_keeps
    | with_reducible apply settleRim_keeps
    | with_reducible apply queueRepairMap_keeps
    | with_reducible apply dischargeRimWear_keeps
    | with_reducible apply endMig_keeps

theorem finishIfMoved_keeps {z s : State} (n : Nat) (hz : Keeps z s) : Keeps z (finishIfMoved n s) := by
  unfold finishIfMoved
  try dsimp only
  repeat' first
    | with_reducible assumption
    | with_reducible apply migrationComplete_keeps
    | with_reducible apply Keeps.ite
    | split

theorem oldRimUnlocked_keeps {z s : State} (n : Nat) (g : Migration) (hz : Keeps z s) : Keeps z (oldRimUnlocked n g s) := by
  unfold oldRimUnlocked
  try dsimp only
  repeat' first
    | with_reducible assumption
    | with_reducible apply raise_keeps
    | with_reducible apply parkSpokes_keeps
    | with_reducible apply eachDo_keeps
    | with_reducible apply raiseFault_keeps
    | with_reducible apply put_keeps
    | with_reducible apply showLock_keeps
    | with_reducible apply endMig_keeps
    | with_reducible apply failRim_keeps
    | with_reducible apply settleRim_keeps
    | with_reducible apply rimChecksDone_keeps
    | with_reducible apply awaitVisits_keeps
    | with_reducible apply setReason_keeps
    | with_reducible apply modRim_keeps
    | with_reducible apply eachDo_keeps
    | with_reducible apply id_keeps
    | with_reducible apply Keeps.ite
    | (intro _ _ _)

theorem migrateGo_keeps {z s : State} (n : Nat) (p : Nat) (hz : Keeps z s) : Keeps z (migrateGo n p s) := by
  unfold migrateGo
  try dsimp only
  repeat' first
    | with_reducible assumption
    | with_reducible apply raise_keeps
    | with_reducible apply modRim_keeps
    | with_reducible apply beginMigration_keeps
    | with_reducible apply abandonCalRim_keeps
    | with_reducible apply Keeps.ite
    | (intro _ _ _)
    | (intro _ _)
    | split

theorem startDeferred_keeps {z s : State} (n : Nat) (hz : Keeps z s) : Keeps z (startDeferred n s) := by
  unfold startDeferred
  try dsimp only
  repeat' first
    | with_reducible assumption
    | with_reducible apply migrateGo_keeps
    | with_reducible apply modRim_keeps
    | with_reducible apply Keeps.ite
    | (intro _ _ _)
    | (intro _ _)
    | split

theorem beginSweeps_keeps {z s : State} (u : Nat) (r : CalRun) (hz : Keeps z s) : Keeps z (beginSweeps u r s) := by
  unfold beginSweeps
  try dsimp only
  repeat' first
    | with_reducible assumption
    | with_reducible apply setUnit_keeps
    | with_reducible apply setStale_keeps
    | with_reducible apply Keeps.ite
    | split

theorem unitSelect_keeps {z s : State} (u : Nat) (hz : Keeps z s) : Keeps z (unitSelect u s) := by
  unfold unitSelect
  try dsimp only
  repeat' first
    | with_reducible assumption
    | with_reducible apply setUnit_keeps
    | with_reducible apply beginSweeps_keeps
    | with_reducible apply raise_keeps
    | with_reducible apply calAbandon_keeps
    | with_reducible apply Keeps.ite
    | (intro _ _ _)
    | (intro _ _)
    | split

theorem unitDone_keeps {z s : State} (u : Nat) (hz : Keeps z s) : Keeps z (unitDone u s) := by
  unfold unitDone
  repeat' first
    | with_reducible assumption
    | with_reducible apply unitSelect_keeps
    | with_reducible apply unitIdle_keeps

theorem makePending_keeps {z s : State} (u x : Nat) (force : Bool) (h : Keeps z s) : Keeps z (makePending u x force s).2 := by
  unfold makePending
  dsimp only
  repeat' split
  all_goals first
    | with_reducible exact h
    | with_reducible exact setUnit_keeps _ _ h
    | with_reducible exact unitSelect_keeps _ (setUnit_keeps _ _ h)

theorem stopTarget_keeps {z s : State} (u x : Nat) (h : Keeps z s) : Keeps z (stopTarget u x s).2 := by
  unfold stopTarget
  dsimp only
  repeat' split
  all_goals first
    | with_reducible exact h
    | with_reducible exact dropPending_keeps _ _ h
    | with_reducible exact unitSelect_keeps _ (calAbandon_keeps _ _ (dropPending_keeps _ _ h))

theorem calReject_keeps {z s : State} (u : Nat) (r : CalRun) (check : Nat) (hz : Keeps z s) : Keeps z (calReject u r check s) := by
  unfold calReject
  try dsimp only
  repeat' first
    | with_reducible assumption
    | with_reducible apply writeResult_keeps
    | with_reducible apply raiseW_keeps

theorem acceptHeader_keeps {z s : State} (a : Nat) (sensor : Nat) (hz : Keeps z s) : Keeps z (acceptHeader a sensor s) := by
  unfold acceptHeader
  try dsimp only
  repeat' first
    | with_reducible assumption
    | with_reducible apply mput_keeps
    | with_reducible apply writeResult_keeps

theorem setSlot_keeps {z s : State} (g : Nat) (i : Nat) (x : NvmSlot) (hz : Keeps z s) : Keeps z (State.setSlot s g i x) := by
  unfold State.setSlot
  try dsimp only
  repeat' first
    | with_reducible assumption
    | (intro _ _ _)
    | (intro _ _)
    | with_reducible apply Keeps.upd

theorem nvmBegin_keeps {z s : State} (g : Nat) (hz : Keeps z s) : Keeps z (nvmBegin g s) := by
  unfold nvmBegin
  try dsimp only
  repeat' first
    | with_reducible assumption
    | with_reducible apply setSlot_keeps
    | with_reducible apply Keeps.upd

theorem nvmNext_keeps {z s : State}  (hz : Keeps z s) : Keeps z (nvmNext s) := by
  unfold nvmNext
  try dsimp only
  repeat' first
    | with_reducible assumption
    | with_reducible apply nvmBegin_keeps
    | with_reducible apply setUnit_keeps
    | split
    | with_reducible apply Keeps.upd

theorem markStored_keeps {z s : State} (g : Nat) (body : List Host.Cell) (hz : Keeps z s) : Keeps z (markStored g body s) := by
  unfold markStored
  try dsimp only
  repeat' first
    | with_reducible assumption
    | with_reducible apply eachDo_keeps
    | with_reducible apply mput_keeps
    | with_reducible apply eachDo_keeps
    | with_reducible apply Keeps.ite
    | (intro _ _ _)

theorem nvmCommit_keeps {z s : State} (j : NvmJob) (hz : Keeps z s) : Keeps z (nvmCommit j s) := by
  unfold nvmCommit
  try dsimp only
  repeat' first
    | with_reducible assumption
    | with_reducible apply setSlot_keeps
    | with_reducible apply unitIdle_keeps
    | with_reducible apply markStored_keeps
    | with_reducible apply putFlag_keeps
    | with_reducible apply raise_keeps
    | with_reducible apply put_keeps
    | with_reducible apply Keeps.ite
    | split
    | with_reducible apply Keeps.upd

theorem holdTuning_keeps {z s : State} (v : Int) (hz : Keeps z s) : Keeps z (holdTuning v s) := by
  unfold holdTuning
  try dsimp only
  repeat' first
    | with_reducible assumption
    | with_reducible apply lower_keeps
    | with_reducible apply id_keeps
    | with_reducible apply Keeps.ite
    | (intro _ _ _)
    | (intro _ _)
    | split
    | with_reducible apply Keeps.upd

theorem buildOut_keeps {z s : State} (x : Nat) (hz : Keeps z s) : Keeps z (buildOut x s) := by
  unfold buildOut
  try dsimp only [State.fresh]
  repeat' first
    | with_reducible assumption
    | with_reducible apply put_keeps
    | with_reducible apply lower_keeps
    | with_reducible apply putFlag_keeps
    | with_reducible apply Keeps.upd
    | with_reducible apply Keeps.updFree

theorem switchTo_keeps {z s : State} (x : Nat) (hz : Keeps z s) : Keeps z (switchTo x s) := by
  unfold switchTo
  repeat' first
    | with_reducible assumption
    | with_reducible apply raiseFault_keeps
    | with_reducible apply buildOut_keeps
    | with_reducible apply raise_keeps

theorem loseHistory_keeps {z s : State}  (hz : Keeps z s) : Keeps z (loseHistory s) := by
  unfold loseHistory
  repeat' first
    | with_reducible assumption
    | with_reducible apply lower_keeps
    | with_reducible apply raise_keeps
    | with_reducible apply Keeps.ite

theorem leaveHoldover_keeps {z s : State} (x : Nat) (hz : Keeps z s) : Keeps z (leaveHoldover x s) := by
  unfold leaveHoldover
  try dsimp only
  repeat' first
    | with_reducible assumption
    | with_reducible apply loseHistory_keeps
    | with_reducible apply buildOut_keeps
    | with_reducible apply put_keeps
    | with_reducible apply raise_keeps
    | with_reducible apply raiseFault_keeps

theorem takeSource_keeps {z s : State} (x : Nat) (hz : Keeps z s) : Keeps z (takeSource x s) := by
  unfold takeSource
  try dsimp only
  repeat' first
    | with_reducible assumption
    | with_reducible apply switchTo_keeps
    | with_reducible apply leaveHoldover_keeps
    | with_reducible apply put_keeps
    | with_reducible apply id_keeps
    | with_reducible apply Keeps.ite

theorem enterHoldover_keeps {z s : State} (hz : Keeps z s) : Keeps z (enterHoldover s) := by
  unfold enterHoldover
  try dsimp only
  repeat' first
    | with_reducible assumption
    | with_reducible apply put_keeps
    | with_reducible apply holdTuning_keeps
    | with_reducible apply raise_keeps
    | with_reducible apply abandonCalHearth_keeps
    | with_reducible apply raiseFault_keeps
    | with_reducible apply id_keeps
    | with_reducible apply Keeps.ite
    | (intro _ _ _)
    | (intro _ _)
    | split
    | with_reducible apply Keeps.upd

theorem enterWait_keeps {z s : State} (why : Nat) (hz : Keeps z s) : Keeps z (enterWait why s) := by
  unfold enterWait
  try dsimp only
  repeat' first
    | with_reducible assumption
    | with_reducible apply put_keeps
    | with_reducible apply holdTuning_keeps
    | with_reducible apply raise_keeps
    | with_reducible apply parkSpokes_keeps
    | with_reducible apply eachDo_keeps
    | with_reducible apply raiseFault_keeps
    | with_reducible apply abandonCalHearth_keeps
    | with_reducible apply eachDo_keeps
    | with_reducible apply id_keeps
    | with_reducible apply Keeps.ite
    | (intro _ _ _)
    | (intro _ _)
    | split
    | with_reducible apply Keeps.upd

theorem enterLost_keeps {z s : State} (hz : Keeps z s) : Keeps z (enterLost s) := by
  unfold enterLost
  try dsimp only
  repeat' first
    | with_reducible assumption
    | with_reducible apply put_keeps
    | with_reducible apply raise_keeps
    | with_reducible apply holdTuning_keeps
    | with_reducible apply raiseFault_keeps
    | with_reducible apply parkSpokes_keeps

theorem selectedLost_keeps {z s : State}  (hz : Keeps z s) : Keeps z (selectedLost s) := by
  unfold selectedLost
  try dsimp only
  repeat' first
    | with_reducible assumption
    | with_reducible apply put_keeps
    | with_reducible apply switchTo_keeps
    | with_reducible apply enterHoldover_keeps
    | with_reducible apply enterWait_keeps
    | with_reducible apply Keeps.ite
    | split

theorem afterLoss_keeps {z s : State} (hz : Keeps z s) : Keeps z (afterLoss s) := by
  unfold afterLoss
  try dsimp only
  repeat' first
    | with_reducible assumption
    | with_reducible apply selectedLost_keeps
    | with_reducible apply put_keeps
    | with_reducible apply id_keeps
    | with_reducible apply Keeps.ite

theorem dropSource_keeps {z s : State} (x : Nat) (q : Nat) (hz : Keeps z s) : Keeps z (dropSource x q s) := by
  unfold dropSource
  try dsimp only
  repeat' first
    | with_reducible assumption
    | with_reducible apply put_keeps
    | with_reducible apply id_keeps
    | with_reducible apply Keeps.ite

theorem unqualify_keeps {z s : State} (x : Nat) (q : Nat) (hz : Keeps z s) : Keeps z (unqualify x q s) := by
  unfold unqualify
  try dsimp only
  repeat' first
    | with_reducible assumption
    | with_reducible apply afterLoss_keeps
    | with_reducible apply dropSource_keeps

theorem tripSource_keeps {z s : State} (x : Nat) (mon : Nat) (q : Nat) (hz : Keeps z s) : Keeps z (tripSource x mon q s) := by
  unfold tripSource
  try dsimp only
  repeat' first
    | with_reducible assumption
    | with_reducible apply dropSource_keeps
    | with_reducible apply raiseFault_keeps
    | with_reducible apply raise_keeps

theorem monitorTrip_keeps {z s : State} (x : Nat) (mon : Nat) (q : Nat) (hz : Keeps z s) : Keeps z (monitorTrip x mon q s) := by
  unfold monitorTrip
  try dsimp only
  repeat' first
    | with_reducible assumption
    | with_reducible apply afterLoss_keeps
    | with_reducible apply tripSource_keeps

theorem reselect_keeps {z s : State} (hz : Keeps z s) : Keeps z (reselect s) := by
  unfold reselect
  try dsimp only
  repeat' first
    | with_reducible assumption
    | with_reducible apply put_keeps
    | with_reducible apply id_keeps
    | with_reducible apply Keeps.ite

theorem qualify_keeps {z s : State} (x : Nat) (hz : Keeps z s) : Keeps z (qualify x s) := by
  unfold qualify
  try dsimp only
  repeat' first
    | with_reducible assumption
    | with_reducible apply put_keeps
    | with_reducible apply raise_keeps

theorem sourcesQualified_keeps {z s : State} (xs : List Nat) (hz : Keeps z s) : Keeps z (sourcesQualified xs s) := by
  unfold sourcesQualified
  try dsimp only
  repeat' first
    | with_reducible assumption
    | with_reducible apply eachDo_keeps
    | with_reducible apply qualify_keeps
    | with_reducible apply takeSource_keeps
    | with_reducible apply reselect_keeps
    | with_reducible apply eachDo_keeps
    | with_reducible apply id_keeps
    | with_reducible apply Keeps.ite
    | (intro _ _ _)
    | (intro _ _)
    | split

theorem warpOff_keeps {z s : State} (x : Nat) (hz : Keeps z s) : Keeps z (warpOff x s) := by
  unfold warpOff
  try dsimp only
  repeat' first
    | with_reducible assumption
    | with_reducible apply tripSource_keeps
    | with_reducible apply lower_keeps
    | with_reducible apply id_keeps
    | with_reducible apply Keeps.ite

theorem warpLost_keeps {z s : State} (x : Nat) (hz : Keeps z s) : Keeps z (warpLost x s) := by
  unfold warpLost
  try dsimp only
  repeat' first
    | with_reducible assumption
    | with_reducible apply afterLoss_keeps
    | with_reducible apply warpOff_keeps

theorem setDom_keeps {z s : State} (x : Nat) (d : Domain) (hz : Keeps z s) : Keeps z (State.setDom s x d) := by
  unfold State.setDom
  try dsimp only
  repeat' first
    | with_reducible assumption
    | with_reducible apply Keeps.ite
    | split
    | with_reducible apply Keeps.upd

theorem tallyStep_keeps {z s : State} (x : Nat) (hz : Keeps z s) : Keeps z (tallyStep x s) := by
  unfold tallyStep
  try dsimp only
  repeat' first
    | with_reducible assumption
    | with_reducible apply raise_keeps
    | with_reducible apply lower_keeps
    | with_reducible apply setDom_keeps
    | with_reducible apply eachDo_keeps
    | with_reducible apply completeHop_keeps
    | with_reducible apply eachDo_keeps
    | with_reducible apply id_keeps
    | with_reducible apply Keeps.ite
    | (intro _ _ _)
    | (intro _ _)
    | split
    | with_reducible apply Keeps.upd

theorem enterAcquire_keeps {z s : State} (x : Nat) (hz : Keeps z s) : Keeps z (enterAcquire x s) := by
  unfold enterAcquire
  try dsimp only
  repeat' first
    | with_reducible assumption
    | with_reducible apply raise_keeps
    | with_reducible apply put_keeps
    | with_reducible apply lower_keeps
    | with_reducible apply Keeps.ite

theorem enterTallyHoldover_keeps {z s : State}  (hz : Keeps z s) : Keeps z (enterTallyHoldover s) := by
  unfold enterTallyHoldover
  try dsimp only
  repeat' first
    | with_reducible assumption
    | with_reducible apply setRate_keeps
    | with_reducible apply put_keeps
    | with_reducible apply lower_keeps
    | with_reducible apply raise_keeps
    | with_reducible apply raiseFault_keeps
    | with_reducible apply Keeps.upd

theorem beginSlew_keeps {z s : State} (acq : Bool) (hz : Keeps z s) : Keeps z (beginSlew acq s) := by
  unfold beginSlew
  try dsimp only
  repeat' first
    | with_reducible assumption
    | with_reducible apply raise_keeps
    | with_reducible apply id_keeps
    | with_reducible apply Keeps.ite
    | (intro _ _ _)
    | (intro _ _)
    | split
    | with_reducible apply Keeps.upd

theorem selectDomain_keeps {z s : State} (y : Nat) (hz : Keeps z s) : Keeps z (selectDomain y s) := by
  unfold selectDomain
  try dsimp only
  repeat' first
    | with_reducible assumption
    | with_reducible apply raiseFault_keeps
    | with_reducible apply put_keeps
    | with_reducible apply raise_keeps

theorem domainSwitch_keeps {z s : State} (y : Nat) (hz : Keeps z s) : Keeps z (domainSwitch y s) := by
  unfold domainSwitch
  try dsimp only
  repeat' first
    | with_reducible assumption
    | with_reducible apply selectDomain_keeps
    | with_reducible apply beginSlew_keeps
    | with_reducible apply id_keeps
    | with_reducible apply Keeps.ite

theorem domainValid_keeps {z s : State} (x : Nat) (hz : Keeps z s) : Keeps z (domainValid x s) := by
  unfold domainValid
  try dsimp only
  repeat' first
    | with_reducible assumption
    | with_reducible apply put_keeps
    | with_reducible apply raise_keeps
    | with_reducible apply enterAcquire_keeps
    | with_reducible apply tallyStep_keeps
    | with_reducible apply beginSlew_keeps
    | with_reducible apply raiseFault_keeps
    | with_reducible apply id_keeps
    | with_reducible apply Keeps.ite

theorem tryValid_keeps {z s : State} (x : Nat) (hz : Keeps z s) : Keeps z (tryValid x s) := by
  unfold tryValid
  repeat' first
    | with_reducible assumption
    | with_reducible apply domainValid_keeps
    | with_reducible apply Keeps.ite

theorem domainInvalid_keeps {z s : State} (x : Nat) (hz : Keeps z s) : Keeps z (domainInvalid x s) := by
  unfold domainInvalid
  try dsimp only
  repeat' first
    | with_reducible assumption
    | with_reducible apply put_keeps
    | with_reducible apply raise_keeps
    | with_reducible apply setDom_keeps
    | with_reducible apply domainSwitch_keeps
    | with_reducible apply enterTallyHoldover_keeps
    | with_reducible apply lower_keeps
    | with_reducible apply Keeps.ite

theorem withdrawCredits_keeps {z s : State} (f : Nat) (hz : Keeps z s) : Keeps z (withdrawCredits f s) := by
  unfold withdrawCredits
  try dsimp only
  repeat' first
    | with_reducible assumption
    | with_reducible apply eachDo_keeps
    | with_reducible apply setReg_keeps
    | with_reducible apply eachDo_keeps
    | with_reducible apply setReg_keeps
    | (intro _ _ _)

theorem sendCredits_keeps {z s : State} (l : Nat) (r : Nat) (k : Nat) (hz : Keeps z s) : Keeps z (sendCredits l r k s) := by
  unfold sendCredits
  repeat' first
    | with_reducible assumption
    | with_reducible apply sendFrame_keeps
    | with_reducible apply Keeps.ite

theorem grantAt_keeps {z s : State} (f : Nat) (e : Nat × Nat) (hz : Keeps z s) : Keeps z (grantAt f e s) := by
  unfold grantAt
  try dsimp only
  repeat' first
    | with_reducible assumption
    | with_reducible apply sendCredits_keeps
    | with_reducible apply setReg_keeps
    | with_reducible apply put_keeps

theorem grantCredits_keeps {z s : State} (f : Nat) (hz : Keeps z s) : Keeps z (grantCredits f s) := by
  unfold grantCredits
  repeat' first
    | with_reducible assumption
    | with_reducible apply eachDo_keeps
    | with_reducible apply grantAt_keeps
    | with_reducible apply eachDo_keeps
    | (intro _ _ _)

theorem sendOwed_keeps {z s : State} (r : Nat) (j : Nat) (hz : Keeps z s) : Keeps z (sendOwed r j s) := by
  unfold sendOwed
  try dsimp only
  repeat' first
    | with_reducible assumption
    | with_reducible apply sendCredits_keeps
    | with_reducible apply put_keeps
    | with_reducible apply Keeps.ite

theorem dropFrames_keeps {z s : State} (l : Nat) (hz : Keeps z s) : Keeps z (dropFrames l s) := by
  unfold dropFrames
  try dsimp only
  repeat' first
    | with_reducible assumption
    | with_reducible apply eachDo_keeps
    | with_reducible apply incSat_keeps
    | with_reducible apply eachDo_keeps
    | with_reducible apply Keeps.ite
    | (intro _ _ _)
    | (intro _ _)
    | split

theorem sendTs_keeps {z s : State} (p : Nat) (ready : Bool) (hz : Keeps z s) : Keeps z (sendTs p ready s) := by
  unfold sendTs
  try dsimp only
  repeat' first
    | with_reducible assumption
    | with_reducible apply emit_keeps
    | with_reducible apply id_keeps
    | with_reducible apply Keeps.ite

theorem laneRests_keeps {z s : State} (p : Nat) (hz : Keeps z s) : Keeps z (laneRests p s) := by
  unfold laneRests
  try dsimp only
  repeat' first
    | with_reducible assumption
    | with_reducible apply put_keeps
    | with_reducible apply sendTs_keeps
    | with_reducible apply id_keeps
    | with_reducible apply Keeps.ite

theorem laneBack_keeps {z s : State} (c : Nat) (p : Nat) (hz : Keeps z s) : Keeps z (laneBack c p s) := by
  unfold laneBack
  try dsimp only
  repeat' first
    | with_reducible assumption
    | with_reducible apply setLane_keeps
    | with_reducible apply hold_keeps
    | with_reducible apply laneRests_keeps
    | with_reducible apply lower_keeps
    | with_reducible apply put_keeps
    | with_reducible apply calAbandon_keeps
    | with_reducible apply warpOff_keeps
    | with_reducible apply id_keeps
    | with_reducible apply Keeps.ite

theorem laneDown_keeps {z s : State} (p : Nat) (hz : Keeps z s) : Keeps z (laneDown p s) := by
  unfold laneDown
  try dsimp only
  repeat' first
    | with_reducible assumption
    | with_reducible apply laneBack_keeps

theorem loseMessages_keeps {z s : State} (h : Nat) (hz : Keeps z s) : Keeps z (loseMessages h s) := by
  unfold loseMessages
  try dsimp only
  repeat' first
    | with_reducible assumption
    | with_reducible apply eachDo_keeps
    | with_reducible apply lower_keeps
    | with_reducible apply raise_keeps
    | with_reducible apply eachDo_keeps
    | (intro _ _ _)
    | (intro _ _)
    | with_reducible apply Keeps.upd

theorem orphanHops_keeps {z s : State} (l : Nat) (hz : Keeps z s) : Keeps z (orphanHops l s) := by
  unfold orphanHops
  try dsimp only
  repeat' first
    | with_reducible assumption
    | with_reducible apply eachDo_keeps
    | with_reducible apply completeHop_keeps
    | with_reducible apply eachDo_keeps
    | with_reducible apply Keeps.ite
    | (intro _ _ _)
    | (intro _ _)
    | split
    | with_reducible apply Keeps.upd

theorem feedLeaves_keeps {z s : State} (l : Nat) (h : Nat) (hz : Keeps z s) : Keeps z (feedLeaves l h s) := by
  unfold feedLeaves
  try dsimp only
  repeat' first
    | with_reducible assumption
    | with_reducible apply withdrawCredits_keeps
    | with_reducible apply restartAvg_keeps
    | with_reducible apply lower_keeps
    | with_reducible apply putFlag_keeps
    | with_reducible apply id_keeps
    | with_reducible apply Keeps.ite
    | (intro _ _ _)
    | (intro _ _)
    | split
    | with_reducible apply Keeps.upd

theorem sourceDeparts_keeps {z s : State} (l : Nat) (h : Nat) (hz : Keeps z s) : Keeps z (sourceDeparts l h s) := by
  unfold sourceDeparts
  try dsimp only
  repeat' first
    | with_reducible assumption
    | with_reducible apply orphanHops_keeps
    | with_reducible apply loseMessages_keeps
    | with_reducible apply raise_keeps
    | with_reducible apply id_keeps
    | with_reducible apply Keeps.ite

theorem leaveLink_keeps {z s : State} (depart : Bool) (l : Nat) (hz : Keeps z s) : Keeps z (leaveLink depart l s) := by
  unfold leaveLink
  try dsimp only
  repeat' first
    | with_reducible assumption
    | with_reducible apply dropFrames_keeps
    | with_reducible apply feedLeaves_keeps
    | with_reducible apply put_keeps
    | with_reducible apply eachDo_keeps
    | with_reducible apply laneDown_keeps
    | with_reducible apply setLink_keeps
    | with_reducible apply sourceDeparts_keeps
    | with_reducible apply domainInvalid_keeps
    | with_reducible apply eachDo_keeps
    | with_reducible apply id_keeps
    | with_reducible apply Keeps.ite
    | (intro _ _ _)

theorem silenceChain_keeps {z s : State} (x : Nat) (hz : Keeps z s) : Keeps z (silenceChain x s) := by
  unfold silenceChain
  try dsimp only
  repeat' first
    | with_reducible assumption
    | with_reducible apply leaveLink_keeps
    | with_reducible apply id_keeps
    | with_reducible apply Keeps.ite

theorem linkLeaves_keeps {z s : State} (depart : Bool) (l : Nat) (hz : Keeps z s) : Keeps z (linkLeaves depart l s) := by
  unfold linkLeaves
  try dsimp only
  repeat' first
    | with_reducible assumption
    | with_reducible apply silenceChain_keeps
    | with_reducible apply leaveLink_keeps

theorem linkDown_keeps {z s : State} (depart : Bool) (l : Nat) (hz : Keeps z s) : Keeps z (linkDown depart l s) := by
  unfold linkDown
  try dsimp only
  repeat' first
    | with_reducible assumption
    | with_reducible apply afterLoss_keeps
    | with_reducible apply linkLeaves_keeps

theorem sendAck_keeps {z s : State} (l : Nat) (nak : Bool) (hz : Keeps z s) : Keeps z (sendAck l nak s) := by
  unfold sendAck
  try dsimp only
  repeat' first
    | with_reducible assumption
    | with_reducible apply setLink_keeps
    | with_reducible apply emit_keeps

theorem openEpisode_keeps {z s : State} (l : Nat) (hz : Keeps z s) : Keeps z (openEpisode l s) := by
  unfold openEpisode
  try dsimp only
  repeat' first
    | with_reducible assumption
    | with_reducible apply setLink_keeps
    | with_reducible apply eachDo_keeps
    | with_reducible apply raise_keeps
    | with_reducible apply incSat_keeps
    | with_reducible apply eachDo_keeps
    | (intro _ _ _)
    | (intro _ _)
    | split

theorem enterRetire_keeps {z s : State} (p : Nat) (why : Nat) (far : Bool) (hz : Keeps z s) : Keeps z (enterRetire p why far s) := by
  unfold enterRetire
  try dsimp only
  repeat' first
    | with_reducible assumption
    | with_reducible apply put_keeps
    | with_reducible apply setLane_keeps
    | with_reducible apply putFlag_keeps
    | with_reducible apply calAbandon_keeps
    | with_reducible apply emit_keeps

theorem retireLink_keeps {z s : State} (l : Nat) (why : Nat) (far : Bool) (hz : Keeps z s) : Keeps z (retireLink l why far s) := by
  unfold retireLink
  try dsimp only
  repeat' first
    | with_reducible assumption
    | with_reducible apply eachDo_keeps
    | with_reducible apply enterRetire_keeps
    | with_reducible apply silenceChain_keeps
    | with_reducible apply domainInvalid_keeps
    | with_reducible apply eachDo_keeps
    | with_reducible apply id_keeps
    | with_reducible apply Keeps.ite
    | (intro _ _ _)

theorem closeEpisode_keeps {z s : State} (l : Nat) (hz : Keeps z s) : Keeps z (closeEpisode l s) := by
  unfold closeEpisode
  try dsimp only
  repeat' first
    | with_reducible assumption
    | with_reducible apply eachDo_keeps
    | with_reducible apply lower_keeps
    | with_reducible apply setLink_keeps
    | with_reducible apply raiseFault_keeps
    | with_reducible apply retireLink_keeps
    | with_reducible apply eachDo_keeps
    | with_reducible apply Keeps.ite
    | (intro _ _ _)
    | (intro _ _)
    | split

theorem acknowledge_keeps {z s : State} (l : Nat) (seq : Nat) (hz : Keeps z s) : Keeps z (acknowledge l seq s) := by
  unfold acknowledge
  try dsimp only
  repeat' first
    | with_reducible assumption
    | with_reducible apply setLink_keeps
    | with_reducible apply Keeps.ite
    | (intro _ _ _)
    | (intro _ _)
    | split

theorem attempt_keeps {z s : State} (l : Nat) (hz : Keeps z s) : Keeps z (attempt l s) := by
  unfold attempt
  try dsimp only
  repeat' first
    | with_reducible assumption
    | with_reducible apply openEpisode_keeps
    | with_reducible apply setLink_keeps
    | with_reducible apply eachDo_keeps
    | with_reducible apply emit_keeps
    | with_reducible apply eachDo_keeps
    | with_reducible apply id_keeps
    | with_reducible apply Keeps.ite
    | (intro _ _ _)

theorem retrainLane_keeps {z s : State} (p : Nat) (hz : Keeps z s) : Keeps z (retrainLane p s) := by
  unfold retrainLane
  try dsimp only
  repeat' first
    | with_reducible assumption
    | with_reducible apply linkLeaves_keeps
    | with_reducible apply id_keeps
    | with_reducible apply Keeps.ite

theorem retrainLanes_keeps {z s : State} (ps : List Nat) (hz : Keeps z s) : Keeps z (retrainLanes ps s) := by
  unfold retrainLanes
  try dsimp only
  repeat' first
    | with_reducible assumption
    | with_reducible apply afterLoss_keeps
    | with_reducible apply eachDo_keeps
    | with_reducible apply retrainLane_keeps
    | with_reducible apply eachDo_keeps
    | with_reducible apply id_keeps
    | with_reducible apply Keeps.ite
    | (intro _ _ _)

theorem retrainEscalated_keeps {z s : State} (hz : Keeps z s) : Keeps z (retrainEscalated s) := by
  unfold retrainEscalated
  try dsimp only
  repeat' first
    | with_reducible assumption
    | with_reducible apply retrainLanes_keeps
    | with_reducible apply id_keeps
    | with_reducible apply Keeps.ite
    | (intro _ _ _)
    | (intro _ _)
    | split
    | with_reducible apply Keeps.upd

theorem takeSplice_keeps {z s : State} (k : Nat) (hz : Keeps z s) : Keeps z (takeSplice k s) := by
  unfold takeSplice
  try dsimp only
  repeat' first
    | with_reducible assumption
    | with_reducible apply spliceBegin_keeps
    | with_reducible apply raise_keeps
    | with_reducible apply Keeps.ite
    | (intro _ _ _)
    | (intro _ _)
    | split
    | with_reducible apply Keeps.upd

theorem takeWear_keeps {z s : State} (k : Nat) (hz : Keeps z s) : Keeps z (takeWear k s) := by
  unfold takeWear
  repeat' first
    | with_reducible assumption
    | with_reducible apply wearSplice_keeps
    | with_reducible apply Keeps.ite

theorem takeRimWear_keeps {z s : State} (n : Nat) (hz : Keeps z s) : Keeps z (takeRimWear n s) := by
  unfold takeRimWear
  try dsimp only
  repeat' first
    | with_reducible assumption
    | with_reducible apply migrateGo_keeps
    | with_reducible apply Keeps.ite
    | (intro _ _ _)
    | (intro _ _)
    | split
    | with_reducible apply Keeps.upd

theorem takeUnlock_keeps {z s : State} (n : Nat) (hz : Keeps z s) : Keeps z (takeUnlock n s) := by
  unfold takeUnlock
  try dsimp only
  repeat' first
    | with_reducible assumption
    | with_reducible apply unlockMigrate_keeps
    | with_reducible apply modRim_keeps
    | with_reducible apply Keeps.ite

theorem takeTarget_keeps {z s : State} (u : Nat) (hz : Keeps z s) : Keeps z (takeTarget u s) := by
  unfold takeTarget
  repeat' first
    | with_reducible assumption
    | with_reducible apply unitSelect_keeps
    | with_reducible apply Keeps.ite

theorem settleAll_keeps {z s : State}  (hz : Keeps z s) : Keeps z (settleAll s) := by
  unfold settleAll
  try dsimp only
  repeat' first
    | with_reducible assumption
    | with_reducible apply retrainEscalated_keeps
    | with_reducible apply eachDo_keeps
    | with_reducible apply takeSplice_keeps
    | with_reducible apply takeWear_keeps
    | with_reducible apply takeUnlock_keeps
    | with_reducible apply startDeferred_keeps
    | with_reducible apply takeRimWear_keeps
    | with_reducible apply takeTarget_keeps
    | with_reducible apply resettle_keeps
    | with_reducible apply nvmNext_keeps
    | with_reducible apply eachDo_keeps
    | (intro _ _ _)

theorem settled_keeps {z t : State} (s : State)  (hz : Keeps z t) : OutKeeps z (settled s t) := by
  unfold settled
  repeat' first
    | with_reducible assumption
    | with_reducible apply done_keeps
    | with_reducible apply settleAll_keeps

theorem raiseEcc_keeps {z s : State} (a : Nat) (b : Option Nat) (hz : Keeps z s) : Keeps z (raiseEcc a b s) := by
  unfold raiseEcc
  repeat' first
    | with_reducible assumption
    | with_reducible apply raiseFault_keeps

theorem calAccept_keeps {z s : State} (w0 w1 : Word) (h : Keeps z s) : Keeps z (calAccept w0 w1 s).2 := by
  have hf : ∀ (xs : List Nat) (a : Bool × State) (f : Bool × State → Nat → Bool × State),
      (∀ a x, Keeps z a.2 → Keeps z (f a x).2) → Keeps z a.2 → Keeps z (xs.foldl f a).2 := by
    intro xs
    induction xs with
    | nil => exact fun a f _ ha => ha
    | cons x r ih => exact fun a f hf ha => ih (f a x) f hf (hf a x ha)
  unfold calAccept
  rcases calTargets w0 w1 with ⟨u, xs⟩
  dsimp only
  split
  · exact hf xs (false, s) _ (fun a x ha => stopTarget_keeps _ _ ha) h
  · exact hf xs (xs != [], s) _ (fun a x ha => makePending_keeps _ _ _ ha) h

theorem maintGranted_keeps {z s : State} (h : Hop) (hz : Keeps z s) : Keeps z (maintGranted h s) := by
  unfold maintGranted
  try dsimp only
  repeat' first
    | with_reducible assumption
    | with_reducible apply reedRequest_keeps
    | with_reducible apply reedCut_keeps
    | with_reducible apply completeHop_keeps
    | with_reducible apply modHop_keeps
    | with_reducible apply calAccept_keeps
    | with_reducible apply id_keeps
    | with_reducible apply Keeps.ite

theorem reedOpsGo_keeps {z s : State} (hz : Keeps z s) : Keeps z (reedOpsGo s) := by
  unfold reedOpsGo
  try dsimp only
  repeat' first
    | with_reducible assumption
    | with_reducible apply eachDo_keeps
    | with_reducible apply maintGranted_keeps
    | with_reducible apply eachDo_keeps
    | with_reducible apply id_keeps
    | with_reducible apply Keeps.ite
    | (intro _ _ _)

end Sys2Proof.Machine
end

