-- ==== Sys2Proof/Laws/KeepsHops.lean ====
section
/-! SUPPORT. One lemma for each operation that answers a state: it keeps what every command keeps. Here commands, hops, hearth, rims and tally. -/

namespace Sys2Proof.Machine

theorem beginAccess_keeps {z s : State} (i : Nat) (hz : Keeps z s) : Keeps z (beginAccess i s) := by
  unfold beginAccess
  try dsimp only
  repeat' first
    | with_reducible assumption
    | with_reducible apply modHop_keeps
    | with_reducible apply id_keeps
    | with_reducible apply Keeps.ite
    | (intro _ _ _)
    | (intro _ _)
    | split

theorem grantSlot_keeps {z s : State} (h : Hop) (hz : Keeps z s) : Keeps z (grantSlot h s) := by
  unfold grantSlot
  try dsimp only
  repeat' first
    | with_reducible assumption
    | with_reducible apply leaveRing_keeps
    | with_reducible apply setReserved_keeps
    | with_reducible apply beginAccess_keeps
    | with_reducible apply modHop_keeps
    | with_reducible apply countSlots_keeps
    | with_reducible apply id_keeps
    | with_reducible apply Keeps.ite
    | (intro _ _ _)
    | (intro _ _)
    | split
    | with_reducible apply Keeps.upd

theorem afterFetch_keeps {z s : State} (h : Hop) (hz : Keeps z s) : Keeps z (afterFetch h s) := by
  unfold afterFetch
  try dsimp only
  repeat' first
    | with_reducible assumption
    | with_reducible apply completeHop_keeps
    | with_reducible apply modHop_keeps
    | with_reducible apply armHop_keeps
    | with_reducible apply id_keeps
    | with_reducible apply Keeps.ite

theorem execHopGrant_keeps {z s : State} (r : Nat) (hz : Keeps z s) : OutKeeps z (execHopGrant r s) := by
  unfold execHopGrant
  try dsimp only
  repeat' first
    | with_reducible assumption
    | with_reducible apply next_keeps
    | with_reducible apply done_keeps
    | with_reducible apply abortHop_keeps
    | with_reducible apply completeQueued_keeps
    | with_reducible apply grantSlot_keeps
    | with_reducible apply afterFetch_keeps
    | with_reducible apply settled_keeps
    | with_reducible apply maintGranted_keeps
    | with_reducible apply id_keeps
    | with_reducible apply Keeps.ite
    | with_reducible apply OutKeeps.ite
    | (intro _ _ _)
    | (intro _ _)
    | split

theorem execProfileFetchDone_keeps {z s : State} (id : Nat) (hz : Keeps z s) : OutKeeps z (execProfileFetchDone id s) := by
  unfold execProfileFetchDone
  try dsimp only
  repeat' first
    | with_reducible assumption
    | with_reducible apply raiseEcc_keeps
    | with_reducible apply done_keeps
    | with_reducible apply completeHop_keeps
    | with_reducible apply afterFetch_keeps
    | with_reducible apply id_keeps
    | with_reducible apply next_keeps
    | with_reducible apply OutKeeps.ite
    | with_reducible apply Keeps.ite
    | (intro _ _ _)
    | (intro _ _)
    | split

theorem applyArm_keeps {z s : State} (h : Hop) (hz : Keeps z s) : Keeps z (applyArm h s) := by
  unfold applyArm
  try dsimp only
  repeat' first
    | with_reducible assumption
    | with_reducible apply reedsHop_keeps
    | with_reducible apply setStrand_keeps
    | with_reducible apply raise_keeps
    | with_reducible apply put_keeps
    | with_reducible apply completeHop_keeps
    | with_reducible apply Keeps.ite
    | split

theorem applyStop_settleStopped_keeps {z s : State} (k : Nat) (hz : Keeps z s) : Keeps z (applyStop.settleStopped k s) := by
  unfold applyStop.settleStopped
  repeat' first
    | with_reducible assumption
    | with_reducible apply eachDo_keeps
    | with_reducible apply becomeDue_keeps
    | with_reducible apply settleStrand_keeps
    | with_reducible apply eachDo_keeps
    | (intro _ _ _)

theorem applyStop_keeps {z s : State} (h : Hop) (hz : Keeps z s) : Keeps z (applyStop h s) := by
  unfold applyStop
  try dsimp only
  repeat' first
    | with_reducible assumption
    | with_reducible apply spliceStopped_keeps
    | with_reducible apply stopStrand_keeps
    | with_reducible apply applyStop_settleStopped_keeps
    | with_reducible apply completeHop_keeps

theorem startReady_keeps {z s : State} (k : Nat) (hz : Keeps z s) : Keeps z (startReady k s) := by
  unfold startReady
  try dsimp only
  repeat' first
    | with_reducible assumption
    | with_reducible apply setReason_keeps
    | with_reducible apply id_keeps
    | with_reducible apply Keeps.ite

theorem applyStart_keeps {z s : State} (k0 : Nat) (h : Hop) (hz : Keeps z s) : Keeps z (applyStart k0 h s) := by
  unfold applyStart
  try dsimp only
  repeat' first
    | with_reducible assumption
    | with_reducible apply setStrand_keeps
    | with_reducible apply raise_keeps
    | with_reducible apply eachDo_keeps
    | with_reducible apply setReg_keeps
    | with_reducible apply put_keeps
    | with_reducible apply startReady_keeps
    | with_reducible apply reedsHop_keeps
    | with_reducible apply spokeStart_keeps
    | with_reducible apply refreshCal_keeps
    | with_reducible apply settleStrand_keeps
    | with_reducible apply completeHop_keeps
    | with_reducible apply eachDo_keeps
    | with_reducible apply id_keeps
    | with_reducible apply Keeps.ite
    | (intro _ _ _)

theorem startRejected_keeps {z s : State} (h : Hop) (hz : Keeps z s) : Keeps z (startRejected h s) := by
  unfold startRejected
  try dsimp only
  repeat' first
    | with_reducible assumption
    | with_reducible apply completeHop_keeps
    | with_reducible apply incSat_keeps

theorem takeStart_keeps {z s : State} (k : Nat) (n : Nat) (at_ : Nat) (hz : Keeps z s) : Keeps z (takeStart k n at_ s) := by
  unfold takeStart
  try dsimp only
  repeat' first
    | with_reducible assumption
    | with_reducible apply runEdges_keeps
    | with_reducible apply eachDo_keeps
    | with_reducible apply completeHop_keeps
    | with_reducible apply applyStart_keeps
    | with_reducible apply eachDo_keeps
    | with_reducible apply id_keeps
    | with_reducible apply Keeps.ite
    | (intro _ _ _)
    | (intro _ _)
    | split

theorem takeBoundary_keeps {z s : State} (k : Nat) (n : Nat) (at_ : Nat) (hz : Keeps z s) : Keeps z (takeBoundary k n at_ s) := by
  unfold takeBoundary
  try dsimp only
  repeat' first
    | with_reducible assumption
    | with_reducible apply runEdges_keeps
    | with_reducible apply eachDo_keeps
    | with_reducible apply startRejected_keeps
    | with_reducible apply completeHop_keeps
    | with_reducible apply applyStop_keeps
    | with_reducible apply applyArm_keeps
    | with_reducible apply eachDo_keeps
    | with_reducible apply id_keeps
    | with_reducible apply Keeps.ite
    | (intro _ _ _)
    | (intro _ _)
    | split
    | with_reducible apply Keeps.upd
    | with_reducible apply Keeps.updFree

theorem takeStrand_keeps {z s : State} (k : Nat) (n : Nat) (at_ : Nat) (hz : Keeps z s) : Keeps z (takeStrand k n at_ s) := by
  unfold takeStrand
  try dsimp only
  repeat' first
    | with_reducible assumption
    | with_reducible apply takeBoundary_keeps
    | with_reducible apply takeStart_keeps
    | with_reducible apply id_keeps
    | with_reducible apply Keeps.ite

theorem beginRetune_keeps {z s : State} (h : Hop) (hz : Keeps z s) : Keeps z (beginRetune h s) := by
  unfold beginRetune
  repeat' first
    | with_reducible assumption
    | with_reducible apply retuneTo_keeps

theorem takeRim_keeps {z s : State} (n : Nat) (at_ : Nat) (hz : Keeps z s) : Keeps z (takeRim n at_ s) := by
  unfold takeRim
  try dsimp only
  repeat' first
    | with_reducible assumption
    | with_reducible apply beginRetune_keeps
    | with_reducible apply id_keeps
    | with_reducible apply Keeps.ite
    | (intro _ _ _)
    | (intro _ _)
    | split

theorem execHopTakeEffect_keeps {z s : State} (rim : Bool) (k : Nat) (n : Nat) (at_ : Nat) (hz : Keeps z s) : OutKeeps z (execHopTakeEffect rim k n at_ s) := by
  unfold execHopTakeEffect
  try dsimp only
  repeat' first
    | with_reducible assumption
    | with_reducible apply next_keeps
    | with_reducible apply settled_keeps
    | with_reducible apply takeRim_keeps
    | with_reducible apply takeStrand_keeps
    | with_reducible apply id_keeps
    | with_reducible apply Keeps.ite

theorem execHoldMaxExpire_keeps {z s : State} (i : Nat) (hz : Keeps z s) : OutKeeps z (execHoldMaxExpire i s) := by
  unfold execHoldMaxExpire
  try dsimp only
  repeat' first
    | with_reducible assumption
    | with_reducible apply done_keeps
    | with_reducible apply completeHop_keeps
    | with_reducible apply next_keeps
    | with_reducible apply OutKeeps.ite
    | with_reducible apply Keeps.ite
    | split

theorem execFireLeadReached_keeps {z s : State} (i : Nat) (hz : Keeps z s) : OutKeeps z (execFireLeadReached i s) := by
  unfold execFireLeadReached
  try dsimp only
  repeat' first
    | with_reducible assumption
    | with_reducible apply done_keeps
    | with_reducible apply becomeDue_keeps
    | with_reducible apply next_keeps
    | with_reducible apply OutKeeps.ite
    | with_reducible apply Keeps.ite
    | split

theorem execTimedMissed_keeps {z s : State} (i : Nat) (hz : Keeps z s) : OutKeeps z (execTimedMissed i s) := by
  unfold execTimedMissed
  try dsimp only
  repeat' first
    | with_reducible assumption
    | with_reducible apply done_keeps
    | with_reducible apply completeHop_keeps
    | with_reducible apply next_keeps
    | with_reducible apply OutKeeps.ite
    | with_reducible apply Keeps.ite
    | split

theorem execSpecTimeout_keeps {z s : State} (i : Nat) (hz : Keeps z s) : OutKeeps z (execSpecTimeout i s) := by
  unfold execSpecTimeout
  try dsimp only
  repeat' first
    | with_reducible assumption
    | with_reducible apply done_keeps
    | with_reducible apply completeHop_keeps
    | with_reducible apply next_keeps
    | with_reducible apply OutKeeps.ite
    | with_reducible apply Keeps.ite
    | split

theorem execRampStep_keeps {z s : State} (k : Nat) (n : Nat) (hz : Keeps z s) : OutKeeps z (execRampStep k n s) := by
  unfold execRampStep
  try dsimp only
  repeat' first
    | with_reducible assumption
    | with_reducible apply runEdges_keeps
    | with_reducible apply done_keeps
    | with_reducible apply rampOnce_keeps
    | with_reducible apply next_keeps
    | with_reducible apply OutKeeps.ite
    | with_reducible apply Keeps.ite

theorem execSlewStep_keeps {z s : State} (k : Nat) (hz : Keeps z s) : OutKeeps z (execSlewStep k s) := by
  unfold execSlewStep
  repeat' first
    | with_reducible assumption
    | with_reducible apply done_keeps
    | with_reducible apply runEdges_keeps
    | with_reducible apply next_keeps
    | with_reducible apply OutKeeps.ite

theorem returnCredit_keeps {z s : State} (p : Nat) (c : Parsed) (hz : Keeps z s) : Keeps z (returnCredit p c s) := by
  unfold returnCredit
  try dsimp only
  repeat' first
    | with_reducible assumption
    | with_reducible apply put_keeps
    | with_reducible apply addSat_keeps
    | with_reducible apply Keeps.ite
    | split

theorem answer_keeps {z s t : State} {c : Parsed} {code detail : Nat} (h : Keeps z s) (e : answer c code detail s = some t) : Keeps z t := by
  unfold answer at e
  have hs : Keeps z (if code = cREJ_SOURCE then s.incSat (BSK_REJ_CNT_REJ_SOURCE c.basket)
    else if code = cREJ_TARGET then s.incSat (BSK_REJ_CNT_REJ_TARGET c.basket) else s) :=
    Keeps.ite (incSat_keeps _ h) (Keeps.ite (incSat_keeps _ h) h)
  dsimp only at e
  generalize (if code = cREJ_SOURCE then s.incSat (BSK_REJ_CNT_REJ_SOURCE c.basket)
    else if code = cREJ_TARGET then s.incSat (BSK_REJ_CNT_REJ_TARGET c.basket) else s) = u at hs e
  split at e
  · split at e
    · exact Option.some.inj e ▸ writeCpl_keeps _ _ _ _ _ _ _ (setReserved_keeps _ _ (put_keeps _ _ hs))
    · cases e
  · split at e
    · split at e
      · exact Option.some.inj e ▸ writeCpl_keeps _ _ _ _ _ _ _ (setReserved_keeps _ _ hs)
      · cases e
    · exact Option.some.inj e ▸ cplToLane_keeps _ _ _ hs

theorem answerOr_keeps {z s t : State} {c : Parsed} {code detail : Nat} (h : Keeps z s) (e : answerOr c code detail s = some t) : Keeps z t := by
  obtain ⟨u, hu, rfl⟩ := Option.map_eq_some_iff.1 e
  have := answer_keeps h hu
  split
  · exact returnCredit_keeps _ _ this
  · exact this

theorem consume_keeps {z s : State} (c : Parsed) (hz : Keeps z s) : Keeps z (consume c s) := by
  unfold consume
  try dsimp only
  repeat' first
    | with_reducible assumption
    | with_reducible apply put_keeps
    | split

theorem actCommit_keeps {z s t : State} {c : Parsed} (h : Keeps z s) (e : actCommit c s = some t) : Keeps z t := by
  unfold actCommit at e
  split at e
  · exact answerOr_keeps h e
  · split at e
    · exact answerOr_keeps h e
    · split at e
      · exact Option.some.inj e ▸ consume_keeps _ h
      · split at e
        · exact Option.some.inj e ▸ armHop_keeps _ (modHop_keeps _ _ (consume_keeps _ h))
        · exact Option.some.inj e ▸ modHop_keeps _ _ (consume_keeps _ h)

theorem actSquash_keeps {z s t : State} {c : Parsed} (h : Keeps z s) (e : actSquash c s = some t) : Keeps z t := by
  unfold actSquash at e
  split at e
  · exact answerOr_keeps h e
  · split at e
    · exact Option.some.inj e ▸ consume_keeps _ h
    · split at e
      · exact answerOr_keeps h e
      · split at e
        · exact Option.some.inj e ▸ completeHop_keeps _ _ _ _ (consume_keeps _ h)
        · exact Option.some.inj e ▸ modHop_keeps _ _ (consume_keeps _ h)

theorem newHop_keeps {z s : State} (c : Parsed) (feed : Option Nat) (ring : Nat) (reserved : Bool) (hz : Keeps z s) : Keeps z (newHop c feed ring reserved s) := by
  unfold newHop
  try dsimp only
  repeat' first
    | with_reducible assumption
    | with_reducible apply id_keeps
    | with_reducible apply Keeps.ite
    | split
    | with_reducible apply Keeps.upd

theorem noCredit_keeps {z s t : State} {p : Nat} {c : Parsed} (h : Keeps z s) (e : noCredit p c s = some t) : Keeps z t := by
  obtain ⟨u, hu, rfl⟩ := Option.map_eq_some_iff.1 e
  have hv := raise_keeps (RING_EVENT_CREDIT_VIOL (c.basket + 1)) (raise_keeps (RING_EVENT_CREDIT_VIOL 0)
    (incSat_keeps (RING_BSK_CNT1_CREDIT_VIOL c.basket) (answerOr_keeps h hu)))
  dsimp only [State.fresh]
  split
  · exact hv
  · refine raiseFault_keeps _ _ _ _ ?_
    with_reducible apply Keeps.updFree
    with_reducible exact hv

theorem enterRing_keeps {z s t : State} {c : Parsed} (h : Keeps z s) (e : enterRing c s = some t) : Keeps z t := by
  unfold enterRing at e
  split at e
  · dsimp only at e
    split at e
    · exact Option.some.inj e ▸ newHop_keeps _ _ _ _ (setReserved_keeps _ _ h)
    · cases e
  · split at e
    · exact noCredit_keeps h e
    · cases e
      exact newHop_keeps _ _ _ _ (put_keeps _ _ (put_keeps _ _ (storeEntry_keeps _ _ h)))

theorem parse_keeps {z s t : State} {c : Parsed} (h : Keeps z s) (e : parse c s = some t) : Keeps z t := by
  unfold parse at e
  split at e
  · exact answerOr_keeps h e
  · split at e
    · exact answerOr_keeps h e
    · split at e
      · exact actCommit_keeps h e
      · split at e
        · exact actSquash_keeps h e
        · exact enterRing_keeps h e

theorem forward_keeps {z s : State} (c : Parsed) (hz : Keeps z s) : Keeps z (forward c s) := by
  unfold forward
  try dsimp only
  repeat' first
    | with_reducible assumption
    | with_reducible apply setLink_keeps
    | with_reducible apply sendFrame_keeps
    | with_reducible apply Keeps.ite
    | split

theorem stall_keeps {z s : State} (c : Parsed) (hz : Keeps z s) : Keeps z (stall c s) := by
  unfold stall
  try dsimp only
  repeat' first
    | with_reducible assumption
    | with_reducible apply setLink_keeps
    | with_reducible apply id_keeps
    | with_reducible apply Keeps.ite
    | (intro _ _ _)
    | (intro _ _)
    | split

theorem receive_keeps {z s : State} (c : Parsed) (h : Keeps z s) : Keeps z (receive c s) := by
  unfold receive
  refine Keeps.ite (forward_keeps _ (consume_keeps _ h)) (Keeps.ite ?_ (forward_keeps _ h))
  split
  · next t ht => exact forward_keeps _ (parse_keeps h ht)
  · exact stall_keeps _ h

theorem command_keeps {z s : State} (ops : Nat → Bool) (c : CmdIn) (hz : Keeps z s) : OutKeeps z (command ops c s) := by
  unfold command
  try dsimp only
  repeat' first
    | with_reducible assumption
    | with_reducible apply done_keeps
    | with_reducible apply receive_keeps
    | with_reducible apply next_keeps
    | with_reducible apply OutKeeps.ite
    | with_reducible apply Keeps.ite
    | split

theorem execHopArm_keeps {z s : State} (c : CmdIn) (hz : Keeps z s) : OutKeeps z (execHopArm c s) := by
  unfold execHopArm
  repeat' first
    | with_reducible assumption
    | with_reducible apply command_keeps

theorem execHopCommit_keeps {z s : State} (c : CmdIn) (hz : Keeps z s) : OutKeeps z (execHopCommit c s) := by
  unfold execHopCommit
  repeat' first
    | with_reducible assumption
    | with_reducible apply command_keeps

theorem execHopSquash_keeps {z s : State} (c : CmdIn) (hz : Keeps z s) : OutKeeps z (execHopSquash c s) := by
  unfold execHopSquash
  repeat' first
    | with_reducible assumption
    | with_reducible apply command_keeps

theorem execHopRetune_keeps {z s : State} (c : CmdIn) (hz : Keeps z s) : OutKeeps z (execHopRetune c s) := by
  unfold execHopRetune
  repeat' first
    | with_reducible assumption
    | with_reducible apply command_keeps

theorem execStrandStart_keeps {z s : State} (c : CmdIn) (hz : Keeps z s) : OutKeeps z (execStrandStart c s) := by
  unfold execStrandStart
  repeat' first
    | with_reducible assumption
    | with_reducible apply command_keeps

theorem execStrandStop_keeps {z s : State} (c : CmdIn) (hz : Keeps z s) : OutKeeps z (execStrandStop c s) := by
  unfold execStrandStop
  repeat' first
    | with_reducible assumption
    | with_reducible apply command_keeps

theorem execNopCmd_keeps {z s : State} (c : CmdIn) (hz : Keeps z s) : OutKeeps z (execNopCmd c s) := by
  unfold execNopCmd
  repeat' first
    | with_reducible assumption
    | with_reducible apply command_keeps

theorem execInvalidOp_keeps {z s : State} (c : CmdIn) (hz : Keeps z s) : OutKeeps z (execInvalidOp c s) := by
  unfold execInvalidOp
  repeat' first
    | with_reducible assumption
    | with_reducible apply command_keeps

theorem execReedMeasure_keeps {z s : State} (c : CmdIn) (hz : Keeps z s) : OutKeeps z (execReedMeasure c s) := by
  unfold execReedMeasure
  repeat' first
    | with_reducible assumption
    | with_reducible apply command_keeps

theorem execMeasureStop_keeps {z s : State} (c : CmdIn) (hz : Keeps z s) : OutKeeps z (execMeasureStop c s) := by
  unfold execMeasureStop
  repeat' first
    | with_reducible assumption
    | with_reducible apply command_keeps

theorem execCalStrand_keeps {z s : State} (c : CmdIn) (hz : Keeps z s) : OutKeeps z (execCalStrand c s) := by
  unfold execCalStrand
  repeat' first
    | with_reducible assumption
    | with_reducible apply command_keeps

theorem execCalReed_keeps {z s : State} (c : CmdIn) (hz : Keeps z s) : OutKeeps z (execCalReed c s) := by
  unfold execCalReed
  repeat' first
    | with_reducible assumption
    | with_reducible apply command_keeps

theorem execCalRim_keeps {z s : State} (c : CmdIn) (hz : Keeps z s) : OutKeeps z (execCalRim c s) := by
  unfold execCalRim
  repeat' first
    | with_reducible assumption
    | with_reducible apply command_keeps

theorem execCalLane_keeps {z s : State} (c : CmdIn) (hz : Keeps z s) : OutKeeps z (execCalLane c s) := by
  unfold execCalLane
  repeat' first
    | with_reducible assumption
    | with_reducible apply command_keeps

theorem execCalStore_keeps {z s : State} (c : CmdIn) (hz : Keeps z s) : OutKeeps z (execCalStore c s) := by
  unfold execCalStore
  repeat' first
    | with_reducible assumption
    | with_reducible apply command_keeps

theorem execXrefActivityTrip_keeps {z s : State}  (hz : Keeps z s) : OutKeeps z (execXrefActivityTrip s) := by
  unfold execXrefActivityTrip
  repeat' first
    | with_reducible assumption
    | with_reducible apply done_keeps
    | with_reducible apply monitorTrip_keeps
    | with_reducible apply lower_keeps
    | with_reducible apply next_keeps
    | with_reducible apply OutKeeps.ite

theorem execXrefActivityReturn_keeps {z s : State}  (hz : Keeps z s) : OutKeeps z (execXrefActivityReturn s) := by
  unfold execXrefActivityReturn
  try dsimp only
  repeat' first
    | with_reducible assumption
    | with_reducible apply put_keeps
    | with_reducible apply raise_keeps
    | with_reducible apply done_keeps
    | with_reducible apply next_keeps
    | with_reducible apply OutKeeps.ite
    | with_reducible apply Keeps.ite
    | split
    | with_reducible apply Keeps.upd

theorem execXrefSettleElapsed_keeps {z s : State}  (hz : Keeps z s) : OutKeeps z (execXrefSettleElapsed s) := by
  unfold execXrefSettleElapsed
  repeat' first
    | with_reducible assumption
    | with_reducible apply done_keeps
    | with_reducible apply put_keeps
    | with_reducible apply next_keeps
    | with_reducible apply OutKeeps.ite

theorem execWarpSourcePresent_keeps {z s : State} (x : Nat) (hz : Keeps z s) : OutKeeps z (execWarpSourcePresent x s) := by
  unfold execWarpSourcePresent
  repeat' first
    | with_reducible assumption
    | with_reducible apply done_keeps
    | with_reducible apply put_keeps
    | with_reducible apply raise_keeps
    | with_reducible apply next_keeps
    | with_reducible apply OutKeeps.ite

theorem execQualificationWindowElapsed_keeps {z s : State} (xs : List Nat) (hz : Keeps z s) : OutKeeps z (execQualificationWindowElapsed xs s) := by
  unfold execQualificationWindowElapsed
  try dsimp only
  repeat' first
    | with_reducible assumption
    | with_reducible apply next_keeps
    | with_reducible apply done_keeps
    | with_reducible apply sourcesQualified_keeps
    | with_reducible apply id_keeps
    | with_reducible apply Keeps.ite
    | with_reducible apply OutKeeps.ite
    | (intro _ _ _)
    | (intro _ _)
    | split

theorem execCoarseFreqGateEnd_keeps {z s : State} (x : Nat) (off : Int) (hz : Keeps z s) : OutKeeps z (execCoarseFreqGateEnd x off s) := by
  unfold execCoarseFreqGateEnd
  try dsimp only
  repeat' first
    | with_reducible assumption
    | with_reducible apply setReg_keeps
    | with_reducible apply done_keeps
    | with_reducible apply raise_keeps
    | with_reducible apply monitorTrip_keeps
    | with_reducible apply lower_keeps
    | with_reducible apply setReg_keeps
    | with_reducible apply next_keeps
    | with_reducible apply OutKeeps.ite
    | with_reducible apply Keeps.ite

theorem execFineFreqGateEnd_keeps {z s : State} (x : Nat) (off : Int) (hz : Keeps z s) : OutKeeps z (execFineFreqGateEnd x off s) := by
  unfold execFineFreqGateEnd
  try dsimp only
  repeat' first
    | with_reducible assumption
    | with_reducible apply setReg_keeps
    | with_reducible apply done_keeps
    | with_reducible apply raise_keeps
    | with_reducible apply monitorTrip_keeps
    | with_reducible apply lower_keeps
    | with_reducible apply setReg_keeps
    | with_reducible apply next_keeps
    | with_reducible apply OutKeeps.ite

theorem execPhaseHit_keeps {z s : State} (x : Nat) (mv : Int) (ph : Int) (hz : Keeps z s) : OutKeeps z (execPhaseHit x mv ph s) := by
  unfold execPhaseHit
  try dsimp only
  repeat' first
    | with_reducible assumption
    | with_reducible apply setReg_keeps
    | with_reducible apply done_keeps
    | with_reducible apply monitorTrip_keeps
    | with_reducible apply raise_keeps
    | with_reducible apply setReg_keeps
    | with_reducible apply next_keeps
    | with_reducible apply OutKeeps.ite
    | with_reducible apply Keeps.ite
    | split
    | with_reducible apply Keeps.upd

theorem execHearthLockDeclare_keeps {z s : State}  (hz : Keeps z s) : OutKeeps z (execHearthLockDeclare s) := by
  unfold execHearthLockDeclare
  try dsimp only
  repeat' first
    | with_reducible assumption
    | with_reducible apply put_keeps
    | with_reducible apply tallyHandover_keeps
    | with_reducible apply loseHistory_keeps
    | with_reducible apply raise_keeps
    | with_reducible apply unparkSpokes_keeps
    | with_reducible apply settled_keeps
    | with_reducible apply eachDo_keeps
    | with_reducible apply clearCause_keeps
    | with_reducible apply eachDo_keeps
    | with_reducible apply next_keeps
    | with_reducible apply OutKeeps.ite
    | with_reducible apply Keeps.ite
    | (intro _ _ _)
    | (intro _ _)
    | split
    | with_reducible apply Keeps.upd

theorem execHearthUnlock_keeps {z s : State}  (hz : Keeps z s) : OutKeeps z (execHearthUnlock s) := by
  unfold execHearthUnlock
  repeat' first
    | with_reducible assumption
    | with_reducible apply done_keeps
    | with_reducible apply enterWait_keeps
    | with_reducible apply raise_keeps
    | with_reducible apply next_keeps
    | with_reducible apply OutKeeps.ite

theorem execHearthBwStep_keeps {z s : State}  (hz : Keeps z s) : OutKeeps z (execHearthBwStep s) := by
  unfold execHearthBwStep
  try dsimp only
  repeat' first
    | with_reducible assumption
    | with_reducible apply done_keeps
    | with_reducible apply next_keeps
    | with_reducible apply OutKeeps.ite
    | with_reducible apply Keeps.ite
    | split
    | with_reducible apply Keeps.upd

theorem execRevertiveWtrElapsed_keeps {z s : State} (x : Nat) (hz : Keeps z s) : OutKeeps z (execRevertiveWtrElapsed x s) := by
  unfold execRevertiveWtrElapsed
  repeat' first
    | with_reducible assumption
    | with_reducible apply done_keeps
    | with_reducible apply switchTo_keeps
    | with_reducible apply next_keeps
    | with_reducible apply OutKeeps.ite

theorem execHoldoverWindowExpire_keeps {z s : State}  (hz : Keeps z s) : OutKeeps z (execHoldoverWindowExpire s) := by
  unfold execHoldoverWindowExpire
  repeat' first
    | with_reducible assumption
    | with_reducible apply settled_keeps
    | with_reducible apply enterLost_keeps
    | with_reducible apply next_keeps
    | with_reducible apply OutKeeps.ite

theorem execWaitMaxExpire_keeps {z s : State}  (hz : Keeps z s) : OutKeeps z (execWaitMaxExpire s) := by
  unfold execWaitMaxExpire
  repeat' first
    | with_reducible assumption
    | with_reducible apply settled_keeps
    | with_reducible apply enterLost_keeps
    | with_reducible apply next_keeps
    | with_reducible apply OutKeeps.ite

theorem execReacquisitionFail_keeps {z s : State}  (hz : Keeps z s) : OutKeeps z (execReacquisitionFail s) := by
  unfold execReacquisitionFail
  try dsimp only
  repeat' first
    | with_reducible assumption
    | with_reducible apply settled_keeps
    | with_reducible apply enterLost_keeps
    | with_reducible apply next_keeps
    | with_reducible apply OutKeeps.ite
    | with_reducible apply Keeps.ite
    | (intro _ _ _)
    | (intro _ _)
    | split
    | with_reducible apply Keeps.upd

theorem execHistoryValid_keeps {z s : State}  (hz : Keeps z s) : OutKeeps z (execHistoryValid s) := by
  unfold execHistoryValid
  repeat' first
    | with_reducible assumption
    | with_reducible apply done_keeps
    | with_reducible apply raise_keeps
    | with_reducible apply next_keeps
    | with_reducible apply OutKeeps.ite

theorem execRequalifyX_keeps {z s : State} (m : Nat) (hz : Keeps z s) : OutKeeps z (execRequalifyX m s) := by
  unfold execRequalifyX
  try dsimp only
  repeat' first
    | with_reducible assumption
    | with_reducible apply done_keeps
    | with_reducible apply gateWrite_keeps
    | with_reducible apply unqualify_keeps
    | with_reducible apply next_keeps
    | with_reducible apply OutKeeps.ite
    | with_reducible apply Keeps.ite
    | (intro _ _ _)
    | (intro _ _)
    | split
    | with_reducible apply Keeps.upd

theorem execClearHistory_keeps {z s : State} (m : Nat) (hz : Keeps z s) : OutKeeps z (execClearHistory m s) := by
  unfold execClearHistory
  repeat' first
    | with_reducible assumption
    | with_reducible apply done_keeps
    | with_reducible apply gateWrite_keeps
    | with_reducible apply loseHistory_keeps

theorem execHrtSwitchNow_keeps {z s : State} (m : Nat) (hz : Keeps z s) : OutKeeps z (execHrtSwitchNow m s) := by
  unfold execHrtSwitchNow
  try dsimp only
  repeat' first
    | with_reducible assumption
    | with_reducible apply next_keeps
    | with_reducible apply done_keeps
    | with_reducible apply gateWrite_keeps
    | with_reducible apply raise_keeps
    | with_reducible apply takeSource_keeps
    | with_reducible apply id_keeps
    | with_reducible apply Keeps.ite
    | with_reducible apply OutKeeps.ite
    | (intro _ _ _)
    | (intro _ _)
    | split

theorem execHrtCtrlWrite_keeps {z s : State} (m : Nat) (v : Word) (hz : Keeps z s) : OutKeeps z (execHrtCtrlWrite m v s) := by
  unfold execHrtCtrlWrite
  try dsimp only
  repeat' first
    | with_reducible assumption
    | with_reducible apply next_keeps
    | with_reducible apply done_keeps
    | with_reducible apply gateWrite_keeps
    | with_reducible apply raise_keeps
    | with_reducible apply setReg_keeps
    | with_reducible apply lower_keeps
    | with_reducible apply takeSource_keeps
    | with_reducible apply reselect_keeps
    | with_reducible apply id_keeps
    | with_reducible apply Keeps.ite
    | with_reducible apply OutKeeps.ite
    | (intro _ _ _)
    | (intro _ _)

theorem execHrtXrefSettleWrite_keeps {z s : State} (m : Nat) (v : Word) (hz : Keeps z s) : OutKeeps z (execHrtXrefSettleWrite m v s) := by
  unfold execHrtXrefSettleWrite
  try dsimp only
  repeat' first
    | with_reducible assumption
    | with_reducible apply done_keeps
    | with_reducible apply gateWrite_keeps
    | with_reducible apply raise_keeps
    | with_reducible apply setReg_keeps
    | with_reducible apply put_keeps
    | with_reducible apply setReg_keeps
    | with_reducible apply next_keeps
    | with_reducible apply OutKeeps.ite
    | with_reducible apply Keeps.ite
    | (intro _ _ _)
    | (intro _ _)

theorem execRimLockDeclare_keeps {z s : State} (n : Nat) (code : Nat) (band : Nat) (hz : Keeps z s) : OutKeeps z (execRimLockDeclare n code band s) := by
  unfold execRimLockDeclare
  try dsimp only
  repeat' first
    | with_reducible assumption
    | with_reducible apply noteLock_keeps
    | with_reducible apply settled_keeps
    | with_reducible apply settleRim_keeps
    | with_reducible apply retuneDone_keeps
    | with_reducible apply rimRelocked_keeps
    | with_reducible apply rimReady_keeps
    | with_reducible apply put_keeps
    | with_reducible apply next_keeps
    | with_reducible apply OutKeeps.ite

theorem execRimUnlock_keeps {z s : State} (p : Nat) (hz : Keeps z s) : OutKeeps z (execRimUnlock p s) := by
  unfold execRimUnlock
  try dsimp only
  repeat' first
    | with_reducible assumption
    | with_reducible apply settled_keeps
    | with_reducible apply rimUnlocked_keeps
    | with_reducible apply oldRimUnlocked_keeps
    | with_reducible apply migrationAbandon_keeps
    | with_reducible apply spareLost_keeps
    | with_reducible apply next_keeps
    | with_reducible apply OutKeeps.ite
    | with_reducible apply Keeps.ite
    | (intro _ _ _)
    | (intro _ _)
    | split

theorem execRelockWaitExpire_keeps {z s : State} (n : Nat) (hz : Keeps z s) : OutKeeps z (execRelockWaitExpire n s) := by
  unfold execRelockWaitExpire
  try dsimp only
  repeat' first
    | with_reducible assumption
    | with_reducible apply modRim_keeps
    | with_reducible apply settled_keeps
    | with_reducible apply unlockMigrate_keeps
    | with_reducible apply next_keeps
    | with_reducible apply OutKeeps.ite

theorem execSpareRimLock_keeps {z s : State} (n : Nat) (code : Nat) (band : Nat) (hz : Keeps z s) : OutKeeps z (execSpareRimLock n code band s) := by
  unfold execSpareRimLock
  try dsimp only
  repeat' first
    | with_reducible assumption
    | with_reducible apply next_keeps
    | with_reducible apply lockBand_keeps
    | with_reducible apply modRim_keeps
    | with_reducible apply settled_keeps
    | with_reducible apply finishIfMoved_keeps
    | with_reducible apply showMig_keeps
    | with_reducible apply spareTakesOver_keeps
    | with_reducible apply id_keeps
    | with_reducible apply Keeps.ite
    | with_reducible apply OutKeeps.ite
    | (intro _ _ _)
    | (intro _ _)
    | split

theorem execMigrationWaleMove_keeps {z s : State} (n : Nat) (delta : Int) (hz : Keeps z s) : OutKeeps z (execMigrationWaleMove n delta s) := by
  unfold execMigrationWaleMove
  try dsimp only
  repeat' first
    | with_reducible assumption
    | with_reducible apply next_keeps
    | with_reducible apply eachDo_keeps
    | with_reducible apply shiftStrand_keeps
    | with_reducible apply modRim_keeps
    | with_reducible apply settled_keeps
    | with_reducible apply finishIfMoved_keeps
    | with_reducible apply showMig_keeps
    | with_reducible apply eachDo_keeps
    | with_reducible apply id_keeps
    | with_reducible apply Keeps.ite
    | with_reducible apply OutKeeps.ite
    | (intro _ _ _)
    | (intro _ _)
    | split

theorem execRetuneMaxExpire_keeps {z s : State} (n : Nat) (hz : Keeps z s) : OutKeeps z (execRetuneMaxExpire n s) := by
  unfold execRetuneMaxExpire
  try dsimp only
  repeat' first
    | with_reducible assumption
    | with_reducible apply raise_keeps
    | with_reducible apply endRetuneHop_keeps
    | with_reducible apply modRim_keeps
    | with_reducible apply rimUnlocked_keeps
    | with_reducible apply endRetunePark_keeps
    | with_reducible apply settled_keeps
    | with_reducible apply unlockMigrate_keeps
    | with_reducible apply next_keeps
    | with_reducible apply OutKeeps.ite
    | with_reducible apply Keeps.ite
    | (intro _ _ _)
    | (intro _ _)
    | split

theorem execRimMigrate_keeps {z s : State} (m : Nat) (v : Word) (hz : Keeps z s) : OutKeeps z (execRimMigrate m v s) := by
  unfold execRimMigrate
  try dsimp only
  repeat' first
    | with_reducible assumption
    | with_reducible apply next_keeps
    | with_reducible apply settled_keeps
    | with_reducible apply gateWrite_keeps
    | with_reducible apply keepRsvl_keeps
    | with_reducible apply migrateGo_keeps
    | with_reducible apply id_keeps
    | with_reducible apply Keeps.ite
    | with_reducible apply OutKeeps.ite
    | (intro _ _ _)
    | (intro _ _)

theorem noteSeq_keeps {z s : State} (x : Nat) (m : SyncMsg) (hz : Keeps z s) : Keeps z (noteSeq x m s) := by
  unfold noteSeq
  try dsimp only
  repeat' first
    | with_reducible assumption
    | with_reducible apply addSat_keeps
    | with_reducible apply raise_keeps
    | with_reducible apply setDom_keeps
    | with_reducible apply Keeps.ite
    | split

theorem acceptSync_keeps {z s : State} (x : Nat) (m : SyncMsg) (hz : Keeps z s) : Keeps z (acceptSync x m s) := by
  unfold acceptSync
  extract_lets corr off d tmo near t far d' t' e a b c
  have ht : Keeps z t' := setDom_keeps _ _ (setReg_keeps hz _ _)
  have he : Keeps z e := incSat_keeps _ ht
  have ha : Keeps z a := incMod_keeps _ ht
  have hc : Keeps z c := tryValid_keeps _ (Keeps.ite (put_keeps _ _ ha) ha)
  clear_value t' e c
  exact Keeps.ite (Keeps.ite (domainInvalid_keeps _ he) he)
    (Keeps.ite (setRate_keeps _ _ (hc.of_eq rfl rfl rfl rfl rfl (Nat.le_add_right _ 2))) hc)

theorem forwardSync_keeps {z s : State} (x : Nat) (m : SyncMsg) (hz : Keeps z s) : Keeps z (forwardSync x m s) := by
  unfold forwardSync
  try dsimp only
  repeat' first
    | with_reducible assumption
    | with_reducible apply emit_keeps
    | with_reducible apply Keeps.ite

theorem execSyncReceive_keeps {z s : State} (x : Nat) (m : SyncMsg) (hz : Keeps z s) : OutKeeps z (execSyncReceive x m s) := by
  unfold execSyncReceive
  try dsimp only
  repeat' first
    | with_reducible assumption
    | with_reducible apply next_keeps
    | with_reducible apply done_keeps
    | with_reducible apply incSat_keeps
    | with_reducible apply forwardSync_keeps
    | with_reducible apply noteSeq_keeps
    | with_reducible apply raise_keeps
    | with_reducible apply raiseFault_keeps
    | with_reducible apply acceptSync_keeps
    | with_reducible apply id_keeps
    | with_reducible apply Keeps.ite
    | with_reducible apply OutKeeps.ite

theorem execDelayReqSend_keeps {z s : State} (p : Nat) (seq : Nat) (t1 : Nat) (hz : Keeps z s) : OutKeeps z (execDelayReqSend p seq t1 s) := by
  unfold execDelayReqSend
  try dsimp only
  repeat' first
    | with_reducible assumption
    | with_reducible apply done_keeps
    | with_reducible apply emit_keeps
    | with_reducible apply next_keeps
    | with_reducible apply OutKeeps.ite
    | with_reducible apply Keeps.ite
    | split
    | with_reducible apply Keeps.upd

theorem execDelayReqReceive_keeps {z s : State} (p : Nat) (seq : Nat) (t2 : Nat) (t3 : Nat) (hz : Keeps z s) : OutKeeps z (execDelayReqReceive p seq t2 t3 s) := by
  unfold execDelayReqReceive
  repeat' first
    | with_reducible assumption
    | with_reducible apply done_keeps
    | with_reducible apply emit_keeps
    | with_reducible apply next_keeps
    | with_reducible apply OutKeeps.ite

theorem publishDelay_keeps {z s : State} (p : Nat) (hz : Keeps z s) : Keeps z (publishDelay p s) := by
  unfold publishDelay
  try dsimp only
  repeat' first
    | with_reducible assumption
    | with_reducible apply showCount_keeps
    | with_reducible apply setReg_keeps
    | with_reducible apply raise_keeps
    | with_reducible apply tryValid_keeps
    | with_reducible apply setReg_keeps
    | with_reducible apply Keeps.ite

theorem execDelayRespReceive_keeps {z s : State} (p : Nat) (seq : Nat) (turn : Nat) (t4 : Nat) (hz : Keeps z s) : OutKeeps z (execDelayRespReceive p seq turn t4 s) := by
  unfold execDelayRespReceive
  try dsimp only
  repeat' first
    | with_reducible assumption
    | with_reducible apply done_keeps
    | with_reducible apply publishDelay_keeps
    | with_reducible apply setAvg_keeps
    | with_reducible apply next_keeps
    | with_reducible apply OutKeeps.ite
    | with_reducible apply Keeps.ite
    | (intro _ _ _)
    | (intro _ _)
    | split
    | with_reducible apply Keeps.upd

theorem execDelayRespTimeout_keeps {z s : State} (p : Nat) (seq : Nat) (hz : Keeps z s) : OutKeeps z (execDelayRespTimeout p seq s) := by
  unfold execDelayRespTimeout
  try dsimp only
  repeat' first
    | with_reducible assumption
    | with_reducible apply done_keeps
    | with_reducible apply next_keeps
    | (intro _ _ _)
    | (intro _ _)
    | with_reducible apply Keeps.upd

theorem execDomainTimeout_keeps {z s : State} (x : Nat) (hz : Keeps z s) : OutKeeps z (execDomainTimeout x s) := by
  unfold execDomainTimeout
  repeat' first
    | with_reducible assumption
    | with_reducible apply done_keeps
    | with_reducible apply domainInvalid_keeps
    | with_reducible apply next_keeps
    | with_reducible apply OutKeeps.ite

theorem execTallyTrackEnter_keeps {z s : State}  (hz : Keeps z s) : OutKeeps z (execTallyTrackEnter s) := by
  unfold execTallyTrackEnter
  repeat' first
    | with_reducible assumption
    | with_reducible apply done_keeps
    | with_reducible apply put_keeps
    | with_reducible apply raise_keeps
    | with_reducible apply next_keeps
    | with_reducible apply OutKeeps.ite

theorem execTallySlewDone_keeps {z s : State} (hz : Keeps z s) : OutKeeps z (execTallySlewDone s) := by
  unfold execTallySlewDone
  try dsimp only
  repeat' first
    | with_reducible assumption
    | with_reducible apply next_keeps
    | with_reducible apply done_keeps
    | with_reducible apply setRate_keeps
    | with_reducible apply lower_keeps
    | with_reducible apply id_keeps
    | with_reducible apply Keeps.ite
    | with_reducible apply OutKeeps.ite

theorem execDomainRevert_keeps {z s : State}  (hz : Keeps z s) : OutKeeps z (execDomainRevert s) := by
  unfold execDomainRevert
  try dsimp only
  repeat' first
    | with_reducible assumption
    | with_reducible apply done_keeps
    | with_reducible apply domainSwitch_keeps
    | with_reducible apply next_keeps
    | with_reducible apply OutKeeps.ite
    | with_reducible apply Keeps.ite
    | split

theorem execBeatMarkerSend_keeps {z s : State} (h : Nat) (stamp : Nat) (hz : Keeps z s) : OutKeeps z (execBeatMarkerSend h stamp s) := by
  unfold execBeatMarkerSend
  try dsimp only
  repeat' first
    | with_reducible assumption
    | with_reducible apply done_keeps
    | with_reducible apply emit_keeps
    | with_reducible apply next_keeps
    | with_reducible apply OutKeeps.ite
    | with_reducible apply Keeps.ite
    | (intro _ _ _)
    | (intro _ _)
    | split
    | with_reducible apply Keeps.upd

theorem execTalStep_keeps {z s : State} (m : Nat) (hz : Keeps z s) : OutKeeps z (execTalStep m s) := by
  unfold execTalStep
  try dsimp only
  repeat' first
    | with_reducible assumption
    | with_reducible apply done_keeps
    | with_reducible apply gateWrite_keeps
    | with_reducible apply enterAcquire_keeps
    | with_reducible apply tallyStep_keeps
    | with_reducible apply raise_keeps
    | with_reducible apply next_keeps
    | (intro _ _ _)
    | (intro _ _)
    | split

theorem execTalSlew_keeps {z s : State} (m : Nat) (hz : Keeps z s) : OutKeeps z (execTalSlew m s) := by
  unfold execTalSlew
  try dsimp only
  repeat' first
    | with_reducible assumption
    | with_reducible apply next_keeps
    | with_reducible apply done_keeps
    | with_reducible apply gateWrite_keeps
    | with_reducible apply beginSlew_keeps
    | with_reducible apply enterAcquire_keeps
    | with_reducible apply raise_keeps
    | with_reducible apply id_keeps
    | with_reducible apply Keeps.ite
    | with_reducible apply OutKeeps.ite
    | (intro _ _ _)
    | (intro _ _)
    | split

theorem execTalSwitchNow_keeps {z s : State} (m : Nat) (hz : Keeps z s) : OutKeeps z (execTalSwitchNow m s) := by
  unfold execTalSwitchNow
  try dsimp only
  repeat' first
    | with_reducible assumption
    | with_reducible apply done_keeps
    | with_reducible apply gateWrite_keeps
    | with_reducible apply domainSwitch_keeps
    | with_reducible apply next_keeps
    | with_reducible apply OutKeeps.ite
    | with_reducible apply Keeps.ite
    | (intro _ _ _)
    | (intro _ _)
    | split

theorem execRestartDlcal_keeps {z s : State} (m : Nat) (hz : Keeps z s) : OutKeeps z (execRestartDlcal m s) := by
  unfold execRestartDlcal
  repeat' first
    | with_reducible assumption
    | with_reducible apply done_keeps
    | with_reducible apply gateWrite_keeps
    | with_reducible apply restartAvg_keeps
    | with_reducible apply next_keeps
    | (intro _ _ _)
    | (intro _ _)

theorem execTalAsymWrite_keeps {z s : State} (m : Nat) (x : Nat) (v : Word) (hz : Keeps z s) : OutKeeps z (execTalAsymWrite m x v s) := by
  unfold execTalAsymWrite
  repeat' first
    | with_reducible assumption
    | with_reducible apply done_keeps
    | with_reducible apply gateWrite_keeps
    | with_reducible apply restartAvg_keeps
    | with_reducible apply setReg_keeps
    | with_reducible apply setReg_keeps
    | with_reducible apply next_keeps
    | with_reducible apply OutKeeps.ite
    | with_reducible apply Keeps.ite
    | (intro _ _ _)
    | (intro _ _)

theorem execTalNow0Read_keeps {z s : State} (m : Nat) (hz : Keeps z s) : OutKeeps z (execTalNow0Read m s) := by
  unfold execTalNow0Read
  try dsimp only
  repeat' first
    | with_reducible assumption
    | with_reducible apply done_keeps
    | with_reducible apply gateRead_keeps
    | with_reducible apply setReg_keeps
    | with_reducible apply setReg_keeps
    | with_reducible apply next_keeps
    | (intro _ _ _)
    | (intro _ _)

end Sys2Proof.Machine
end

