-- ==== Sys2Proof/Laws/KeepsStrands.lean ====
section
/-! SUPPORT. One lemma for each operation that answers a state: it keeps what every command keeps. Here reeds, spokes, calibrations, strands and splices. -/

namespace Sys2Proof.Machine

theorem spokeLevel_keeps {z s : State} (n : Nat) (hz : Keeps z s) : Keeps z (spokeLevel n s) := by
  unfold spokeLevel
  repeat' first
    | with_reducible assumption
    | with_reducible apply raise_keeps
    | with_reducible apply parkSpoke_keeps
    | with_reducible apply unparkSpoke_keeps
    | with_reducible apply Keeps.ite

theorem execSpkCfgWrite_keeps {z s : State} (m : Nat) (n : Nat) (v : Word) (hz : Keeps z s) : OutKeeps z (execSpkCfgWrite m n v s) := by
  unfold execSpkCfgWrite
  try dsimp only
  repeat' first
    | with_reducible assumption
    | with_reducible apply done_keeps
    | with_reducible apply gateWrite_keeps
    | with_reducible apply raise_keeps
    | with_reducible apply storeRw_keeps
    | with_reducible apply unparkSpoke_keeps
    | with_reducible apply putFlag_keeps
    | with_reducible apply spokeLevel_keeps
    | with_reducible apply spokeApply_keeps
    | with_reducible apply next_keeps
    | with_reducible apply OutKeeps.ite
    | with_reducible apply Keeps.ite
    | (intro _ _ _)
    | (intro _ _)

theorem execLowPointApply_keeps {z s : State} (n : Nat) (hz : Keeps z s) : OutKeeps z (execLowPointApply n s) := by
  unfold execLowPointApply
  repeat' first
    | with_reducible assumption
    | with_reducible apply done_keeps
    | with_reducible apply spokeApply_keeps
    | with_reducible apply next_keeps
    | with_reducible apply OutKeeps.ite

theorem spkForce_keeps {z s : State} (m : Nat) (n : Nat) (all : Bool) (f : List Nat → State → State) (hf : ∀ (x0 : List Nat) (t : State), Keeps z t → Keeps z (f x0 t)) (hz : Keeps z s) : Keeps z (spkForce m n all f s) := by
  unfold spkForce
  repeat' first
    | with_reducible assumption
    | with_reducible apply hf
    | with_reducible apply gateWrite_keeps

theorem execSpkForcePark_keeps {z s : State} (m : Nat) (n : Nat) (all : Bool) (hz : Keeps z s) : OutKeeps z (execSpkForcePark m n all s) := by
  unfold execSpkForcePark
  repeat' first
    | with_reducible assumption
    | with_reducible apply done_keeps
    | with_reducible apply spkForce_keeps
    | with_reducible apply parkSpokes_keeps
    | with_reducible apply next_keeps
    | with_reducible apply OutKeeps.ite
    | with_reducible apply Keeps.ite
    | (intro _ _ _)

theorem execSpkForceRelease_keeps {z s : State} (m : Nat) (n : Nat) (all : Bool) (hz : Keeps z s) : OutKeeps z (execSpkForceRelease m n all s) := by
  unfold execSpkForceRelease
  repeat' first
    | with_reducible assumption
    | with_reducible apply done_keeps
    | with_reducible apply spkForce_keeps
    | with_reducible apply unparkSpokes_keeps
    | with_reducible apply next_keeps
    | with_reducible apply OutKeeps.ite
    | with_reducible apply Keeps.ite
    | (intro _ _ _)

theorem execSpokeRelease_keeps {z s : State} (n : Nat) (hz : Keeps z s) : OutKeeps z (execSpokeRelease n s) := by
  unfold execSpokeRelease
  try dsimp only
  repeat' first
    | with_reducible assumption
    | with_reducible apply next_keeps
    | with_reducible apply spokePending_keeps
    | with_reducible apply done_keeps
    | with_reducible apply leaveParked_keeps
    | with_reducible apply id_keeps
    | with_reducible apply Keeps.ite
    | with_reducible apply OutKeeps.ite

theorem execCalTdcStageEnd_keeps {z s : State} (w : Nat) (bins : List Nat) (hz : Keeps z s) : OutKeeps z (execCalTdcStageEnd w bins s) := by
  unfold execCalTdcStageEnd
  try dsimp only
  repeat' first
    | with_reducible assumption
    | with_reducible apply eachDo_keeps
    | with_reducible apply mput_keeps
    | with_reducible apply settled_keeps
    | with_reducible apply beginSweeps_keeps
    | with_reducible apply unitDone_keeps
    | with_reducible apply calReject_keeps
    | with_reducible apply eachDo_keeps
    | with_reducible apply next_keeps
    | with_reducible apply OutKeeps.ite
    | with_reducible apply Keeps.ite
    | (intro _ _ _)
    | (intro _ _)
    | split
    | with_reducible apply Keeps.upd

theorem lfsrRun_keeps {z s : State} (w : Nat) (n : Nat) (hz : Keeps z s) : Keeps z (lfsrRun w n s) := by
  unfold lfsrRun
  try dsimp only
  repeat' first
    | with_reducible assumption
    | with_reducible apply eachDo_keeps
    | with_reducible apply Keeps.foldl
    | with_reducible apply id_keeps
    | with_reducible apply Keeps.ite
    | (intro _ _ _)
    | (intro _ _)
    | split
    | with_reducible apply Keeps.upd

theorem loadCell_keeps {z s : State} (phys : Nat) (k : Nat) (word : Nat) (v : CellValue) (hz : Keeps z s) : Keeps z (loadCell phys k word v s) := by
  unfold loadCell
  try dsimp only
  repeat' first
    | with_reducible assumption
    | with_reducible apply mput_keeps
    | with_reducible apply eachDo_keeps
    | with_reducible apply setCellCal_keeps
    | with_reducible apply cellsChanged_keeps
    | with_reducible apply eachDo_keeps
    | with_reducible apply id_keeps
    | with_reducible apply Keeps.ite
    | (intro _ _ _)
    | (intro _ _)
    | split
    | with_reducible apply Keeps.upd

theorem strandAccept_keeps {z s : State} (u : Nat) (r : CalRun) (hz : Keeps z s) : Keeps z (strandAccept u r s) := by
  unfold strandAccept
  try dsimp only
  repeat' first
    | with_reducible assumption
    | with_reducible apply acceptHeader_keeps
    | with_reducible apply mput_keeps
    | with_reducible apply cellsChanged_keeps
    | with_reducible apply eachDo_keeps
    | with_reducible apply setCellCal_keeps
    | with_reducible apply wearStrand_keeps
    | with_reducible apply raiseW_keeps
    | with_reducible apply eachDo_keeps
    | with_reducible apply id_keeps
    | with_reducible apply Keeps.ite
    | (intro _ _ _)
    | (intro _ _)
    | split

theorem endStrandRun_keeps {z s : State} (u : Nat) (r : CalRun) (hz : Keeps z s) : Keeps z (endStrandRun u r s) := by
  unfold endStrandRun
  try dsimp only
  repeat' first
    | with_reducible assumption
    | with_reducible apply setStale_keeps
    | with_reducible apply unitDone_keeps
    | split

theorem cellSwept_keeps {z s : State} (w : Nat) (r : CalRun) (k : Nat) (v : CellValue) (hz : Keeps z s) : Keeps z (cellSwept w r k v s) := by
  unfold cellSwept
  try dsimp only
  repeat' first
    | with_reducible assumption
    | with_reducible apply setUnit_keeps
    | with_reducible apply calReject_keeps
    | with_reducible apply spliceCalDone_keeps
    | with_reducible apply endStrandRun_keeps
    | with_reducible apply loadCell_keeps
    | with_reducible apply strandAccept_keeps
    | with_reducible apply id_keeps
    | with_reducible apply Keeps.ite
    | (intro _ _ _)
    | (intro _ _)
    | split

theorem execCalCellSweepEnd_keeps {z s : State} (w : Nat) (m : CellSweep) (hz : Keeps z s) : OutKeeps z (execCalCellSweepEnd w m s) := by
  unfold execCalCellSweepEnd
  try dsimp only
  repeat' first
    | with_reducible assumption
    | with_reducible apply next_keeps
    | with_reducible apply settled_keeps
    | with_reducible apply cellSwept_keeps
    | with_reducible apply lfsrRun_keeps
    | with_reducible apply id_keeps
    | with_reducible apply Keeps.ite
    | with_reducible apply OutKeeps.ite
    | (intro _ _ _)
    | (intro _ _)
    | split

theorem execCalCellHandover_keeps {z s : State} (w : Nat) (hz : Keeps z s) : OutKeeps z (execCalCellHandover w s) := by
  unfold execCalCellHandover
  try dsimp only
  repeat' first
    | with_reducible assumption
    | with_reducible apply next_keeps
    | with_reducible apply setUnit_keeps
    | with_reducible apply settled_keeps
    | with_reducible apply cellsChanged_keeps
    | with_reducible apply mput_keeps
    | with_reducible apply endStrandRun_keeps
    | with_reducible apply strandAccept_keeps
    | with_reducible apply id_keeps
    | with_reducible apply Keeps.ite
    | with_reducible apply OutKeeps.ite
    | (intro _ _ _)
    | (intro _ _)
    | split

theorem endReedRun_keeps {z s : State} (u : Nat) (n : Nat) (hz : Keeps z s) : Keeps z (endReedRun u n s) := by
  unfold endReedRun
  repeat' first
    | with_reducible assumption
    | with_reducible apply unitDone_keeps
    | with_reducible apply lower_keeps

theorem loadReed_keeps {z s : State} (q : Nat) (n : Nat) (word : Nat) (off : Int) (x : ReedNl) (hz : Keeps z s) : Keeps z (loadReed q n word off x s) := by
  unfold loadReed
  try dsimp only
  repeat' first
    | with_reducible assumption
    | with_reducible apply acceptHeader_keeps
    | with_reducible apply mput_keeps
    | with_reducible apply eachDo_keeps
    | with_reducible apply raise_keeps
    | with_reducible apply eachDo_keeps
    | with_reducible apply id_keeps
    | with_reducible apply Keeps.ite
    | (intro _ _ _)

theorem densityEnd_keeps {z s : State} (u : Nat) (r : CalRun) (bins : List Nat) (hz : Keeps z s) : Keeps z (densityEnd u r bins s) := by
  unfold densityEnd
  try dsimp only
  repeat' first
    | with_reducible assumption
    | with_reducible apply endReedRun_keeps
    | with_reducible apply calReject_keeps
    | with_reducible apply unitSelect_keeps
    | with_reducible apply calAbandon_keeps
    | with_reducible apply setUnit_keeps
    | with_reducible apply id_keeps
    | with_reducible apply Keeps.ite

theorem crossEnd_keeps {z s : State} (u : Nat) (q : Nat) (r : CalRun) (off : Int) (hz : Keeps z s) : Keeps z (crossEnd u q r off s) := by
  unfold crossEnd
  try dsimp only
  repeat' first
    | with_reducible assumption
    | with_reducible apply endReedRun_keeps
    | with_reducible apply calReject_keeps
    | with_reducible apply loadReed_keeps
    | with_reducible apply id_keeps
    | with_reducible apply Keeps.ite

theorem execCalReedStageEnd_keeps {z s : State} (q : Nat) (bins : List Nat) (east : ReedData) (west : ReedData) (hz : Keeps z s) : OutKeeps z (execCalReedStageEnd q bins east west s) := by
  unfold execCalReedStageEnd
  try dsimp only
  repeat' first
    | with_reducible assumption
    | with_reducible apply next_keeps
    | with_reducible apply settled_keeps
    | with_reducible apply densityEnd_keeps
    | with_reducible apply crossEnd_keeps
    | with_reducible apply id_keeps
    | with_reducible apply Keeps.ite
    | with_reducible apply OutKeeps.ite
    | (intro _ _ _)
    | (intro _ _)
    | split

theorem execCalRimSweepEnd_keeps {z s : State} (bands : List (Nat × Nat)) (hz : Keeps z s) : OutKeeps z (execCalRimSweepEnd bands s) := by
  unfold execCalRimSweepEnd
  try dsimp only
  repeat' first
    | with_reducible assumption
    | with_reducible apply settled_keeps
    | with_reducible apply unitDone_keeps
    | with_reducible apply calReject_keeps
    | with_reducible apply eachDo_keeps
    | with_reducible apply putBand_keeps
    | with_reducible apply acceptHeader_keeps
    | with_reducible apply eachDo_keeps
    | with_reducible apply next_keeps
    | with_reducible apply OptKeeps.getD
    | with_reducible apply OptKeeps.ite
    | with_reducible apply none_keeps
    | with_reducible apply OutKeeps.ite
    | with_reducible apply Keeps.ite
    | (intro _ _ _)
    | (intro _ _)
    | split

theorem execCalRimMarginEnd_keeps {z s : State} (code : Nat) (peak : Nat) (hz : Keeps z s) : OutKeeps z (execCalRimMarginEnd code peak s) := by
  unfold execCalRimMarginEnd
  try dsimp only
  repeat' first
    | with_reducible assumption
    | with_reducible apply acceptHeader_keeps
    | with_reducible apply mput_keeps
    | with_reducible apply settled_keeps
    | with_reducible apply unitDone_keeps
    | with_reducible apply next_keeps
    | with_reducible apply OutKeeps.ite
    | with_reducible apply Keeps.ite
    | split

theorem putTaps_keeps {z s : State} (p : Nat) (l : List Int) (hz : Keeps z s) : Keeps z (putTaps p l s) := by
  unfold putTaps
  try dsimp only
  repeat' first
    | with_reducible assumption
    | with_reducible apply mput_keeps
    | with_reducible apply eachDo_keeps
    | with_reducible apply eachDo_keeps
    | (intro _ _ _)

theorem setTaps_keeps {z s : State} (p : Nat) (l : List Int) (hz : Keeps z s) : Keeps z (setTaps p l s) := by
  unfold setTaps
  try dsimp only
  repeat' first
    | with_reducible assumption
    | with_reducible apply setLane_keeps

theorem laneWear_keeps {z s : State} (u : Nat) (p : Nat) (w : Nat) (h : Nat) (hz : Keeps z s) : Keeps z (laneWear u p w h s) := by
  unfold laneWear
  try dsimp only
  repeat' first
    | with_reducible assumption
    | with_reducible apply mput_keeps
    | with_reducible apply raiseW_keeps
    | with_reducible apply id_keeps
    | with_reducible apply Keeps.ite

theorem laneAccept_keeps {z s : State} (u : Nat) (p : Nat) (w : Nat) (h : Nat) (taps : List Int) (hz : Keeps z s) : Keeps z (laneAccept u p w h taps s) := by
  unfold laneAccept
  try dsimp only
  repeat' first
    | with_reducible assumption
    | with_reducible apply putTaps_keeps
    | with_reducible apply acceptHeader_keeps
    | with_reducible apply mput_keeps
    | with_reducible apply laneWear_keeps
    | with_reducible apply id_keeps
    | with_reducible apply Keeps.ite

theorem eyeAfterEnd_keeps {z s : State} (u : Nat) (p : Nat) (r : CalRun) (w : Nat) (h : Nat) (hz : Keeps z s) : Keeps z (eyeAfterEnd u p r w h s) := by
  unfold eyeAfterEnd
  try dsimp only
  repeat' first
    | with_reducible assumption
    | with_reducible apply unitDone_keeps
    | with_reducible apply calReject_keeps
    | with_reducible apply setTaps_keeps
    | with_reducible apply laneAccept_keeps
    | with_reducible apply id_keeps
    | with_reducible apply Keeps.ite

theorem execCalLaneStepEnd_keeps {z s : State} (p : Nat) (e : EyeScan) (m : List Nat) (hit : Bool) (hz : Keeps z s) : OutKeeps z (execCalLaneStepEnd p e m hit s) := by
  unfold execCalLaneStepEnd
  try dsimp only
  repeat' first
    | with_reducible assumption
    | with_reducible apply next_keeps
    | with_reducible apply setTaps_keeps
    | with_reducible apply setUnit_keeps
    | with_reducible apply mput_keeps
    | with_reducible apply settled_keeps
    | with_reducible apply eyeAfterEnd_keeps
    | with_reducible apply id_keeps
    | with_reducible apply Keeps.ite
    | with_reducible apply OutKeeps.ite
    | (intro _ _ _)
    | (intro _ _)
    | split

theorem execCalPauseTimeout_keeps {z s : State} (u : Nat) (hz : Keeps z s) : OutKeeps z (execCalPauseTimeout u s) := by
  unfold execCalPauseTimeout
  repeat' first
    | with_reducible assumption
    | with_reducible apply settled_keeps
    | with_reducible apply unitSelect_keeps
    | with_reducible apply calAbandon_keeps
    | with_reducible apply next_keeps
    | with_reducible apply OutKeeps.ite

theorem recheckBits_keeps {z s : State} (e : Nat × Nat × Nat × Nat) (hz : Keeps z s) : Keeps z (recheckBits e s).2 := by
  unfold recheckBits
  try dsimp only
  repeat' first
    | with_reducible assumption
    | with_reducible apply mput_keeps

theorem recheckCells_keeps {z s : State} (e : Nat × Nat × Nat × Nat) (bad : Bool) (hz : Keeps z s) : Keeps z (recheckCells e bad s) := by
  unfold recheckCells
  try dsimp only
  repeat' first
    | with_reducible assumption
    | with_reducible apply worseCell_keeps
    | with_reducible apply eachDo_keeps
    | with_reducible apply mput_keeps
    | with_reducible apply eachDo_keeps
    | with_reducible apply id_keeps
    | with_reducible apply Keeps.ite
    | (intro _ _ _)
    | (intro _ _)
    | split

theorem recheckRecord_keeps {z s : State} (e : Nat × Nat × Nat × Nat) (hz : Keeps z s) : Keeps z (recheckRecord e s) := by
  unfold recheckRecord
  try dsimp only
  repeat' first
    | with_reducible assumption
    | with_reducible apply recheckBits_keeps
    | with_reducible apply recheckCells_keeps
    | with_reducible apply mput_keeps
    | with_reducible apply raise_keeps
    | with_reducible apply raiseW_keeps
    | with_reducible apply id_keeps
    | with_reducible apply Keeps.ite
    | (intro _ _ _)
    | (intro _ _)
    | split

theorem execOptimeMinute_keeps {z s : State} (hz : Keeps z s) : OutKeeps z (execOptimeMinute s) := by
  unfold execOptimeMinute
  try dsimp only
  repeat' first
    | with_reducible assumption
    | with_reducible apply next_keeps
    | with_reducible apply incMod_keeps
    | with_reducible apply settled_keeps
    | with_reducible apply eachDo_keeps
    | with_reducible apply recheckRecord_keeps
    | with_reducible apply eachDo_keeps
    | with_reducible apply id_keeps
    | with_reducible apply Keeps.ite
    | with_reducible apply OutKeeps.ite
    | (intro _ _ _)

theorem execCalConditionChange_keeps {z s : State} (i : Nat) (tj : Int) (hz : Keeps z s) : OutKeeps z (execCalConditionChange i tj s) := by
  unfold execCalConditionChange
  try dsimp only
  repeat' first
    | with_reducible assumption
    | with_reducible apply put_keeps
    | with_reducible apply settled_keeps
    | with_reducible apply eachDo_keeps
    | with_reducible apply recheckRecord_keeps
    | with_reducible apply eachDo_keeps
    | with_reducible apply next_keeps
    | with_reducible apply OutKeeps.ite
    | with_reducible apply Keeps.ite
    | (intro _ _ _)

theorem noteVisit_keeps {z s : State} (k : Nat) (l : List Int) (hz : Keeps z s) : Keeps z (noteVisit k l s) := by
  unfold noteVisit
  try dsimp only
  repeat' first
    | with_reducible assumption
    | with_reducible apply put_keeps
    | with_reducible apply putFlag_keeps
    | with_reducible apply incMod_keeps
    | with_reducible apply incSat_keeps
    | with_reducible apply raise_keeps
    | with_reducible apply raiseW_keeps
    | with_reducible apply id_keeps
    | with_reducible apply Keeps.ite

theorem residualFault_keeps {z s : State} (k : Nat) (hz : Keeps z s) : Keeps z (residualFault k s) := by
  unfold residualFault
  try dsimp only
  repeat' first
    | with_reducible assumption
    | with_reducible apply setReason_keeps
    | with_reducible apply parkSpokes_keeps
    | with_reducible apply raiseFault_keeps
    | with_reducible apply raise_keeps
    | with_reducible apply spliceParked_keeps
    | with_reducible apply spliceIfFree_keeps
    | with_reducible apply Keeps.ite

theorem visitPassed_keeps {z s : State} (k : Nat) (hz : Keeps z s) : Keeps z (visitPassed k s) := by
  unfold visitPassed
  try dsimp only
  repeat' first
    | with_reducible assumption
    | with_reducible apply modStrand_keeps
    | with_reducible apply unparkSpokes_keeps
    | with_reducible apply clearCause_keeps
    | with_reducible apply setReason_keeps
    | with_reducible apply rimChecksDone_keeps
    | with_reducible apply settleStrand_keeps
    | with_reducible apply id_keeps
    | with_reducible apply Keeps.ite
    | (intro _ _ _)
    | (intro _ _)
    | split

theorem visitNext_keeps {z s : State} (w : Nat) (pos : Nat) (hz : Keeps z s) : Keeps z (visitNext w pos s) := by
  unfold visitNext
  try dsimp only
  repeat' first
    | with_reducible assumption
    | with_reducible apply put_keeps

theorem visitStrand_keeps {z s : State} (w : Nat) (pos : Nat) (k : Nat) (l : List Int) (hz : Keeps z s) : Keeps z (visitStrand w pos k l s) := by
  unfold visitStrand
  try dsimp only
  repeat' first
    | with_reducible assumption
    | with_reducible apply noteVisit_keeps
    | with_reducible apply visitNext_keeps
    | with_reducible apply visitPassed_keeps
    | with_reducible apply modStrand_keeps
    | with_reducible apply residualFault_keeps
    | with_reducible apply put_keeps
    | with_reducible apply id_keeps
    | with_reducible apply Keeps.ite

theorem visitSpare_keeps {z s : State} (w : Nat) (k : Nat) (l : List Int) (hz : Keeps z s) : Keeps z (visitSpare w k l s) := by
  unfold visitSpare
  try dsimp only
  repeat' first
    | with_reducible assumption
    | with_reducible apply incMod_keeps
    | with_reducible apply visitNext_keeps
    | with_reducible apply raiseW_keeps
    | with_reducible apply raise_keeps
    | with_reducible apply spliceFail_keeps
    | with_reducible apply id_keeps
    | with_reducible apply Keeps.ite

theorem execResidualVisitEnd_keeps {z s : State} (w : Nat) (pos : Nat) (j : Nat) (bins : List Nat) (hz : Keeps z s) : OutKeeps z (execResidualVisitEnd w pos j bins s) := by
  unfold execResidualVisitEnd
  try dsimp only
  repeat' first
    | with_reducible assumption
    | with_reducible apply next_keeps
    | with_reducible apply settled_keeps
    | with_reducible apply visitStrand_keeps
    | with_reducible apply visitSpare_keeps
    | with_reducible apply id_keeps
    | with_reducible apply Keeps.ite
    | with_reducible apply OutKeeps.ite
    | (intro _ _ _)
    | (intro _ _)
    | split

theorem execResidualRetryVisit_keeps {z s : State} (k : Nat) (j : Nat) (bins : List Nat) (hz : Keeps z s) : OutKeeps z (execResidualRetryVisit k j bins s) := by
  unfold execResidualRetryVisit
  try dsimp only
  repeat' first
    | with_reducible assumption
    | with_reducible apply next_keeps
    | with_reducible apply noteVisit_keeps
    | with_reducible apply settled_keeps
    | with_reducible apply settleStrand_keeps
    | with_reducible apply setReason_keeps
    | with_reducible apply visitPassed_keeps
    | with_reducible apply id_keeps
    | with_reducible apply Keeps.ite
    | with_reducible apply OutKeeps.ite

theorem strCmd_keeps {z s : State} (m : Nat) (k : Nat) (f : State → State) (hf : ∀ (t : State), Keeps z t → Keeps z (f t)) (hz : Keeps z s) : Keeps z (strCmd m k f s) := by
  unfold strCmd
  repeat' first
    | with_reducible assumption
    | with_reducible apply hf
    | with_reducible apply gateWrite_keeps
    | with_reducible apply countForeign_keeps
    | with_reducible apply raise_keeps
    | with_reducible apply Keeps.ite
    | (intro _ _ _)
    | (intro _ _)

theorem execSlotClear_keeps {z s : State} (m : Nat) (k : Nat) (j : Nat) (all : Bool) (hz : Keeps z s) : OutKeeps z (execSlotClear m k j all s) := by
  unfold execSlotClear
  try dsimp only
  repeat' first
    | with_reducible assumption
    | with_reducible apply done_keeps
    | with_reducible apply strCmd_keeps
    | with_reducible apply modStrand_keeps
    | with_reducible apply next_keeps
    | with_reducible apply OutKeeps.ite
    | with_reducible apply Keeps.ite
    | (intro _ _ _)
    | (intro _ _)

theorem execRecheck_keeps {z s : State} (m : Nat) (k : Nat) (hz : Keeps z s) : OutKeeps z (execRecheck m k s) := by
  unfold execRecheck
  try dsimp only
  repeat' first
    | with_reducible assumption
    | with_reducible apply done_keeps
    | with_reducible apply strCmd_keeps
    | with_reducible apply put_keeps
    | with_reducible apply next_keeps
    | with_reducible apply OutKeeps.ite
    | with_reducible apply Keeps.ite
    | (intro _ _ _)
    | (intro _ _)

theorem latchStrand_keeps {z s : State} (k : Nat) (hz : Keeps z s) : Keeps z (latchStrand k s) := by
  unfold latchStrand
  try dsimp only
  repeat' first
    | with_reducible assumption
    | with_reducible apply eachDo_keeps
    | with_reducible apply setReg_keeps
    | with_reducible apply eachDo_keeps
    | with_reducible apply setReg_keeps
    | with_reducible apply Keeps.ite
    | (intro _ _ _)

theorem execStrAcc0Read_keeps {z s : State} (m : Nat) (k : Nat) (hz : Keeps z s) : OutKeeps z (execStrAcc0Read m k s) := by
  unfold execStrAcc0Read
  repeat' first
    | with_reducible assumption
    | with_reducible apply done_keeps
    | with_reducible apply gateRead_keeps
    | with_reducible apply latchStrand_keeps
    | with_reducible apply next_keeps
    | with_reducible apply OutKeeps.ite
    | with_reducible apply Keeps.ite
    | (intro _ _ _)
    | (intro _ _)

theorem execWalSpliceGo_keeps {z s : State} (m : Nat) (v : Word) (hz : Keeps z s) : OutKeeps z (execWalSpliceGo m v s) := by
  unfold execWalSpliceGo
  try dsimp only
  repeat' first
    | with_reducible assumption
    | with_reducible apply next_keeps
    | with_reducible apply settled_keeps
    | with_reducible apply gateWrite_keeps
    | with_reducible apply keepRsvl_keeps
    | with_reducible apply raise_keeps
    | with_reducible apply spliceStart_keeps
    | with_reducible apply id_keeps
    | with_reducible apply Keeps.ite
    | with_reducible apply OutKeeps.ite
    | (intro _ _ _)
    | (intro _ _)

theorem execSpliceShadowStart_keeps {z s : State} (w : Nat) (hz : Keeps z s) : OutKeeps z (execSpliceShadowStart w s) := by
  unfold execSpliceShadowStart
  try dsimp only
  repeat' first
    | with_reducible assumption
    | with_reducible apply settled_keeps
    | with_reducible apply setSplice_keeps
    | with_reducible apply next_keeps
    | with_reducible apply OutKeeps.ite
    | with_reducible apply Keeps.ite
    | split

theorem execSpliceAlignEnd_keeps {z s : State} (w : Nat) (pairs : List (Nat × Nat)) (hz : Keeps z s) : OutKeeps z (execSpliceAlignEnd w pairs s) := by
  unfold execSpliceAlignEnd
  try dsimp only
  repeat' first
    | with_reducible assumption
    | with_reducible apply next_keeps
    | with_reducible apply settled_keeps
    | with_reducible apply setSplice_keeps
    | with_reducible apply id_keeps
    | with_reducible apply Keeps.ite
    | with_reducible apply OutKeeps.ite
    | (intro _ _ _)
    | (intro _ _)
    | split

theorem execSpliceVerifyEnd_keeps {z s : State} (w : Nat) (pairs : List (Nat × Nat)) (hz : Keeps z s) : OutKeeps z (execSpliceVerifyEnd w pairs s) := by
  unfold execSpliceVerifyEnd
  try dsimp only
  repeat' first
    | with_reducible assumption
    | with_reducible apply next_keeps
    | with_reducible apply settled_keeps
    | with_reducible apply setSplice_keeps
    | with_reducible apply spliceFail_keeps
    | with_reducible apply id_keeps
    | with_reducible apply Keeps.ite
    | with_reducible apply OutKeeps.ite
    | (intro _ _ _)
    | (intro _ _)
    | split

theorem execSpliceHandover_keeps {z s : State} (w : Nat) (hz : Keeps z s) : OutKeeps z (execSpliceHandover w s) := by
  unfold execSpliceHandover
  try dsimp only
  repeat' first
    | with_reducible assumption
    | with_reducible apply settled_keeps
    | with_reducible apply spliceDone_keeps
    | with_reducible apply shiftStrand_keeps
    | with_reducible apply next_keeps
    | with_reducible apply OutKeeps.ite
    | with_reducible apply Keeps.ite
    | split

theorem reedWrite_keeps {z s : State} (m : Nat) (n : Nat) (k : State → State) (hk : ∀ t, Keeps z t → Keeps z (k t)) (hz : Keeps z s) : Keeps z (reedWrite m n k s) := by
  unfold reedWrite
  try dsimp only
  repeat' first
    | with_reducible assumption
    | with_reducible apply hk
    | with_reducible apply gateWrite_keeps
    | with_reducible apply countForeign_keeps
    | with_reducible apply id_keeps
    | with_reducible apply Keeps.ite
    | (intro _ _ _)
    | (intro _ _)

theorem reedCmd_keeps {z s : State} (m : Nat) (n : Nat) (k : State → State) (hk : ∀ t, Keeps z t → Keeps z (k t)) (hz : Keeps z s) : Keeps z (reedCmd m n k s) := by
  unfold reedCmd
  try dsimp only
  repeat' first
    | with_reducible assumption
    | with_reducible apply hk
    | with_reducible apply reedWrite_keeps
    | with_reducible apply raise_keeps
    | with_reducible apply id_keeps
    | with_reducible apply Keeps.ite
    | (intro _ _ _)
    | (intro _ _)

theorem execReedRun_keeps {z s : State} (m : Nat) (n : Nat) (hz : Keeps z s) : OutKeeps z (execReedRun m n s) := by
  unfold execReedRun
  repeat' first
    | with_reducible assumption
    | with_reducible apply done_keeps
    | with_reducible apply reedCmd_keeps
    | with_reducible apply reedRequest_keeps
    | with_reducible apply next_keeps
    | with_reducible apply OutKeeps.ite
    | with_reducible apply Keeps.ite
    | (intro _ _ _)
    | (intro _ _)

theorem execReedStop_keeps {z s : State} (m : Nat) (n : Nat) (d : ReedData) (hz : Keeps z s) : OutKeeps z (execReedStop m n d s) := by
  unfold execReedStop
  repeat' first
    | with_reducible assumption
    | with_reducible apply done_keeps
    | with_reducible apply reedCmd_keeps
    | with_reducible apply reedFinish_keeps
    | with_reducible apply put_keeps
    | with_reducible apply next_keeps
    | with_reducible apply OutKeeps.ite
    | with_reducible apply Keeps.ite
    | (intro _ _ _)
    | (intro _ _)

theorem execHistClear_keeps {z s : State} (m : Nat) (n : Nat) (hz : Keeps z s) : OutKeeps z (execHistClear m n s) := by
  unfold execHistClear
  repeat' first
    | with_reducible assumption
    | with_reducible apply done_keeps
    | with_reducible apply reedCmd_keeps
    | with_reducible apply clearHist_keeps
    | with_reducible apply raise_keeps
    | with_reducible apply next_keeps
    | with_reducible apply OutKeeps.ite
    | with_reducible apply Keeps.ite
    | (intro _ _ _)
    | (intro _ _)

theorem execReedRunStart_keeps {z s : State} (n : Nat) (hz : Keeps z s) : OutKeeps z (execReedRunStart n s) := by
  unfold execReedRunStart
  repeat' first
    | with_reducible assumption
    | with_reducible apply done_keeps
    | with_reducible apply reedTryStart_keeps
    | with_reducible apply next_keeps
    | with_reducible apply OutKeeps.ite

theorem execReedRunComplete_keeps {z s : State} (n : Nat) (d : ReedData) (hz : Keeps z s) : OutKeeps z (execReedRunComplete n d s) := by
  unfold execReedRunComplete
  try dsimp only
  repeat' first
    | with_reducible assumption
    | with_reducible apply setReedRun_keeps
    | with_reducible apply done_keeps
    | with_reducible apply reedFinish_keeps
    | with_reducible apply next_keeps
    | with_reducible apply OutKeeps.ite

theorem execReedRunMaxExpire_keeps {z s : State} (n : Nat) (d : ReedData) (hz : Keeps z s) : OutKeeps z (execReedRunMaxExpire n d s) := by
  unfold execReedRunMaxExpire
  repeat' first
    | with_reducible assumption
    | with_reducible apply done_keeps
    | with_reducible apply reedFinish_keeps
    | with_reducible apply next_keeps
    | with_reducible apply OutKeeps.ite

theorem execReedResTailWrite_keeps {z s : State} (m : Nat) (n : Nat) (v : Word) (hz : Keeps z s) : OutKeeps z (execReedResTailWrite m n v s) := by
  unfold execReedResTailWrite
  repeat' first
    | with_reducible assumption
    | with_reducible apply done_keeps
    | with_reducible apply gateWrite_keeps
    | with_reducible apply reedFull_keeps
    | with_reducible apply storeRw_keeps
    | with_reducible apply raise_keeps
    | with_reducible apply next_keeps
    | with_reducible apply OutKeeps.ite
    | with_reducible apply Keeps.ite
    | (intro _ _ _)
    | (intro _ _)

theorem execReedCfgWrite_keeps {z s : State} (m : Nat) (n : Nat) (v : Word) (hz : Keeps z s) : OutKeeps z (execReedCfgWrite m n v s) := by
  unfold execReedCfgWrite
  repeat' first
    | with_reducible assumption
    | with_reducible apply done_keeps
    | with_reducible apply gateWrite_keeps
    | with_reducible apply raise_keeps
    | with_reducible apply storeRw_keeps
    | with_reducible apply next_keeps
    | with_reducible apply OutKeeps.ite
    | with_reducible apply Keeps.ite
    | (intro _ _ _)
    | (intro _ _)

end Sys2Proof.Machine
end

