-- ==== Sys2Proof/Laws/KeepsLanes.lean ====
section
/-! SUPPORT. One lemma for each operation that answers a state: it keeps what every command keeps. Here lanes and rings. -/

namespace Sys2Proof.Machine

theorem enterTrain_keeps {z s : State} (p : Nat) (hz : Keeps z s) : Keeps z (enterTrain p s) := by
  unfold enterTrain
  try dsimp only
  repeat' first
    | with_reducible assumption
    | with_reducible apply sendTs_keeps
    | with_reducible apply put_keeps
    | with_reducible apply id_keeps
    | with_reducible apply Keeps.ite
    | (intro _ _ _)
    | (intro _ _)
    | split

theorem hear_keeps {z s : State} (p : Nat) (f : Repeated) (hz : Keeps z s) : Keeps z (hear p f s) := by
  unfold hear
  try dsimp only
  repeat' first
    | with_reducible assumption
    | with_reducible apply setLane_keeps

theorem execLaneDetect_keeps {z s : State} (p : Nat) (id : Nat) (rates : Nat) (hz : Keeps z s) : OutKeeps z (execLaneDetect p id rates s) := by
  unfold execLaneDetect
  try dsimp only
  repeat' first
    | with_reducible assumption
    | with_reducible apply next_keeps
    | with_reducible apply done_keeps
    | with_reducible apply hear_keeps
    | with_reducible apply setLane_keeps
    | with_reducible apply hold_keeps
    | with_reducible apply enterTrain_keeps
    | with_reducible apply id_keeps
    | with_reducible apply Keeps.ite
    | with_reducible apply OutKeeps.ite

theorem execBondWaitExpire_keeps {z s : State} (id : Nat) (hz : Keeps z s) : OutKeeps z (execBondWaitExpire id s) := by
  unfold execBondWaitExpire
  repeat' first
    | with_reducible assumption
    | with_reducible apply done_keeps
    | with_reducible apply eachDo_keeps
    | with_reducible apply enterTrain_keeps
    | with_reducible apply id_keeps
    | with_reducible apply eachDo_keeps
    | with_reducible apply next_keeps
    | (intro _ _ _)

theorem trainTaps_keeps {z s : State} (p : Nat) (hz : Keeps z s) : Keeps z (trainTaps p s) :=
  setLane_keeps _ _ (hz.of_eq rfl rfl rfl rfl rfl (Nat.le_add_right _ 9))

theorem execTrainReady_keeps {z s : State} (p : Nat) (hz : Keeps z s) : OutKeeps z (execTrainReady p s) := by
  unfold execTrainReady
  try dsimp only
  repeat' first
    | with_reducible assumption
    | with_reducible apply next_keeps
    | with_reducible apply trainTaps_keeps
    | with_reducible apply sendTs_keeps
    | with_reducible apply lower_keeps
    | with_reducible apply done_keeps
    | with_reducible apply put_keeps
    | with_reducible apply emit_keeps
    | with_reducible apply id_keeps
    | with_reducible apply Keeps.ite
    | with_reducible apply OutKeeps.ite

theorem execAlignComplete_keeps {z s : State} (p : Nat) (rtt : Nat) (tx : Nat) (rx : Nat) (aseq : Nat) (hz : Keeps z s) : OutKeeps z (execAlignComplete p rtt tx rx aseq s) := by
  unfold execAlignComplete
  try dsimp only
  repeat' first
    | with_reducible assumption
    | with_reducible apply next_keeps
    | with_reducible apply setReg_keeps
    | with_reducible apply done_keeps
    | with_reducible apply put_keeps
    | with_reducible apply emit_keeps
    | with_reducible apply id_keeps
    | with_reducible apply Keeps.ite
    | with_reducible apply OutKeeps.ite

theorem refuseOffer_keeps {z s : State} (ps : List Nat) (h : Option Nat) (why : Nat) (hz : Keeps z s) : Keeps z (refuseOffer ps h why s) := by
  unfold refuseOffer
  try dsimp only
  repeat' first
    | with_reducible assumption
    | with_reducible apply incSat_keeps
    | with_reducible apply eachDo_keeps
    | with_reducible apply enterRetire_keeps
    | with_reducible apply setLane_keeps
    | with_reducible apply hold_keeps
    | with_reducible apply eachDo_keeps
    | (intro _ _ _)
    | (intro _ _)
    | split

theorem retrainAt_keeps {z s : State} (c : Nat) (ps : List Nat) (hz : Keeps z s) : Keeps z (retrainAt c ps s) := by
  unfold retrainAt
  try dsimp only
  repeat' first
    | with_reducible assumption
    | with_reducible apply eachDo_keeps
    | with_reducible apply laneBack_keeps
    | with_reducible apply eachDo_keeps
    | with_reducible apply id_keeps
    | with_reducible apply Keeps.ite
    | (intro _ _ _)

theorem decideWeft_keeps {z s : State} (p : Nat) (ps : List Nat) (hz : Keeps z s) : Keeps z (decideWeft p ps s) := by
  unfold decideWeft
  try dsimp only
  repeat' first
    | with_reducible assumption
    | with_reducible apply refuseOffer_keeps
    | with_reducible apply retrainAt_keeps
    | with_reducible apply eachDo_keeps
    | with_reducible apply setLane_keeps
    | with_reducible apply emit_keeps
    | with_reducible apply enterRetire_keeps
    | with_reducible apply raiseFault_keeps
    | with_reducible apply eachDo_keeps
    | with_reducible apply Keeps.foldl
    | with_reducible apply id_keeps
    | with_reducible apply Keeps.ite
    | (intro _ _ _)
    | (intro _ _)
    | split

theorem tryDecide_keeps {z s : State} (id : Nat) (hz : Keeps z s) : Keeps z (tryDecide id s) := by
  unfold tryDecide
  try dsimp only
  repeat' first
    | with_reducible assumption
    | with_reducible apply decideWeft_keeps
    | with_reducible apply id_keeps
    | with_reducible apply Keeps.ite
    | (intro _ _ _)
    | (intro _ _)
    | split

theorem decideChain_keeps {z s : State} (p : Nat) (d1 : Nat) (hz : Keeps z s) : Keeps z (decideChain p d1 s) := by
  unfold decideChain
  try dsimp only
  repeat' first
    | with_reducible assumption
    | with_reducible apply refuseOffer_keeps
    | with_reducible apply retrainAt_keeps
    | with_reducible apply setLane_keeps
    | with_reducible apply emit_keeps
    | with_reducible apply id_keeps
    | with_reducible apply Keeps.ite
    | (intro _ _ _)
    | (intro _ _)
    | split

theorem execCapReceive_keeps {z s : State} (p : Nat) (d1 : Nat) (d2 : Nat) (hz : Keeps z s) : OutKeeps z (execCapReceive p d1 d2 s) := by
  unfold execCapReceive
  try dsimp only
  repeat' first
    | with_reducible assumption
    | with_reducible apply setLane_keeps
    | with_reducible apply done_keeps
    | with_reducible apply decideChain_keeps
    | with_reducible apply tryDecide_keeps
    | with_reducible apply id_keeps
    | with_reducible apply next_keeps
    | with_reducible apply OutKeeps.ite
    | with_reducible apply Keeps.ite
    | split

theorem execTrainMaxExpire_keeps {z s : State} (p : Nat) (hz : Keeps z s) : OutKeeps z (execTrainMaxExpire p s) := by
  unfold execTrainMaxExpire
  try dsimp only
  repeat' first
    | with_reducible assumption
    | with_reducible apply next_keeps
    | with_reducible apply done_keeps
    | with_reducible apply sendTs_keeps
    | with_reducible apply put_keeps
    | with_reducible apply laneDown_keeps
    | with_reducible apply raise_keeps
    | with_reducible apply incSat_keeps
    | with_reducible apply tryDecide_keeps
    | with_reducible apply id_keeps
    | with_reducible apply Keeps.ite
    | with_reducible apply OutKeeps.ite
    | (intro _ _ _)
    | (intro _ _)
    | split

theorem linkUp_keeps {z s : State} (p : Nat) (window : Nat) (hz : Keeps z s) : Keeps z (linkUp p window s) := by
  unfold linkUp
  try dsimp only
  repeat' first
    | with_reducible assumption
    | with_reducible apply eachDo_keeps
    | with_reducible apply put_keeps
    | with_reducible apply setLink_keeps
    | with_reducible apply sendTs_keeps
    | with_reducible apply restartAvg_keeps
    | with_reducible apply eachDo_keeps
    | with_reducible apply id_keeps
    | with_reducible apply Keeps.ite
    | (intro _ _ _)

theorem showPartner_keeps {z s : State} (h : Nat) (g : Agreement) (d2 : Nat) (hz : Keeps z s) : Keeps z (showPartner h g d2 s) := by
  unfold showPartner
  try dsimp only
  repeat' first
    | with_reducible assumption
    | with_reducible apply put_keeps
    | with_reducible apply putFlag_keeps
    | with_reducible apply setReg_keeps

theorem execAgreedEcho_keeps {z s : State} (p : Nat) (hz : Keeps z s) : OutKeeps z (execAgreedEcho p s) := by
  unfold execAgreedEcho
  try dsimp only
  repeat' first
    | with_reducible assumption
    | with_reducible apply put_keeps
    | with_reducible apply putFlag_keeps
    | with_reducible apply linkUp_keeps
    | with_reducible apply done_keeps
    | with_reducible apply grantCredits_keeps
    | with_reducible apply showPartner_keeps
    | with_reducible apply emit_keeps
    | with_reducible apply next_keeps
    | with_reducible apply OptKeeps.getD
    | with_reducible apply OptKeeps.ite
    | with_reducible apply none_keeps
    | with_reducible apply OutKeeps.ite
    | with_reducible apply Keeps.ite
    | split

theorem execEnumEcho_keeps {z s : State} (p : Nat) (hz : Keeps z s) : OutKeeps z (execEnumEcho p s) := by
  unfold execEnumEcho
  try dsimp only
  repeat' first
    | with_reducible assumption
    | with_reducible apply next_keeps
    | with_reducible apply done_keeps
    | with_reducible apply hear_keeps
    | with_reducible apply linkUp_keeps
    | with_reducible apply raise_keeps
    | with_reducible apply incSat_keeps
    | with_reducible apply grantCredits_keeps
    | with_reducible apply id_keeps
    | with_reducible apply Keeps.ite
    | with_reducible apply OutKeeps.ite
    | (intro _ _ _)
    | (intro _ _)
    | split

theorem execRetReceive_keeps {z s : State} (p : Nat) (w : Nat) (hz : Keeps z s) : OutKeeps z (execRetReceive p w s) := by
  unfold execRetReceive
  try dsimp only
  repeat' first
    | with_reducible assumption
    | with_reducible apply next_keeps
    | with_reducible apply done_keeps
    | with_reducible apply hear_keeps
    | with_reducible apply setLink_keeps
    | with_reducible apply enterRetire_keeps
    | with_reducible apply incSat_keeps
    | with_reducible apply setLane_keeps
    | with_reducible apply hold_keeps
    | with_reducible apply settled_keeps
    | with_reducible apply retireLink_keeps
    | with_reducible apply eachDo_keeps
    | with_reducible apply put_keeps
    | with_reducible apply raise_keeps
    | with_reducible apply eachDo_keeps
    | with_reducible apply id_keeps
    | with_reducible apply Keeps.ite
    | with_reducible apply OutKeeps.ite
    | (intro _ _ _)

theorem execRetireComplete_keeps {z s : State} (p : Nat) (hz : Keeps z s) : OutKeeps z (execRetireComplete p s) := by
  unfold execRetireComplete
  repeat' first
    | with_reducible assumption
    | with_reducible apply settled_keeps
    | with_reducible apply linkDown_keeps
    | with_reducible apply next_keeps
    | with_reducible apply OutKeeps.ite

theorem execRefusalHoldExpire_keeps {z s : State} (ps : List Nat) (hz : Keeps z s) : OutKeeps z (execRefusalHoldExpire ps s) := by
  unfold execRefusalHoldExpire
  try dsimp only
  repeat' first
    | with_reducible assumption
    | with_reducible apply done_keeps
    | with_reducible apply eachDo_keeps
    | with_reducible apply setLane_keeps
    | with_reducible apply hold_keeps
    | with_reducible apply enterTrain_keeps
    | with_reducible apply eachDo_keeps
    | with_reducible apply next_keeps
    | with_reducible apply OutKeeps.ite
    | with_reducible apply Keeps.ite
    | (intro _ _ _)

theorem farClean_keeps {z s : State} (l : Nat) (far : Bool) (hz : Keeps z s) : Keeps z (farClean l far s) := by
  unfold farClean
  try dsimp only
  repeat' first
    | with_reducible assumption
    | with_reducible apply setLink_keeps
    | with_reducible apply Keeps.ite

theorem execAckReceive_keeps {z s : State} (p : Nat) (seq : Nat) (nak : Bool) (far : Bool) (hz : Keeps z s) : OutKeeps z (execAckReceive p seq nak far s) := by
  unfold execAckReceive
  try dsimp only
  repeat' first
    | with_reducible assumption
    | with_reducible apply next_keeps
    | with_reducible apply farClean_keeps
    | with_reducible apply acknowledge_keeps
    | with_reducible apply attempt_keeps
    | with_reducible apply settled_keeps
    | with_reducible apply drain_keeps
    | with_reducible apply closeEpisode_keeps
    | with_reducible apply id_keeps
    | with_reducible apply Keeps.ite
    | with_reducible apply OutKeeps.ite

theorem discard_keeps {z s : State} (l : Nat) (hz : Keeps z s) : Keeps z (discard l s) := by
  unfold discard
  repeat' first
    | with_reducible assumption
    | with_reducible apply sendAck_keeps
    | with_reducible apply openEpisode_keeps

theorem execFrameError_keeps {z s : State} (p : Nat) (e : LineError) (hz : Keeps z s) : OutKeeps z (execFrameError p e s) := by
  unfold execFrameError
  try dsimp only
  repeat' first
    | with_reducible assumption
    | with_reducible apply next_keeps
    | with_reducible apply done_keeps
    | with_reducible apply incSat_keeps
    | with_reducible apply discard_keeps
    | with_reducible apply sendAck_keeps
    | with_reducible apply setLane_keeps
    | with_reducible apply openEpisode_keeps
    | with_reducible apply setLink_keeps
    | with_reducible apply addSat_keeps
    | with_reducible apply settled_keeps
    | with_reducible apply raiseFault_keeps
    | with_reducible apply id_keeps
    | with_reducible apply Keeps.ite
    | with_reducible apply OutKeeps.ite
    | (intro _ _ _)
    | (intro _ _)
    | split

theorem execReplayTimeout_keeps {z s : State} (p : Nat) (sender : Bool) (hz : Keeps z s) : OutKeeps z (execReplayTimeout p sender s) := by
  unfold execReplayTimeout
  try dsimp only
  repeat' first
    | with_reducible assumption
    | with_reducible apply done_keeps
    | with_reducible apply attempt_keeps
    | with_reducible apply sendAck_keeps
    | with_reducible apply setLink_keeps
    | with_reducible apply next_keeps
    | with_reducible apply OutKeeps.ite

theorem execAckSend_keeps {z s : State} (p : Nat) (far : Bool) (hz : Keeps z s) : OutKeeps z (execAckSend p far s) := by
  unfold execAckSend
  try dsimp only
  repeat' first
    | with_reducible assumption
    | with_reducible apply next_keeps
    | with_reducible apply settled_keeps
    | with_reducible apply drain_keeps
    | with_reducible apply closeEpisode_keeps
    | with_reducible apply farClean_keeps
    | with_reducible apply sendAck_keeps
    | with_reducible apply id_keeps
    | with_reducible apply Keeps.ite
    | with_reducible apply OutKeeps.ite

theorem execReplayExhaust_keeps {z s : State} (p : Nat) (hz : Keeps z s) : OutKeeps z (execReplayExhaust p s) := by
  unfold execReplayExhaust
  try dsimp only
  repeat' first
    | with_reducible assumption
    | with_reducible apply incSat_keeps
    | with_reducible apply settled_keeps
    | with_reducible apply linkDown_keeps
    | with_reducible apply raiseFault_keeps
    | with_reducible apply next_keeps
    | with_reducible apply OutKeeps.ite
    | with_reducible apply Keeps.ite

theorem execBlockLockLoss_keeps {z s : State} (p : Nat) (hz : Keeps z s) : OutKeeps z (execBlockLockLoss p s) := by
  unfold execBlockLockLoss
  try dsimp only
  repeat' first
    | with_reducible assumption
    | with_reducible apply warpLost_keeps
    | with_reducible apply openEpisode_keeps
    | with_reducible apply incSat_keeps
    | with_reducible apply settled_keeps
    | with_reducible apply setLink_keeps
    | with_reducible apply setLane_keeps
    | with_reducible apply linkDown_keeps
    | with_reducible apply next_keeps
    | with_reducible apply OutKeeps.ite
    | with_reducible apply Keeps.ite

theorem execChainUpstreamFrame_keeps {z s : State} (q : Nat) (f : UpFrame) (hz : Keeps z s) : OutKeeps z (execChainUpstreamFrame q f s) := by
  unfold execChainUpstreamFrame
  try dsimp only
  repeat' first
    | with_reducible assumption
    | with_reducible apply setLink_keeps
    | with_reducible apply done_keeps
    | with_reducible apply sendFrame_keeps
    | with_reducible apply next_keeps
    | with_reducible apply OutKeeps.ite
    | with_reducible apply Keeps.ite

theorem laneCmd_keeps {z s : State} (m : Nat) (f : State → Option State) (hf : ∀ t u, Keeps z t → f t = some u → Keeps z u) (h : Keeps z s) :
    Keeps z (laneCmd m f s) := by
  refine gateWrite_keeps _ _ _ _ (fun t ht => ?_) h
  rcases e : f t with _ | u
  · exact raise_keeps _ ht
  · exact hf t u ht e

theorem doRetrain_keeps {z s t : State} {p : Nat} (h : Keeps z s) (e : doRetrain p s = some t) : Keeps z t := by
  unfold doRetrain at e
  split at e
  · exact Option.some.inj e ▸ retrainLanes_keeps _ h
  · cases e

theorem doRetire_keeps {z s t : State} {p : Nat} (h : Keeps z s) (e : doRetire p s = some t) : Keeps z t := by
  unfold doRetire at e
  split at e
  · exact Option.some.inj e ▸ retireLink_keeps _ _ _ h
  · cases e

theorem doSubstitute_keeps {z s t : State} {p : Nat} (h : Keeps z s) (e : doSubstitute p s = some t) : Keeps z t := by
  unfold doSubstitute at e
  split at e
  · split at e
    · exact Option.some.inj e ▸ eachDo_keeps (Keeps.ite (linkDown_keeps _ _ (setLane_keeps _ _ h)) (setLane_keeps _ _ h)) fun _ _ hu => linkDown_keeps _ _ hu
    · cases e
  · cases e

theorem execRetrain_keeps {z s : State} (m p : Nat) (h : Keeps z s) : OutKeeps z (execRetrain m p s) :=
  settled_keeps _ (laneCmd_keeps _ _ (fun _ _ ht e => doRetrain_keeps ht e) h)

theorem execLaneRetire_keeps {z s : State} (m p : Nat) (h : Keeps z s) : OutKeeps z (execLaneRetire m p s) :=
  settled_keeps _ (laneCmd_keeps _ _ (fun _ _ ht e => doRetire_keeps ht e) h)

theorem execSubstitute_keeps {z s : State} (m p : Nat) (h : Keeps z s) : OutKeeps z (execSubstitute m p s) :=
  settled_keeps _ (laneCmd_keeps _ _ (fun _ _ ht e => doSubstitute_keeps ht e) h)

theorem setBox_keeps {z s : State} (c : Nat) (x : Mailbox) (hz : Keeps z s) : Keeps z (State.setBox s c x) := by
  unfold State.setBox
  try dsimp only
  repeat' first
    | with_reducible assumption
    | (intro _ _ _)
    | (intro _ _)
    | with_reducible apply Keeps.upd

theorem pctlGo_keeps {z s : State} (c : Nat) (v : Word) (hz : Keeps z s) : Keeps z (pctlGo c v s) := by
  unfold pctlGo
  try dsimp only
  repeat' first
    | with_reducible assumption
    | with_reducible apply raise_keeps
    | with_reducible apply countForeign_keeps
    | with_reducible apply setBox_keeps
    | with_reducible apply sendFrame_keeps
    | with_reducible apply Keeps.ite
    | split
    | with_reducible apply Keeps.upd

theorem execPctlSend_keeps {z s : State} (m : Nat) (v : Word) (hz : Keeps z s) : OutKeeps z (execPctlSend m v s) := by
  unfold execPctlSend
  try dsimp only
  repeat' first
    | with_reducible assumption
    | with_reducible apply next_keeps
    | with_reducible apply done_keeps
    | with_reducible apply gateWrite_keeps
    | with_reducible apply pctlGo_keeps
    | with_reducible apply keepRsvl_keeps
    | with_reducible apply id_keeps
    | with_reducible apply Keeps.ite
    | with_reducible apply OutKeeps.ite
    | (intro _ _ _)
    | (intro _ _)

theorem takeFrame_keeps {z s : State} (h : Nat) (hz : Keeps z s) : Keeps z (takeFrame h s) := by
  unfold takeFrame
  try dsimp only
  repeat' first
    | with_reducible assumption
    | with_reducible apply setLink_keeps

theorem execPctlAckReceive_keeps {z s : State} (h : Nat) (st : Nat) (hz : Keeps z s) : OutKeeps z (execPctlAckReceive h st s) := by
  unfold execPctlAckReceive
  try dsimp only
  repeat' first
    | with_reducible assumption
    | with_reducible apply takeFrame_keeps
    | with_reducible apply done_keeps
    | with_reducible apply setBox_keeps
    | with_reducible apply lower_keeps
    | with_reducible apply raise_keeps
    | with_reducible apply put_keeps
    | with_reducible apply next_keeps
    | with_reducible apply OutKeeps.ite
    | with_reducible apply Keeps.ite
    | (intro _ _ _)
    | (intro _ _)
    | split
    | with_reducible apply Keeps.upd

theorem presentRx_keeps {z s : State} (c : Nat) (hz : Keeps z s) : Keeps z (presentRx c s) := by
  unfold presentRx
  try dsimp only
  repeat' first
    | with_reducible assumption
    | with_reducible apply setReg_keeps
    | with_reducible apply put_keeps
    | with_reducible apply raise_keeps
    | with_reducible apply lower_keeps
    | with_reducible apply setReg_keeps
    | split

theorem execPctlRx_keeps {z s : State} (h : Nat) (d0 : Word) (d1 : Word) (hz : Keeps z s) : OutKeeps z (execPctlRx h d0 d1 s) := by
  unfold execPctlRx
  try dsimp only
  repeat' first
    | with_reducible assumption
    | with_reducible apply takeFrame_keeps
    | with_reducible apply done_keeps
    | with_reducible apply incSat_keeps
    | with_reducible apply presentRx_keeps
    | with_reducible apply setBox_keeps
    | with_reducible apply next_keeps
    | with_reducible apply OptKeeps.getD
    | with_reducible apply OptKeeps.ite
    | with_reducible apply none_keeps
    | with_reducible apply OutKeeps.ite

theorem execPctlTimeout_keeps {z s : State} (c : Nat) (hz : Keeps z s) : OutKeeps z (execPctlTimeout c s) := by
  unfold execPctlTimeout
  try dsimp only
  repeat' first
    | with_reducible assumption
    | with_reducible apply setBox_keeps
    | with_reducible apply raise_keeps
    | with_reducible apply done_keeps
    | with_reducible apply next_keeps
    | with_reducible apply OutKeeps.ite
    | with_reducible apply Keeps.ite
    | (intro _ _ _)
    | (intro _ _)
    | split
    | with_reducible apply Keeps.upd

theorem execPctlBusyEnd_keeps {z s : State} (c : Nat) (hz : Keeps z s) : OutKeeps z (execPctlBusyEnd c s) := by
  unfold execPctlBusyEnd
  try dsimp only
  repeat' first
    | with_reducible assumption
    | with_reducible apply done_keeps
    | with_reducible apply setBox_keeps
    | with_reducible apply lower_keeps
    | with_reducible apply next_keeps
    | with_reducible apply OutKeeps.ite

theorem releaseRx_keeps {z s : State} (c : Nat) (hz : Keeps z s) : Keeps z (releaseRx c s) := by
  unfold releaseRx
  try dsimp only
  repeat' first
    | with_reducible assumption
    | with_reducible apply presentRx_keeps
    | with_reducible apply setBox_keeps

theorem execPctlRxRelease_keeps {z s : State} (m : Nat) (hz : Keeps z s) : OutKeeps z (execPctlRxRelease m s) := by
  unfold execPctlRxRelease
  repeat' first
    | with_reducible assumption
    | with_reducible apply done_keeps
    | with_reducible apply gateWrite_keeps
    | with_reducible apply releaseRx_keeps
    | with_reducible apply next_keeps
    | (intro _ _ _)
    | (intro _ _)

theorem doorbell_keeps {z s : State} (m : Nat) (r : Nat) (i : Nat) (hz : Keeps z s) : Keeps z (doorbell m r i s) := by
  unfold doorbell
  try dsimp only
  repeat' first
    | with_reducible assumption
    | with_reducible apply countForeign_keeps
    | with_reducible apply raise_keeps
    | with_reducible apply incSat_keeps
    | with_reducible apply put_keeps
    | with_reducible apply Keeps.ite
    | (intro _ _ _)
    | (intro _ _)
    | split
    | with_reducible apply Keeps.upd

theorem execRingDoorbell_keeps {z s : State} (m : Nat) (v : Word) (hz : Keeps z s) : OutKeeps z (execRingDoorbell m v s) := by
  unfold execRingDoorbell
  repeat' first
    | with_reducible assumption
    | with_reducible apply done_keeps
    | with_reducible apply gateWrite_keeps
    | with_reducible apply doorbell_keeps
    | with_reducible apply next_keeps
    | (intro _ _ _)
    | (intro _ _)

theorem execCreditSend_keeps {z s : State} (r : Nat) (j : Nat) (hz : Keeps z s) : OutKeeps z (execCreditSend r j s) := by
  unfold execCreditSend
  repeat' first
    | with_reducible assumption
    | with_reducible apply done_keeps
    | with_reducible apply sendOwed_keeps
    | with_reducible apply next_keeps
    | with_reducible apply OutKeeps.ite

theorem countDeg_keeps {z s : State}  (hz : Keeps z s) : Keeps z (countDeg s) := by
  unfold countDeg
  repeat' first
    | with_reducible assumption
    | with_reducible apply put_keeps

theorem withdrawBm_keeps {z s : State}  (hz : Keeps z s) : Keeps z (withdrawBm s) := by
  unfold withdrawBm
  try dsimp only
  repeat' first
    | with_reducible assumption
    | with_reducible apply raise_keeps
    | with_reducible apply eachDo_keeps
    | with_reducible apply raiseFault_keeps
    | with_reducible apply incSat_keeps
    | with_reducible apply eachDo_keeps
    | (intro _ _ _)
    | (intro _ _)
    | with_reducible apply Keeps.upd

theorem withdrawTmd_keeps {z s : State} (b : Nat) (hz : Keeps z s) : Keeps z (withdrawTmd b s) := by
  unfold withdrawTmd
  try dsimp only
  repeat' first
    | with_reducible assumption
    | with_reducible apply raise_keeps
    | with_reducible apply raiseFault_keeps
    | with_reducible apply countDeg_keeps
    | with_reducible apply incSat_keeps
    | with_reducible apply Keeps.upd

theorem withdrawMore_keeps {z : State} (n : Nat) {s : State} (h : Keeps z s) : Keeps z (withdrawMore n s) := by
  induction n generalizing s with
  | zero => exact h
  | succ n ih =>
    unfold withdrawMore
    split
    · exact h
    · split
      · exact ih (withdrawTmd_keeps _ h)
      · exact h

theorem withdrawShort_keeps {z s : State} (hz : Keeps z s) : Keeps z (withdrawShort s) := by
  unfold withdrawShort
  try dsimp only
  repeat' first
    | with_reducible assumption
    | with_reducible apply withdrawMore_keeps
    | with_reducible apply withdrawBm_keeps
    | with_reducible apply id_keeps
    | with_reducible apply Keeps.ite

theorem execCapacityMeasure_keeps {z s : State} (rates : List Nat) (hz : Keeps z s) : OutKeeps z (execCapacityMeasure rates s) := by
  unfold execCapacityMeasure
  try dsimp only
  repeat' first
    | with_reducible assumption
    | with_reducible apply next_keeps
    | with_reducible apply settled_keeps
    | with_reducible apply withdrawShort_keeps
    | with_reducible apply put_keeps
    | with_reducible apply id_keeps
    | with_reducible apply Keeps.ite
    | with_reducible apply OutKeeps.ite
    | (intro _ _ _)
    | (intro _ _)
    | split
    | with_reducible apply Keeps.upd

theorem execReservationRestore_keeps {z s : State}  (hz : Keeps z s) : OutKeeps z (execReservationRestore s) := by
  unfold execReservationRestore
  try dsimp only
  repeat' first
    | with_reducible assumption
    | with_reducible apply raise_keeps
    | with_reducible apply settled_keeps
    | with_reducible apply eachDo_keeps
    | with_reducible apply raiseFault_keeps
    | with_reducible apply lower_keeps
    | with_reducible apply countDeg_keeps
    | with_reducible apply eachDo_keeps
    | with_reducible apply next_keeps
    | with_reducible apply OutKeeps.ite
    | with_reducible apply Keeps.ite
    | (intro _ _ _)
    | (intro _ _)
    | split
    | with_reducible apply Keeps.upd

theorem totalPeak_keeps {z s : State}  (hz : Keeps z s) : Keeps z (totalPeak s) := by
  unfold totalPeak
  repeat' first
    | with_reducible assumption
    | with_reducible apply put_keeps

theorem basketPeak_keeps {z s : State} (b : Nat) (hz : Keeps z s) : Keeps z (basketPeak b s) := by
  unfold basketPeak
  repeat' first
    | with_reducible assumption
    | with_reducible apply put_keeps

theorem execArmPeakWrite_keeps {z s : State} (m : Nat) (b : Option Nat) (hz : Keeps z s) : OutKeeps z (execArmPeakWrite m b s) := by
  unfold execArmPeakWrite
  try dsimp only
  repeat' first
    | with_reducible assumption
    | with_reducible apply done_keeps
    | with_reducible apply gateWrite_keeps
    | with_reducible apply basketPeak_keeps
    | with_reducible apply totalPeak_keeps
    | with_reducible apply next_keeps
    | with_reducible apply OutKeeps.ite
    | with_reducible apply Keeps.ite
    | (intro _ _ _)
    | (intro _ _)
    | split

end Sys2Proof.Machine
end

