-- ==== Sys2Proof/Laws/KeepsPlan.lean ====
section
/-! SUPPORT. One lemma for each operation that answers a state: it keeps what every command keeps. Here the weave plan and the baskets. -/

namespace Sys2Proof.Machine

theorem bindWale_keeps {z s : State} (p : Plan) (w : Nat) (hz : Keeps z s) : Keeps z (bindWale p w s) := by
  unfold bindWale
  try dsimp only
  repeat' first
    | with_reducible assumption
    | with_reducible apply setReg_keeps
    | with_reducible apply put_keeps
    | with_reducible apply raise_keeps
    | with_reducible apply setReg_keeps
    | with_reducible apply Keeps.ite
    | split

theorem showOwners_keeps {z s : State}  (hz : Keeps z s) : Keeps z (showOwners s) := by
  unfold showOwners
  try dsimp only
  repeat' first
    | with_reducible assumption
    | with_reducible apply eachDo_keeps
    | with_reducible apply setReg_keeps
    | with_reducible apply put_keeps
    | with_reducible apply putFlag_keeps
    | with_reducible apply raise_keeps
    | with_reducible apply eachDo_keeps
    | with_reducible apply setReg_keeps
    | (intro _ _ _)
    | (intro _ _)
    | split

theorem releaseStrand_keeps {z s : State} (k : Nat) (hz : Keeps z s) : Keeps z (releaseStrand k s) := by
  unfold releaseStrand
  try dsimp only
  repeat' first
    | with_reducible assumption
    | with_reducible apply eachDo_keeps
    | with_reducible apply lower_keeps
    | with_reducible apply modStrand_keeps
    | with_reducible apply queueRepairMap_keeps
    | with_reducible apply put_keeps
    | with_reducible apply dischargeWear_keeps
    | with_reducible apply eachDo_keeps
    | with_reducible apply Keeps.ite
    | (intro _ _ _)

theorem remapFailed_keeps {z s : State} (k : Nat) (hz : Keeps z s) : Keeps z (remapFailed k s) := by
  unfold remapFailed
  try dsimp only
  repeat' first
    | with_reducible assumption
    | with_reducible apply queueRepairMap_keeps
    | with_reducible apply put_keeps
    | with_reducible apply Keeps.ite

theorem bindStrand_keeps {z s : State} (p : Plan) (k : Nat) (hz : Keeps z s) : Keeps z (bindStrand p k s) := by
  unfold bindStrand
  try dsimp only
  repeat' first
    | with_reducible assumption
    | with_reducible apply remapFailed_keeps
    | with_reducible apply modStrand_keeps
    | with_reducible apply put_keeps
    | with_reducible apply releaseStrand_keeps
    | with_reducible apply Keeps.ite

theorem rebindReasons_keeps {z s : State} (k : Nat) (hz : Keeps z s) : Keeps z (rebindReasons k s) := by
  unfold rebindReasons
  try dsimp only
  repeat' first
    | with_reducible assumption
    | with_reducible apply raise_keeps
    | with_reducible apply putFlag_keeps
    | with_reducible apply refreshCal_keeps
    | with_reducible apply refreshReady_keeps
    | with_reducible apply Keeps.ite

theorem rimOff_keeps {z s : State} (n : Nat) (hz : Keeps z s) : Keeps z (rimOff n s) := by
  unfold rimOff
  try dsimp only
  repeat' first
    | with_reducible assumption
    | with_reducible apply setReg_keeps
    | with_reducible apply put_keeps
    | with_reducible apply dischargeRimWear_keeps
    | with_reducible apply setRim_keeps
    | with_reducible apply setReg_keeps
    | with_reducible apply Keeps.ite

theorem loadRimCtrl_keeps {z s : State} (n : Nat) (r : List Word) (hz : Keeps z s) : Keeps z (loadRimCtrl n r s) := by
  unfold loadRimCtrl
  repeat' first
    | with_reducible assumption
    | with_reducible apply put_keeps

theorem loadRim_keeps {z s : State} (p : Plan) (n : Nat) (hz : Keeps z s) : Keeps z (loadRim p n s) := by
  unfold loadRim
  try dsimp only
  repeat' first
    | with_reducible assumption
    | with_reducible apply rimOff_keeps
    | with_reducible apply loadRimCtrl_keeps
    | with_reducible apply setReg_keeps
    | with_reducible apply put_keeps
    | with_reducible apply setRim_keeps
    | with_reducible apply setReg_keeps
    | with_reducible apply Keeps.ite
    | split

theorem routeCauses_keeps {z s : State} (n : Nat) (hz : Keeps z s) : Keeps z (routeCauses n s) := by
  unfold routeCauses
  try dsimp only
  repeat' first
    | with_reducible assumption
    | with_reducible apply putFlag_keeps

theorem routeSpoke_keeps {z s : State} (p : Plan) (n : Nat) (hz : Keeps z s) : Keeps z (routeSpoke p n s) := by
  unfold routeSpoke
  try dsimp only
  repeat' first
    | with_reducible assumption
    | with_reducible apply setReg_keeps
    | with_reducible apply put_keeps
    | with_reducible apply raise_keeps
    | with_reducible apply setSpoke_keeps
    | with_reducible apply lower_keeps
    | with_reducible apply setReg_keeps
    | split

theorem assignReed_keeps {z s : State} (p : Plan) (n : Nat) (hz : Keeps z s) : Keeps z (assignReed p n s) := by
  unfold assignReed
  try dsimp only
  repeat' first
    | with_reducible assumption
    | with_reducible apply put_keeps
    | with_reducible apply raise_keeps
    | with_reducible apply lower_keeps
    | split

theorem freeRing_keeps {z s : State} (r : Nat) (hz : Keeps z s) : Keeps z (freeRing r s) := by
  unfold freeRing
  try dsimp only
  repeat' first
    | with_reducible assumption
    | with_reducible apply eachDo_keeps
    | with_reducible apply setReg_keeps
    | with_reducible apply eachDo_keeps
    | with_reducible apply setReg_keeps
    | (intro _ _ _)
    | (intro _ _)
    | with_reducible apply Keeps.upd

theorem allocRing_keeps {z s : State} (r : List Word) (hz : Keeps z s) : Keeps z (allocRing r s) := by
  unfold allocRing
  try dsimp only
  repeat' first
    | with_reducible assumption
    | with_reducible apply put_keeps
    | with_reducible apply eachDo_keeps
    | with_reducible apply setReg_keeps
    | with_reducible apply eachDo_keeps
    | with_reducible apply setReg_keeps
    | with_reducible apply Keeps.ite
    | (intro _ _ _)
    | (intro _ _)
    | split
    | with_reducible apply Keeps.upd

theorem loadBasket_keeps {z s : State} (p : Plan) (b : Nat) (hz : Keeps z s) : Keeps z (loadBasket p b s) := by
  unfold loadBasket
  try dsimp only
  repeat' first
    | with_reducible assumption
    | with_reducible apply eachDo_keeps
    | with_reducible apply setReg_keeps
    | with_reducible apply put_keeps
    | with_reducible apply eachDo_keeps
    | with_reducible apply setReg_keeps
    | (intro _ _ _)
    | (intro _ _)
    | split

theorem basketUse_keeps {z s : State} (p : Plan) (b : Nat) (hz : Keeps z s) : Keeps z (basketUse p b s) := by
  unfold basketUse
  repeat' first
    | with_reducible assumption
    | with_reducible apply put_keeps
    | with_reducible apply Keeps.ite

theorem loadFaults_keeps {z s : State} (p : Plan) (hz : Keeps z s) : Keeps z (loadFaults p s) := by
  unfold loadFaults
  try dsimp only
  repeat' first
    | with_reducible assumption
    | (intro _ _ _)
    | (intro _ _)
    | with_reducible apply Keeps.upd

theorem bindHandle_keeps {z s : State} (p : Plan) (h : Nat) (hz : Keeps z s) : Keeps z (bindHandle p h s) := by
  unfold bindHandle
  try dsimp only
  repeat' first
    | with_reducible assumption
    | with_reducible apply setReg_keeps
    | with_reducible apply put_keeps
    | with_reducible apply raise_keeps
    | with_reducible apply setReg_keeps
    | split

theorem loadLane_keeps {z s : State} (p : Plan) (q : Nat) (hz : Keeps z s) : Keeps z (loadLane p q s) := by
  unfold loadLane
  try dsimp only
  repeat' first
    | with_reducible assumption
    | with_reducible apply setReg_keeps
    | with_reducible apply put_keeps
    | with_reducible apply setReg_keeps
    | split

theorem retireHandle_keeps {z s : State} (h : Nat) (hz : Keeps z s) : Keeps z (retireHandle h s) := by
  unfold retireHandle
  try dsimp only
  repeat' first
    | with_reducible assumption
    | with_reducible apply retireLink_keeps
    | with_reducible apply eachDo_keeps
    | with_reducible apply enterRetire_keeps
    | with_reducible apply eachDo_keeps
    | with_reducible apply id_keeps
    | with_reducible apply Keeps.ite
    | (intro _ _ _)

theorem restLane_keeps {z s : State} (q : Nat) (hz : Keeps z s) : Keeps z (restLane q s) := by
  unfold restLane
  try dsimp only
  repeat' first
    | with_reducible assumption
    | with_reducible apply laneRests_keeps
    | with_reducible apply laneDown_keeps
    | with_reducible apply id_keeps
    | with_reducible apply Keeps.ite

theorem loadDevice_keeps {z s : State} (p : Plan) (hz : Keeps z s) : Keeps z (loadDevice p s) := by
  unfold loadDevice
  try dsimp only
  repeat' first
    | with_reducible assumption
    | with_reducible apply put_keeps
    | with_reducible apply setReg_keeps
    | with_reducible apply eachDo_keeps
    | with_reducible apply retrainLanes_keeps
    | with_reducible apply eachDo_keeps
    | with_reducible apply id_keeps
    | with_reducible apply Keeps.ite
    | (intro _ _ _)
    | (intro _ _)
    | split
    | with_reducible apply Keeps.upd

theorem inForce_keeps {z s : State} (p : Plan) (hz : Keeps z s) : Keeps z (inForce p s) := by
  unfold inForce
  try dsimp only
  repeat' first
    | with_reducible assumption
    | with_reducible apply setReg_keeps
    | with_reducible apply raise_keeps
    | with_reducible apply put_keeps
    | with_reducible apply id_keeps
    | with_reducible apply setReg_keeps
    | with_reducible apply Keeps.upd

theorem dropAll_keeps {z s : State} (c : Nat → Fld) (hz : Keeps z s) : Keeps z (dropAll c s) := by
  unfold dropAll
  try dsimp only
  repeat' first
    | with_reducible assumption
    | with_reducible apply abortHops_keeps
    | with_reducible apply parkSpokes_keeps
    | with_reducible apply eachDo_keeps
    | with_reducible apply stopStrand_keeps
    | with_reducible apply modStrand_keeps
    | with_reducible apply freeRing_keeps
    | with_reducible apply spliceAbandon_keeps
    | with_reducible apply calEndWhere_keeps
    | with_reducible apply cutReeds_keeps
    | with_reducible apply eachDo_keeps
    | with_reducible apply Keeps.ite
    | (intro _ _ _)
    | (intro _ _)
    | split
    | with_reducible apply Keeps.upd

theorem loadAll_keeps {z s : State} (p : Plan) (hz : Keeps z s) : Keeps z (loadAll p s) := by
  unfold loadAll
  try dsimp only
  repeat' first
    | with_reducible assumption
    | with_reducible apply eachDo_keeps
    | with_reducible apply loadRim_keeps
    | with_reducible apply basketUse_keeps
    | with_reducible apply loadBasket_keeps
    | with_reducible apply allocRing_keeps
    | with_reducible apply bindWale_keeps
    | with_reducible apply showOwners_keeps
    | with_reducible apply bindStrand_keeps
    | with_reducible apply rebindReasons_keeps
    | with_reducible apply routeCauses_keeps
    | with_reducible apply routeSpoke_keeps
    | with_reducible apply assignReed_keeps
    | with_reducible apply retireHandle_keeps
    | with_reducible apply bindHandle_keeps
    | with_reducible apply loadLane_keeps
    | with_reducible apply restLane_keeps
    | with_reducible apply loadFaults_keeps
    | with_reducible apply loadDevice_keeps
    | with_reducible apply eachDo_keeps
    | with_reducible apply id_keeps
    | with_reducible apply Keeps.ite
    | (intro _ _ _)
    | (intro _ _)
    | split
    | with_reducible apply Keeps.upd

theorem commitFull_keeps {z s : State} (p : Plan) (hz : Keeps z s) : Keeps z (commitFull p s) := by
  unfold commitFull
  try dsimp only
  repeat' first
    | with_reducible assumption
    | with_reducible apply dropAll_keeps
    | with_reducible apply inForce_keeps
    | with_reducible apply countDeg_keeps
    | with_reducible apply lower_keeps
    | with_reducible apply setReg_keeps
    | with_reducible apply loadAll_keeps
    | with_reducible apply setReg_keeps
    | with_reducible apply Keeps.upd

theorem releaseCauses_keeps {z s : State} (b : Nat) (hz : Keeps z s) : Keeps z (releaseCauses b s) := by
  unfold releaseCauses
  try dsimp only
  repeat' first
    | with_reducible assumption
    | with_reducible apply eachDo_keeps
    | with_reducible apply dropCause_keeps
    | with_reducible apply showHeld_keeps
    | with_reducible apply eachDo_keeps
    | with_reducible apply id_keeps
    | with_reducible apply Keeps.ite
    | (intro _ _ _)
    | (intro _ _)
    | split
    | with_reducible apply Keeps.upd

theorem settleWale_keeps {z s : State} (w : Nat) (hz : Keeps z s) : Keeps z (settleWale w s) := by
  unfold settleWale
  try dsimp only
  repeat' first
    | with_reducible assumption
    | with_reducible apply showOwners_keeps
    | with_reducible apply bindWale_keeps
    | with_reducible apply eachDo_keeps
    | with_reducible apply rebindReasons_keeps
    | with_reducible apply raiseFault_keeps
    | with_reducible apply rimOff_keeps
    | with_reducible apply eachDo_keeps
    | with_reducible apply Keeps.ite
    | (intro _ _ _)

theorem fragRim_keeps {z s : State} (n : Nat) (r : List Word) (hz : Keeps z s) : Keeps z (fragRim n r s) := by
  unfold fragRim
  try dsimp only
  repeat' first
    | with_reducible assumption
    | with_reducible apply loadRimCtrl_keeps
    | with_reducible apply retuneTo_keeps
    | with_reducible apply setReg_keeps
    | with_reducible apply put_keeps
    | with_reducible apply setReg_keeps
    | with_reducible apply Keeps.ite

theorem commitPartial_keeps {z s : State} (new : Plan) (f : Plan) (b : Nat) (hz : Keeps z s) : Keeps z (commitPartial new f b s) := by
  unfold commitPartial
  try dsimp only
  repeat' first
    | with_reducible assumption
    | with_reducible apply abortHops_keeps
    | with_reducible apply inForce_keeps
    | with_reducible apply eachDo_keeps
    | with_reducible apply freeRing_keeps
    | with_reducible apply basketUse_keeps
    | with_reducible apply loadBasket_keeps
    | with_reducible apply setReserved_keeps
    | with_reducible apply allocRing_keeps
    | with_reducible apply parkSpokes_keeps
    | with_reducible apply spliceAbandon_keeps
    | with_reducible apply calEndWhere_keeps
    | with_reducible apply bindStrand_keeps
    | with_reducible apply modStrand_keeps
    | with_reducible apply settleWale_keeps
    | with_reducible apply routeCauses_keeps
    | with_reducible apply routeSpoke_keeps
    | with_reducible apply assignReed_keeps
    | with_reducible apply cutReeds_keeps
    | with_reducible apply retireHandle_keeps
    | with_reducible apply bindHandle_keeps
    | with_reducible apply loadLane_keeps
    | with_reducible apply restLane_keeps
    | with_reducible apply fragRim_keeps
    | with_reducible apply loadFaults_keeps
    | with_reducible apply faultN_keeps
    | with_reducible apply releaseCauses_keeps
    | with_reducible apply eachDo_keeps
    | with_reducible apply id_keeps
    | with_reducible apply Keeps.ite
    | (intro _ _ _)
    | (intro _ _)
    | split
    | with_reducible apply Keeps.upd

theorem commitPoint_keeps {z s : State} (hz : Keeps z s) : Keeps z (commitPoint s) := by
  unfold commitPoint
  try dsimp only
  repeat' first
    | with_reducible assumption
    | with_reducible apply withdrawShort_keeps
    | with_reducible apply commitFull_keeps
    | with_reducible apply commitPartial_keeps
    | with_reducible apply id_keeps
    | with_reducible apply Keeps.ite
    | (intro _ _ _)
    | (intro _ _)
    | split

theorem grantShares_keeps {z s : State} (p : Nat → Bool) (hz : Keeps z s) : Keeps z (grantShares p s) := by
  unfold grantShares
  try dsimp only
  repeat' first
    | with_reducible assumption
    | with_reducible apply eachDo_keeps
    | with_reducible apply grantAt_keeps
    | with_reducible apply eachDo_keeps
    | (intro _ _ _)

theorem endApply_keeps {z s : State}  (hz : Keeps z s) : Keeps z (endApply s) := by
  unfold endApply
  try dsimp only
  repeat' first
    | with_reducible assumption
    | with_reducible apply put_keeps
    | with_reducible apply raise_keeps
    | with_reducible apply Keeps.upd

theorem recomputeBaskets_keeps {z s : State}  (hz : Keeps z s) : Keeps z (recomputeBaskets s) := by
  unfold recomputeBaskets
  try dsimp only
  repeat' first
    | with_reducible assumption
    | with_reducible apply eachDo_keeps
    | with_reducible apply logInfo_keeps
    | with_reducible apply put_keeps
    | with_reducible apply setQuiet_keeps
    | with_reducible apply countCauses_keeps
    | with_reducible apply lower_keeps
    | with_reducible apply faultN_keeps
    | with_reducible apply raiseFault_keeps
    | with_reducible apply eachDo_keeps
    | with_reducible apply Keeps.ite
    | (intro _ _ _)
    | (intro _ _)
    | split
    | with_reducible apply Keeps.upd

theorem releaseCause_keeps {z s : State} (m : Nat) (c : Cause) (hz : Keeps z s) : Keeps z (releaseCause m c s) := by
  unfold releaseCause
  try dsimp only
  repeat' first
    | with_reducible assumption
    | with_reducible apply dropCause_keeps
    | with_reducible apply countCauses_keeps
    | with_reducible apply Keeps.ite
    | (intro _ _ _)
    | (intro _ _)
    | split
    | with_reducible apply Keeps.upd

theorem releaseHolds_keeps {z s : State} (m : Nat) (hz : Keeps z s) : Keeps z (releaseHolds m s) := by
  unfold releaseHolds
  try dsimp only
  repeat' first
    | with_reducible assumption
    | with_reducible apply eachDo_keeps
    | with_reducible apply releaseCause_keeps
    | with_reducible apply put_keeps
    | with_reducible apply eachDo_keeps
    | (intro _ _ _)
    | (intro _ _)
    | with_reducible apply Keeps.upd

theorem resetMsixTable_keeps {z s : State} (m : Nat) (h : Keeps z s) : Keeps z (resetMsixTable m s) := h.regsFilter _

theorem dropSnap_keeps {z s : State} (m : Nat) (hz : Keeps z s) : Keeps z (dropSnap m s) := by
  unfold dropSnap
  try dsimp only
  repeat' first
    | with_reducible assumption
    | with_reducible apply hold_keeps
    | with_reducible apply lower_keeps
    | (intro _ _ _)
    | (intro _ _)
    | with_reducible apply Keeps.upd

theorem functionReset_keeps {z s : State} (m : Nat) (hz : Keeps z s) : Keeps z (functionReset m s) := by
  unfold functionReset
  try dsimp only
  repeat' first
    | with_reducible assumption
    | with_reducible apply dropSnap_keeps
    | with_reducible apply dropBuf_keeps
    | with_reducible apply eachDo_keeps
    | with_reducible apply setReg_keeps
    | with_reducible apply releaseHolds_keeps
    | with_reducible apply resetMsixTable_keeps
    | with_reducible apply eachDo_keeps
    | with_reducible apply setReg_keeps
    | (intro _ _ _)
    | (intro _ _)
    | with_reducible apply Keeps.upd

theorem resetRing_keeps {z s : State} (r : Nat) (hz : Keeps z s) : Keeps z (resetRing r s) := by
  unfold resetRing
  try dsimp only
  repeat' first
    | with_reducible assumption
    | with_reducible apply setReg_keeps
    | with_reducible apply setReg_keeps
    | (intro _ _ _)
    | (intro _ _)
    | with_reducible apply Keeps.upd

theorem flrBasket_keeps {z s : State} (b : Nat) (hz : Keeps z s) : Keeps z (flrBasket b s) := by
  unfold flrBasket
  try dsimp only
  repeat' first
    | with_reducible assumption
    | with_reducible apply abortHops_keeps
    | with_reducible apply eachDo_keeps
    | with_reducible apply resetRing_keeps
    | with_reducible apply setReserved_keeps
    | with_reducible apply cutReeds_keeps
    | with_reducible apply calEndWhere_keeps
    | with_reducible apply eachDo_keeps
    | (intro _ _ _)

theorem vfReset_keeps {z s : State} (k : Nat) (hz : Keeps z s) : Keeps z (vfReset k s) := by
  unfold vfReset
  try dsimp only
  repeat' first
    | with_reducible assumption
    | with_reducible apply functionReset_keeps
    | with_reducible apply flrBasket_keeps
    | with_reducible apply Keeps.ite
    | split
    | with_reducible apply Keeps.upd

theorem keeperState_keeps {z s : State} (st : Nat) (hz : Keeps z s) : Keeps z (keeperState st s) := by
  unfold keeperState
  try dsimp only
  repeat' first
    | with_reducible assumption
    | with_reducible apply put_keeps
    | with_reducible apply raise_keeps
    | with_reducible apply Keeps.ite

theorem keeperLost_keeps {z s : State}  (hz : Keeps z s) : Keeps z (keeperLost s) := by
  unfold keeperLost
  try dsimp only
  repeat' first
    | with_reducible assumption
    | with_reducible apply keeperState_keeps
    | with_reducible apply raise_keeps
    | with_reducible apply Keeps.ite
    | split
    | with_reducible apply Keeps.upd

theorem pfReset_keeps {z s : State}  (hz : Keeps z s) : Keeps z (pfReset s) := by
  unfold pfReset
  try dsimp only
  repeat' first
    | with_reducible assumption
    | with_reducible apply eachDo_keeps
    | with_reducible apply functionReset_keeps
    | with_reducible apply lower_keeps
    | with_reducible apply abortHops_keeps
    | with_reducible apply resetRing_keeps
    | with_reducible apply keeperLost_keeps
    | with_reducible apply abortLoad_keeps
    | with_reducible apply eachDo_keeps
    | (intro _ _ _)
    | (intro _ _)
    | split
    | with_reducible apply Keeps.upd

theorem planRej_keeps {z s : State}  (hz : Keeps z s) : Keeps z (planRej s) := by
  unfold planRej
  repeat' first
    | with_reducible assumption
    | with_reducible apply raise_keeps

theorem planCmd_keeps {z s : State} (m : Nat) (f : State → State) (hf : ∀ (t : State), Keeps z t → Keeps z (f t)) (hz : Keeps z s) : Keeps z (planCmd m f s) := by
  unfold planCmd
  repeat' first
    | with_reducible assumption
    | with_reducible apply hf
    | with_reducible apply gateWrite_keeps

theorem planOpen_keeps {z s : State}  (hz : Keeps z s) : Keeps z (planOpen s) := by
  unfold planOpen
  try dsimp only
  repeat' first
    | with_reducible assumption
    | with_reducible apply clearBytes_keeps
    | with_reducible apply put_keeps
    | with_reducible apply planRej_keeps
    | with_reducible apply Keeps.ite
    | split
    | with_reducible apply Keeps.upd

theorem execPlanOpen_keeps {z s : State} (m : Nat) (hz : Keeps z s) : OutKeeps z (execPlanOpen m s) := by
  unfold execPlanOpen
  repeat' first
    | with_reducible assumption
    | with_reducible apply done_keeps
    | with_reducible apply planCmd_keeps
    | with_reducible apply planOpen_keeps

theorem planVerify_keeps {z s : State}  (hz : Keeps z s) : Keeps z (planVerify s) := by
  unfold planVerify
  try dsimp only
  repeat' first
    | with_reducible assumption
    | with_reducible apply put_keeps
    | with_reducible apply putFlag_keeps
    | with_reducible apply planRej_keeps
    | with_reducible apply Keeps.ite
    | (intro _ _ _)
    | (intro _ _)
    | split
    | with_reducible apply Keeps.upd

theorem execPlanVerify_keeps {z s : State} (m : Nat) (hz : Keeps z s) : OutKeeps z (execPlanVerify m s) := by
  unfold execPlanVerify
  repeat' first
    | with_reducible assumption
    | with_reducible apply done_keeps
    | with_reducible apply planCmd_keeps
    | with_reducible apply planVerify_keeps

theorem commitNow_keeps {z s : State}  (hz : Keeps z s) : Keeps z (commitNow s) := by
  unfold commitNow
  repeat' first
    | with_reducible assumption
    | with_reducible apply put_keeps
    | with_reducible apply commitPoint_keeps
    | with_reducible apply Keeps.ite

theorem execPlanCommit_keeps {z s : State} (m : Nat) (hz : Keeps z s) : OutKeeps z (execPlanCommit m s) := by
  unfold execPlanCommit
  repeat' first
    | with_reducible assumption
    | with_reducible apply settled_keeps
    | with_reducible apply planCmd_keeps
    | with_reducible apply commitNow_keeps
    | with_reducible apply planRej_keeps
    | with_reducible apply next_keeps
    | with_reducible apply OutKeeps.ite
    | with_reducible apply Keeps.ite
    | (intro _ _ _)
    | (intro _ _)

theorem execPlanAbort_keeps {z s : State} (m : Nat) (hz : Keeps z s) : OutKeeps z (execPlanAbort m s) := by
  unfold execPlanAbort
  repeat' first
    | with_reducible assumption
    | with_reducible apply settled_keeps
    | with_reducible apply planCmd_keeps
    | with_reducible apply abortLoad_keeps
    | with_reducible apply planRej_keeps
    | with_reducible apply next_keeps
    | with_reducible apply OutKeeps.ite
    | with_reducible apply Keeps.ite
    | (intro _ _ _)
    | (intro _ _)

theorem storeBoot_keeps {z s : State}  (hz : Keeps z s) : Keeps z (storeBoot s) := by
  unfold storeBoot
  try dsimp only
  repeat' first
    | with_reducible assumption
    | with_reducible apply put_keeps
    | with_reducible apply lower_keeps
    | with_reducible apply nvmNext_keeps
    | with_reducible apply planRej_keeps
    | with_reducible apply Keeps.ite
    | split
    | with_reducible apply Keeps.upd

theorem execStoreBoot_keeps {z s : State} (m : Nat) (hz : Keeps z s) : OutKeeps z (execStoreBoot m s) := by
  unfold execStoreBoot
  repeat' first
    | with_reducible assumption
    | with_reducible apply done_keeps
    | with_reducible apply planCmd_keeps
    | with_reducible apply storeBoot_keeps

theorem execSetMinSeq_keeps {z s : State} (m : Nat) (hz : Keeps z s) : OutKeeps z (execSetMinSeq m s) := by
  unfold execSetMinSeq
  try dsimp only
  repeat' first
    | with_reducible assumption
    | with_reducible apply done_keeps
    | with_reducible apply planCmd_keeps
    | with_reducible apply put_keeps
    | with_reducible apply planRej_keeps
    | with_reducible apply next_keeps
    | (intro _ _ _)
    | (intro _ _)
    | split

theorem stagingWrite_keeps {z s : State} (m : Nat) (k : Nat) (v : Word) (hz : Keeps z s) : Keeps z (stagingWrite m k v s) := by
  unfold stagingWrite
  try dsimp only
  repeat' first
    | with_reducible assumption
    | with_reducible apply setMemWord_keeps
    | with_reducible apply put_keeps
    | with_reducible apply raise_keeps
    | with_reducible apply id_keeps
    | with_reducible apply Keeps.ite
    | (intro _ _ _)
    | (intro _ _)
    | split
    | with_reducible apply Keeps.upd

theorem execPlanStagingWrite_keeps {z s : State} (m : Nat) (k : Nat) (v : Word) (hz : Keeps z s) : OutKeeps z (execPlanStagingWrite m k v s) := by
  unfold execPlanStagingWrite
  repeat' first
    | with_reducible assumption
    | with_reducible apply done_keeps
    | with_reducible apply stagingWrite_keeps
    | with_reducible apply next_keeps
    | with_reducible apply OutKeeps.ite

theorem execStageTimeout_keeps {z s : State}  (hz : Keeps z s) : OutKeeps z (execStageTimeout s) := by
  unfold execStageTimeout
  repeat' first
    | with_reducible assumption
    | with_reducible apply settled_keeps
    | with_reducible apply abortLoad_keeps
    | with_reducible apply next_keeps
    | with_reducible apply OutKeeps.ite

theorem bootFail_keeps {z s : State} (code : Nat) (hz : Keeps z s) : Keeps z (bootFail code s) := by
  unfold bootFail
  repeat' first
    | with_reducible assumption
    | with_reducible apply raiseFault_keeps
    | with_reducible apply put_keeps
    | with_reducible apply raise_keeps

theorem planRefused_keeps {z s : State} (e : Bad) (hz : Keeps z s) : Keeps z (planRefused e s) := by
  unfold planRefused
  try dsimp only [State.fresh]
  repeat' first
    | with_reducible assumption
    | with_reducible apply put_keeps
    | with_reducible apply raise_keeps
    | with_reducible apply bootFail_keeps
    | with_reducible apply Keeps.ite
    | split
    | with_reducible apply Keeps.upd
    | with_reducible apply Keeps.updFree

theorem planVerified_keeps {z s : State} (p : Plan) (frag : Option Plan) (hz : Keeps z s) : Keeps z (planVerified p frag s) := by
  unfold planVerified
  try dsimp only
  repeat' first
    | with_reducible assumption
    | with_reducible apply put_keeps
    | with_reducible apply raise_keeps
    | with_reducible apply commitNow_keeps
    | with_reducible apply Keeps.ite
    | split
    | with_reducible apply Keeps.upd

theorem execPlanVerifyDone_keeps {z s : State} (hz : Keeps z s) : OutKeeps z (execPlanVerifyDone s) := by
  unfold execPlanVerifyDone
  try dsimp only
  repeat' first
    | with_reducible assumption
    | with_reducible apply next_keeps
    | with_reducible apply settled_keeps
    | with_reducible apply planRefused_keeps
    | with_reducible apply planVerified_keeps
    | with_reducible apply id_keeps
    | with_reducible apply Keeps.ite
    | with_reducible apply OutKeeps.ite
    | (intro _ _ _)
    | (intro _ _)
    | split

theorem execCommitWaitEnd_keeps {z s : State}  (hz : Keeps z s) : OutKeeps z (execCommitWaitEnd s) := by
  unfold execCommitWaitEnd
  repeat' first
    | with_reducible assumption
    | with_reducible apply settled_keeps
    | with_reducible apply commitPoint_keeps
    | with_reducible apply next_keeps
    | with_reducible apply OutKeeps.ite

theorem execFullReweaveApplied_keeps {z s : State}  (hz : Keeps z s) : OutKeeps z (execFullReweaveApplied s) := by
  unfold execFullReweaveApplied
  try dsimp only
  repeat' first
    | with_reducible assumption
    | with_reducible apply recomputeBaskets_keeps
    | with_reducible apply eachDo_keeps
    | with_reducible apply routeCauses_keeps
    | with_reducible apply grantShares_keeps
    | with_reducible apply setReg_keeps
    | with_reducible apply settled_keeps
    | with_reducible apply endApply_keeps
    | with_reducible apply unparkSpokes_keeps
    | with_reducible apply eachDo_keeps
    | with_reducible apply setReg_keeps
    | with_reducible apply next_keeps
    | with_reducible apply OutKeeps.ite
    | with_reducible apply Keeps.ite
    | (intro _ _ _)

theorem flrDeferred_keeps {z s : State}  (hz : Keeps z s) : Keeps z (flrDeferred s) := by
  unfold flrDeferred
  try dsimp only
  repeat' first
    | with_reducible assumption
    | with_reducible apply eachDo_keeps
    | with_reducible apply flrBasket_keeps
    | with_reducible apply eachDo_keeps
    | (intro _ _ _)
    | (intro _ _)
    | with_reducible apply Keeps.upd

theorem execPartialReweaveApplied_keeps {z s : State}  (hz : Keeps z s) : OutKeeps z (execPartialReweaveApplied s) := by
  unfold execPartialReweaveApplied
  try dsimp only
  repeat' first
    | with_reducible assumption
    | with_reducible apply unparkSpokes_keeps
    | with_reducible apply eachDo_keeps
    | with_reducible apply routeCauses_keeps
    | with_reducible apply grantShares_keeps
    | with_reducible apply settled_keeps
    | with_reducible apply flrDeferred_keeps
    | with_reducible apply endApply_keeps
    | with_reducible apply put_keeps
    | with_reducible apply eachDo_keeps
    | with_reducible apply next_keeps
    | with_reducible apply OutKeeps.ite
    | with_reducible apply Keeps.ite
    | (intro _ _ _)
    | (intro _ _)
    | split

theorem moveBase_keeps {z s t : State} {k : Nat} {delta k0 : Int} (h : Keeps z s) (e : moveBase k delta k0 s = some t) : Keeps z t := by
  obtain ⟨y, -, rfl⟩ := Option.map_eq_some_iff.1 e
  exact setStrand_keeps _ _ (reedsHop_keeps _ h)

theorem execStrandBaseMove_keeps {z s : State} (k n : Nat) (delta k0 : Int) (h : Keeps z s) :
    OutKeeps z (execStrandBaseMove k n delta k0 s) := by
  unfold execStrandBaseMove
  refine OutKeeps.ite ?_ (next_keeps h)
  dsimp only
  have ht : Keeps z (runEdges k n s) := runEdges_keeps _ _ h
  split
  · next u hu =>
    have : Keeps z u := by
      split at hu
      · exact Option.some.inj hu ▸ stopStrand_keeps _ _ ht
      · exact moveBase_keeps ht hu
    refine settled_keeps _ (settleWale_keeps _ (bindStrand_keeps _ _ ?_))
    with_reducible apply Keeps.upd
    with_reducible exact this
  · exact next_keeps h

theorem bootStored_keeps {z s : State}  (hz : Keeps z s) : Keeps z (bootStored s) := by
  unfold bootStored
  try dsimp only
  repeat' first
    | with_reducible assumption
    | with_reducible apply raise_keeps
    | with_reducible apply put_keeps
    | with_reducible apply abortLoad_keeps
    | split

theorem execNvmWriteComplete_keeps {z s : State}  (hz : Keeps z s) : OutKeeps z (execNvmWriteComplete s) := by
  unfold execNvmWriteComplete
  try dsimp only
  repeat' first
    | with_reducible assumption
    | with_reducible apply nvmCommit_keeps
    | with_reducible apply settled_keeps
    | with_reducible apply bootStored_keeps
    | with_reducible apply next_keeps
    | with_reducible apply OutKeeps.ite
    | with_reducible apply Keeps.ite
    | split

theorem bskRej_keeps {z s : State}  (hz : Keeps z s) : Keeps z (bskRej s) := by
  unfold bskRej
  repeat' first
    | with_reducible assumption
    | with_reducible apply raise_keeps

theorem clearFaulted_keeps {z s : State} (b : Nat) (hz : Keeps z s) : Keeps z (clearFaulted b s) := by
  unfold clearFaulted
  try dsimp only
  repeat' first
    | with_reducible assumption
    | with_reducible apply logInfo_keeps
    | with_reducible apply put_keeps
    | with_reducible apply faultN_keeps
    | with_reducible apply startQuiet_keeps
    | with_reducible apply raise_keeps
    | with_reducible apply bskRej_keeps
    | with_reducible apply Keeps.ite

theorem execClearFaulted_keeps {z s : State} (m : Nat) (b : Nat) (hz : Keeps z s) : OutKeeps z (execClearFaulted m b s) := by
  unfold execClearFaulted
  repeat' first
    | with_reducible assumption
    | with_reducible apply settled_keeps
    | with_reducible apply gateWrite_keeps
    | with_reducible apply clearFaulted_keeps
    | with_reducible apply next_keeps
    | with_reducible apply OutKeeps.ite
    | with_reducible apply Keeps.ite
    | (intro _ _ _)
    | (intro _ _)

theorem clearRecov_keeps {z s : State} (b : Nat) (hz : Keeps z s) : Keeps z (clearRecov b s) := by
  unfold clearRecov
  try dsimp only
  repeat' first
    | with_reducible assumption
    | with_reducible apply put_keeps
    | (intro _ _ _)
    | (intro _ _)
    | with_reducible apply Keeps.upd

theorem execClearRecov_keeps {z s : State} (m : Nat) (b : Nat) (hz : Keeps z s) : OutKeeps z (execClearRecov m b s) := by
  unfold execClearRecov
  repeat' first
    | with_reducible assumption
    | with_reducible apply done_keeps
    | with_reducible apply gateWrite_keeps
    | with_reducible apply clearRecov_keeps
    | with_reducible apply next_keeps
    | with_reducible apply OutKeeps.ite
    | with_reducible apply Keeps.ite
    | (intro _ _ _)
    | (intro _ _)

theorem clearViol_keeps {z s : State}  (hz : Keeps z s) : Keeps z (clearViol s) := by
  unfold clearViol
  repeat' first
    | with_reducible assumption
    | with_reducible apply eachDo_keeps
    | with_reducible apply setReg_keeps
    | with_reducible apply eachDo_keeps
    | with_reducible apply setReg_keeps
    | (intro _ _ _)

theorem execClearViol_keeps {z s : State} (m : Nat) (hz : Keeps z s) : OutKeeps z (execClearViol m s) := by
  unfold execClearViol
  repeat' first
    | with_reducible assumption
    | with_reducible apply done_keeps
    | with_reducible apply gateWrite_keeps
    | with_reducible apply clearViol_keeps

theorem keeperCmd_keeps {z s : State} (m : Nat) (f : State → State) (hf : ∀ (t : State), Keeps z t → Keeps z (f t)) (hz : Keeps z s) : Keeps z (keeperCmd m f s) := by
  unfold keeperCmd
  repeat' first
    | with_reducible assumption
    | with_reducible apply hf
    | with_reducible apply gateWrite_keeps

theorem dropNonce_keeps {z s : State}  (hz : Keeps z s) : Keeps z (dropNonce s) := by
  unfold dropNonce
  repeat' first
    | with_reducible assumption
    | with_reducible apply eachDo_keeps
    | with_reducible apply setReg_keeps
    | with_reducible apply lower_keeps
    | with_reducible apply eachDo_keeps
    | with_reducible apply setReg_keeps
    | (intro _ _ _)

theorem challenge_keeps {z s : State}  (hz : Keeps z s) : Keeps z (challenge s) := by
  unfold challenge
  try dsimp only [State.fresh]
  repeat' first
    | with_reducible assumption
    | with_reducible apply bskRej_keeps
    | with_reducible apply eachDo_keeps
    | with_reducible apply setReg_keeps
    | with_reducible apply raise_keeps
    | with_reducible apply eachDo_keeps
    | with_reducible apply setReg_keeps
    | with_reducible apply Keeps.ite
    | (intro _ _ _)
    | (intro _ _)
    | split
    | with_reducible apply Keeps.updFree

theorem execChallenge_keeps {z s : State} (m : Nat) (hz : Keeps z s) : OutKeeps z (execChallenge m s) := by
  unfold execChallenge
  repeat' first
    | with_reducible assumption
    | with_reducible apply done_keeps
    | with_reducible apply keeperCmd_keeps
    | with_reducible apply challenge_keeps

theorem respond_keeps {z s : State} (key : Nat) (hz : Keeps z s) : Keeps z (respond key s) := by
  unfold respond
  try dsimp only
  repeat' first
    | with_reducible assumption
    | with_reducible apply dropNonce_keeps
    | with_reducible apply put_keeps
    | with_reducible apply bskRej_keeps
    | with_reducible apply Keeps.ite
    | split
    | with_reducible apply Keeps.upd

theorem execRespond_keeps {z s : State} (m : Nat) (key : Nat) (hz : Keeps z s) : OutKeeps z (execRespond m key s) := by
  unfold execRespond
  repeat' first
    | with_reducible assumption
    | with_reducible apply done_keeps
    | with_reducible apply keeperCmd_keeps
    | with_reducible apply respond_keeps
    | with_reducible apply next_keeps
    | with_reducible apply OutKeeps.ite
    | with_reducible apply Keeps.ite
    | (intro _ _ _)
    | (intro _ _)

theorem keeperDetach_keeps {z s : State}  (hz : Keeps z s) : Keeps z (keeperDetach s) := by
  unfold keeperDetach
  repeat' first
    | with_reducible assumption
    | with_reducible apply keeperState_keeps
    | with_reducible apply bskRej_keeps
    | with_reducible apply Keeps.ite

theorem execKeeperDetach_keeps {z s : State} (m : Nat) (hz : Keeps z s) : OutKeeps z (execKeeperDetach m s) := by
  unfold execKeeperDetach
  repeat' first
    | with_reducible assumption
    | with_reducible apply done_keeps
    | with_reducible apply keeperCmd_keeps
    | with_reducible apply keeperDetach_keeps

theorem execKeeperVerifyDone_keeps {z s : State} (hz : Keeps z s) : OutKeeps z (execKeeperVerifyDone s) := by
  unfold execKeeperVerifyDone
  try dsimp only
  repeat' first
    | with_reducible assumption
    | with_reducible apply next_keeps
    | with_reducible apply keeperState_keeps
    | with_reducible apply put_keeps
    | with_reducible apply raise_keeps
    | with_reducible apply done_keeps
    | with_reducible apply incSat_keeps
    | with_reducible apply id_keeps
    | with_reducible apply Keeps.ite
    | with_reducible apply OutKeeps.ite
    | (intro _ _ _)
    | (intro _ _)
    | split
    | with_reducible apply Keeps.upd

theorem execKeeperNonceExpire_keeps {z s : State}  (hz : Keeps z s) : OutKeeps z (execKeeperNonceExpire s) := by
  unfold execKeeperNonceExpire
  repeat' first
    | with_reducible assumption
    | with_reducible apply done_keeps
    | with_reducible apply dropNonce_keeps

theorem execChallengeRefusalEnd_keeps {z s : State}  (hz : Keeps z s) : OutKeeps z (execChallengeRefusalEnd s) := by
  unfold execChallengeRefusalEnd
  try dsimp only
  repeat' first
    | with_reducible assumption
    | with_reducible apply done_keeps
    | with_reducible apply next_keeps
    | with_reducible apply Keeps.upd

end Sys2Proof.Machine
end

