-- ==== Sys2Proof/Laws/KeepsPower.lean ====
section
/-! SUPPORT. One lemma for each operation that answers a state: it keeps what every command keeps. Here faults, self-test, power, life cycle and test access. -/

namespace Sys2Proof.Machine

theorem execFaultMessage_keeps {z s : State} (src : Nat) (kind : Nat) (b : Nat) (detail : Nat) (hz : Keeps z s) : OutKeeps z (execFaultMessage src kind b detail s) := by
  unfold execFaultMessage
  try dsimp only
  repeat' first
    | with_reducible assumption
    | with_reducible apply settled_keeps
    | with_reducible apply raiseFault_keeps
    | with_reducible apply next_keeps
    | with_reducible apply OutKeeps.ite
    | with_reducible apply Keeps.ite
    | (intro _ _ _)
    | (intro _ _)
    | split
    | with_reducible apply Keeps.upd

theorem recover_keeps {z s : State} (b : Nat) (hz : Keeps z s) : Keeps z (recover b s) := by
  unfold recover
  try dsimp only
  repeat' first
    | with_reducible assumption
    | with_reducible apply setQuiet_keeps
    | with_reducible apply put_keeps
    | with_reducible apply incSat_keeps
    | with_reducible apply logInfo_keeps
    | with_reducible apply raise_keeps
    | with_reducible apply faultN_keeps
    | with_reducible apply unparkSpokes_keeps
    | (intro _ _ _)
    | (intro _ _)
    | with_reducible apply Keeps.upd

theorem execQuietPeriodEnd_keeps {z s : State} (b : Nat) (hz : Keeps z s) : OutKeeps z (execQuietPeriodEnd b s) := by
  unfold execQuietPeriodEnd
  repeat' first
    | with_reducible assumption
    | with_reducible apply settled_keeps
    | with_reducible apply recover_keeps
    | with_reducible apply next_keeps
    | with_reducible apply OutKeeps.ite

theorem execRecoveryAgeOut_keeps {z s : State} (b : Nat) (hz : Keeps z s) : OutKeeps z (execRecoveryAgeOut b s) := by
  unfold execRecoveryAgeOut
  try dsimp only
  repeat' first
    | with_reducible assumption
    | with_reducible apply done_keeps
    | with_reducible apply put_keeps
    | with_reducible apply next_keeps
    | (intro _ _ _)
    | (intro _ _)
    | with_reducible apply Keeps.upd

theorem forceRej_keeps {z s : State} (m : Nat) (r : Nat) (hz : Keeps z s) : Keeps z (forceRej m r s) := by
  unfold forceRej
  repeat' first
    | with_reducible assumption
    | with_reducible apply raise_keeps
    | with_reducible apply put_keeps

theorem pulse_keeps {z s : State} (src : Nat) (k : FaultKind) (b : Option Nat) (hz : Keeps z s) : Keeps z (pulse src k b s) := by
  unfold pulse
  try dsimp only
  repeat' first
    | with_reducible assumption
    | with_reducible apply raiseB_keeps
    | with_reducible apply dropCause_keeps
    | with_reducible apply raiseFault_keeps
    | with_reducible apply Keeps.ite
    | split

theorem hold_keeps {z s : State} (m : Nat) (src : Nat) (k : FaultKind) (b : Option Nat) (hz : Keeps z s) : Keeps z (hold m src k b s) := by
  unfold hold
  try dsimp only
  repeat' first
    | with_reducible assumption
    | with_reducible apply countCauses_keeps
    | with_reducible apply raiseB_keeps
    | with_reducible apply raiseFault_keeps
    | with_reducible apply Keeps.ite
    | (intro _ _ _)
    | (intro _ _)
    | split
    | with_reducible apply Keeps.upd

theorem forceCmd_keeps {z s : State} (m : Nat) (f : State → State) (hf : ∀ (t : State), Keeps z t → Keeps z (f t)) (hz : Keeps z s) : Keeps z (forceCmd m f s) := by
  unfold forceCmd
  repeat' first
    | with_reducible assumption
    | with_reducible apply hf
    | with_reducible apply gateWrite_keeps

theorem execFaultPulse_keeps {z s : State} (m : Nat) (hz : Keeps z s) : OutKeeps z (execFaultPulse m s) := by
  unfold execFaultPulse
  try dsimp only
  repeat' first
    | with_reducible assumption
    | with_reducible apply settled_keeps
    | with_reducible apply forceCmd_keeps
    | with_reducible apply forceRej_keeps
    | with_reducible apply pulse_keeps
    | with_reducible apply raise_keeps
    | with_reducible apply next_keeps
    | (intro _ _ _)
    | (intro _ _)
    | split

theorem execFaultHold_keeps {z s : State} (m : Nat) (hz : Keeps z s) : OutKeeps z (execFaultHold m s) := by
  unfold execFaultHold
  try dsimp only
  repeat' first
    | with_reducible assumption
    | with_reducible apply settled_keeps
    | with_reducible apply forceCmd_keeps
    | with_reducible apply forceRej_keeps
    | with_reducible apply showHeld_keeps
    | with_reducible apply hold_keeps
    | with_reducible apply raise_keeps
    | with_reducible apply next_keeps
    | with_reducible apply OutKeeps.ite
    | with_reducible apply Keeps.ite
    | (intro _ _ _)
    | (intro _ _)
    | split

theorem release_keeps {z s : State} (m : Nat) (hz : Keeps z s) : Keeps z (release m s) := by
  unfold release
  try dsimp only
  repeat' first
    | with_reducible assumption
    | with_reducible apply forceRej_keeps
    | with_reducible apply showHeld_keeps
    | with_reducible apply raise_keeps
    | with_reducible apply releaseCause_keeps
    | with_reducible apply Keeps.ite
    | (intro _ _ _)
    | (intro _ _)
    | split
    | with_reducible apply Keeps.upd

theorem execFcRelease_keeps {z s : State} (m : Nat) (hz : Keeps z s) : OutKeeps z (execFcRelease m s) := by
  unfold execFcRelease
  repeat' first
    | with_reducible assumption
    | with_reducible apply settled_keeps
    | with_reducible apply forceCmd_keeps
    | with_reducible apply release_keeps
    | with_reducible apply next_keeps
    | (intro _ _ _)
    | (intro _ _)

theorem logTail_keeps {z s : State} (m : Nat) (v : Word) (hz : Keeps z s) : Keeps z (logTail m v s) := by
  unfold logTail
  try dsimp only
  repeat' first
    | with_reducible assumption
    | with_reducible apply logResume_keeps
    | with_reducible apply logLevel_keeps
    | with_reducible apply storeRw_keeps
    | with_reducible apply raise_keeps
    | with_reducible apply Keeps.ite

theorem execFcLogTailWrite_keeps {z s : State} (m : Nat) (v : Word) (hz : Keeps z s) : OutKeeps z (execFcLogTailWrite m v s) := by
  unfold execFcLogTailWrite
  repeat' first
    | with_reducible assumption
    | with_reducible apply done_keeps
    | with_reducible apply gateWrite_keeps
    | with_reducible apply logTail_keeps
    | with_reducible apply next_keeps
    | (intro _ _ _)
    | (intro _ _)

theorem setMapByte_keeps {z s : State} (o : Nat) (x : Nat) (hz : Keeps z s) : Keeps z (setMapByte o x s) := by
  unfold setMapByte
  try dsimp only
  repeat' first
    | with_reducible assumption
    | (intro _ _ _)
    | (intro _ _)
    | with_reducible apply Keeps.upd

theorem setMapHalf_keeps {z s : State} (m : Nat) (j : Nat) (x : Nat) (hz : Keeps z s) : Keeps z (setMapHalf m j x s) := by
  unfold setMapHalf
  repeat' first
    | with_reducible assumption
    | with_reducible apply setMapByte_keeps

theorem takeRow_keeps {z s : State} (m : Nat) (row : Nat) (hz : Keeps z s) : Keeps z (takeRow m row s) := by
  unfold takeRow
  try dsimp only
  repeat' first
    | with_reducible assumption
    | with_reducible apply setMapHalf_keeps
    | split

theorem takeCol_keeps {z s : State} (m : Nat) (col : Nat) (hz : Keeps z s) : Keeps z (takeCol m col s) := by
  unfold takeCol
  try dsimp only
  repeat' first
    | with_reducible assumption
    | with_reducible apply setMapHalf_keeps
    | split

theorem passRows_keeps {z : State} (m : Nat) (l : List Nat) (bs : Bits) {s : State} (h : Keeps z s) : Keeps z (passRows m l bs s).2 := by
  induction l generalizing bs s with
  | nil => exact h
  | cons r rs ih =>
    unfold passRows
    split
    · exact ih _ (takeRow_keeps _ _ h)
    · exact ih _ h

theorem passCols_keeps {z : State} (m : Nat) (l : List Nat) (bs : Bits) {s : State} (h : Keeps z s) : Keeps z (passCols m l bs s).2 := by
  induction l generalizing bs s with
  | nil => exact h
  | cons r rs ih =>
    unfold passCols
    split
    · exact ih _ (takeCol_keeps _ _ h)
    · exact ih _ h

theorem passBits_keeps {z : State} (m : Nat) (l : List Nat) (bs : Bits) {s : State} (h : Keeps z s) : Keeps z (passBits m l bs s).2 := by
  induction l generalizing bs s with
  | nil => exact h
  | cons r rs ih =>
    unfold passBits
    split
    · exact ih _ (takeRow_keeps _ _ h)
    · exact ih _ h

theorem passLast_keeps {z : State} (m : Nat) (l : List Nat) (bs : Bits) {s : State} (h : Keeps z s) : Keeps z (passLast m l bs s).2 := by
  induction l generalizing bs s with
  | nil => exact h
  | cons r rs ih =>
    unfold passLast
    split
    · exact ih _ (takeCol_keeps _ _ h)
    · exact ih _ h

theorem showMacro_keeps {z s : State} (m : Nat) (hz : Keeps z s) : Keeps z (showMacro m s) := by
  unfold showMacro
  try dsimp only
  repeat' first
    | with_reducible assumption
    | with_reducible apply put_keeps
    | with_reducible apply putFlag_keeps

theorem repairMacro_keeps {z s : State} (m : Nat) (bits : Bits) (still : Bool) (h : Keeps z s) : Keeps z (repairMacro m bits still s) := by
  unfold repairMacro
  dsimp only
  repeat' first
    | with_reducible assumption
    | with_reducible apply Keeps.ite
    | with_reducible apply raise_keeps
    | with_reducible apply showMacro_keeps
    | with_reducible apply setMapHalf_keeps
    | with_reducible apply passLast_keeps
    | with_reducible apply passBits_keeps
    | with_reducible apply passCols_keeps
    | with_reducible apply passRows_keeps

theorem memTest_keeps {z s : State} (r : SelfTest) (hz : Keeps z s) : Keeps z (memTest r s) := by
  unfold memTest
  try dsimp only
  repeat' first
    | with_reducible assumption
    | with_reducible apply eachDo_keeps
    | with_reducible apply setMapHalf_keeps
    | with_reducible apply repairMacro_keeps
    | with_reducible apply eachDo_keeps
    | (intro _ _ _)

theorem logicWale_keeps {z s : State} (r : SelfTest) (w : Nat) (hz : Keeps z s) : Keeps z (logicWale r w s) := by
  unfold logicWale
  try dsimp only
  repeat' first
    | with_reducible assumption
    | with_reducible apply eachDo_keeps
    | with_reducible apply raise_keeps
    | with_reducible apply put_keeps
    | with_reducible apply remapFailed_keeps
    | with_reducible apply eachDo_keeps
    | with_reducible apply Keeps.ite
    | (intro _ _ _)

theorem logicGroup_keeps {z s : State} (r : SelfTest) (g : Nat) (hz : Keeps z s) : Keeps z (logicGroup r g s) := by
  unfold logicGroup
  try dsimp only
  repeat' first
    | with_reducible assumption
    | with_reducible apply raise_keeps
    | with_reducible apply putFlag_keeps
    | with_reducible apply put_keeps
    | with_reducible apply Keeps.ite

theorem misrCheck_keeps {z s : State} (start : Bool) (r : SelfTest) (k : Nat) (hz : Keeps z s) : Keeps z (misrCheck start r k s) := by
  unfold misrCheck
  try dsimp only [State.fresh]
  repeat' first
    | with_reducible assumption
    | with_reducible apply putFlag_keeps
    | with_reducible apply raise_keeps
    | with_reducible apply put_keeps
    | with_reducible apply raiseFault_keeps
    | with_reducible apply Keeps.ite
    | split
    | with_reducible apply Keeps.updFree

theorem laneTest_keeps {z s : State} (r : SelfTest) (p : Nat) (hz : Keeps z s) : Keeps z (laneTest r p s) := by
  unfold laneTest
  try dsimp only
  repeat' first
    | with_reducible assumption
    | with_reducible apply putFlag_keeps
    | with_reducible apply put_keeps
    | with_reducible apply raise_keeps
    | with_reducible apply Keeps.ite

theorem showBist_keeps {z s : State}  (hz : Keeps z s) : Keeps z (showBist s) := by
  unfold showBist
  try dsimp only
  repeat' first
    | with_reducible assumption
    | with_reducible apply putFlag_keeps

theorem selfTest_keeps {z s : State} (start : Bool) (r : SelfTest) (hz : Keeps z s) : Keeps z (selfTest start r s) := by
  unfold selfTest
  try dsimp only
  repeat' first
    | with_reducible assumption
    | with_reducible apply eachDo_keeps
    | with_reducible apply logicWale_keeps
    | with_reducible apply logicGroup_keeps
    | with_reducible apply misrCheck_keeps
    | with_reducible apply showBist_keeps
    | with_reducible apply laneTest_keeps
    | with_reducible apply memTest_keeps
    | with_reducible apply setReg_keeps
    | with_reducible apply put_keeps
    | with_reducible apply eachDo_keeps
    | with_reducible apply setReg_keeps
    | with_reducible apply Keeps.ite
    | (intro _ _ _)

theorem loadMap_keeps {z s : State} (l : List Host.Cell) (hz : Keeps z s) : Keeps z (loadMap l s) := by
  unfold loadMap
  try dsimp only
  repeat' first
    | with_reducible assumption
    | with_reducible apply eachDo_keeps
    | with_reducible apply put_keeps
    | with_reducible apply eachDo_keeps
    | with_reducible apply Keeps.ite
    | (intro _ _ _)
    | (intro _ _)
    | split
    | with_reducible apply Keeps.upd

theorem showPool_keeps {z s : State}  (hz : Keeps z s) : Keeps z (showPool s) := by
  unfold showPool
  repeat' first
    | with_reducible assumption
    | with_reducible apply eachDo_keeps
    | with_reducible apply putFlag_keeps
    | with_reducible apply eachDo_keeps
    | (intro _ _ _)

theorem fuseRepairs_keeps {z s : State}  (hz : Keeps z s) : Keeps z (fuseRepairs s) := by
  unfold fuseRepairs
  try dsimp only
  repeat' first
    | with_reducible assumption
    | with_reducible apply eachDo_keeps
    | with_reducible apply setMapHalf_keeps
    | with_reducible apply eachDo_keeps
    | with_reducible apply Keeps.ite
    | (intro _ _ _)

theorem loadMarker_keeps {z s : State} (ws : List Word) (hz : Keeps z s) : Keeps z (loadMarker ws s) := by
  unfold loadMarker
  try dsimp only
  repeat' first
    | with_reducible assumption
    | with_reducible apply eachDo_keeps
    | with_reducible apply setReg_keeps
    | with_reducible apply put_keeps
    | with_reducible apply showBist_keeps
    | with_reducible apply eachDo_keeps
    | with_reducible apply setReg_keeps
    | with_reducible apply Keeps.ite
    | (intro _ _ _)

theorem bistCmd_keeps {z s : State} (m : Nat) (f : State → State) (hf : ∀ (t : State), Keeps z t → Keeps z (f t)) (hz : Keeps z s) : Keeps z (bistCmd m f s) := by
  unfold bistCmd
  repeat' first
    | with_reducible assumption
    | with_reducible apply hf
    | with_reducible apply gateWrite_keeps

theorem execFullNext_keeps {z s : State} (m : Nat) (hz : Keeps z s) : OutKeeps z (execFullNext m s) := by
  unfold execFullNext
  repeat' first
    | with_reducible assumption
    | with_reducible apply done_keeps
    | with_reducible apply bistCmd_keeps
    | with_reducible apply raise_keeps
    | with_reducible apply next_keeps
    | (intro _ _ _)
    | (intro _ _)

theorem execCancelFull_keeps {z s : State} (m : Nat) (hz : Keeps z s) : OutKeeps z (execCancelFull m s) := by
  unfold execCancelFull
  repeat' first
    | with_reducible assumption
    | with_reducible apply done_keeps
    | with_reducible apply bistCmd_keeps
    | with_reducible apply lower_keeps
    | with_reducible apply next_keeps
    | (intro _ _ _)
    | (intro _ _)

theorem queueMap_keeps {z s : State}  (hz : Keeps z s) : Keeps z (queueMap s) := by
  unfold queueMap
  try dsimp only
  repeat' first
    | with_reducible assumption
    | with_reducible apply raise_keeps
    | with_reducible apply Keeps.ite
    | split
    | with_reducible apply Keeps.upd

theorem execStoreMap_keeps {z s : State} (m : Nat) (hz : Keeps z s) : OutKeeps z (execStoreMap m s) := by
  unfold execStoreMap
  repeat' first
    | with_reducible assumption
    | with_reducible apply settled_keeps
    | with_reducible apply bistCmd_keeps
    | with_reducible apply queueMap_keeps

theorem execRepairMapWriteStart_keeps {z s : State}  (hz : Keeps z s) : OutKeeps z (execRepairMapWriteStart s) := by
  unfold execRepairMapWriteStart
  repeat' first
    | with_reducible assumption
    | with_reducible apply settled_keeps
    | with_reducible apply queueMap_keeps
    | with_reducible apply next_keeps
    | with_reducible apply OutKeeps.ite

theorem lcRefresh_keeps {z s : State}  (hz : Keeps z s) : Keeps z (lcRefresh s) := by
  unfold lcRefresh
  try dsimp only
  repeat' first
    | with_reducible assumption
    | with_reducible apply put_keeps
    | with_reducible apply putFlag_keeps

theorem loadIdentity_keeps {z s : State} (hz : Keeps z s) : Keeps z (loadIdentity s) := by
  unfold loadIdentity
  try dsimp only
  repeat' first
    | with_reducible assumption
    | with_reducible apply put_keeps
    | with_reducible apply setReg_keeps
    | with_reducible apply eachDo_keeps
    | with_reducible apply eachDo_keeps
    | with_reducible apply id_keeps
    | with_reducible apply Keeps.ite
    | (intro _ _ _)

theorem eraseFuses_keeps {z s : State}  (hz : Keeps z s) : Keeps z (eraseFuses s) := by
  unfold eraseFuses
  try dsimp only
  repeat' first
    | with_reducible assumption
    | with_reducible apply blow_keeps
    | with_reducible apply eachDo_keeps
    | with_reducible apply eachDo_keeps
    | with_reducible apply blow_keeps
    | with_reducible apply Keeps.ite
    | (intro _ _ _)

theorem erase_keeps {z s : State} (h : Keeps z s) : Keeps z (erase s) := by
  unfold erase
  have ht := lcRefresh_keeps ((put_keeps PLAN_MIN_SEQ_MIN 0 (setSlot_keeps 5 1 {} (setSlot_keeps 5 0 {} (eraseFuses_keeps h)))).memFilter
    fun c => !erasedStore c.1)
  exact Keeps.ite ht (raise_keeps _ (raise_keeps _ ht))

theorem completeErasure_keeps {z s : State}  (hz : Keeps z s) : Keeps z (completeErasure s) := by
  unfold completeErasure
  repeat' first
    | with_reducible assumption
    | with_reducible apply raise_keeps
    | with_reducible apply erase_keeps
    | with_reducible apply Keeps.ite

theorem dropPlan_keeps {z s : State}  (hz : Keeps z s) : Keeps z (dropPlan s) := by
  unfold dropPlan
  try dsimp only
  repeat' first
    | with_reducible assumption
    | with_reducible apply dropAll_keeps
    | with_reducible apply eachDo_keeps
    | with_reducible apply retireLink_keeps
    | with_reducible apply lower_keeps
    | with_reducible apply setReg_keeps
    | with_reducible apply put_keeps
    | with_reducible apply loadAll_keeps
    | with_reducible apply faultN_keeps
    | with_reducible apply releaseCauses_keeps
    | with_reducible apply eachDo_keeps
    | with_reducible apply setReg_keeps
    | with_reducible apply Keeps.ite
    | (intro _ _ _)
    | (intro _ _)
    | split
    | with_reducible apply Keeps.upd

theorem clearArgs_keeps {z s : State}  (hz : Keeps z s) : Keeps z (clearArgs s) := by
  unfold clearArgs
  try dsimp only
  repeat' first
    | with_reducible assumption
    | (intro _ _ _)
    | (intro _ _)
    | with_reducible apply Keeps.upd

theorem lcRefuse_keeps {z s : State} (why : Nat) (hz : Keeps z s) : Keeps z (lcRefuse why s) := by
  unfold lcRefuse
  repeat' first
    | with_reducible assumption
    | with_reducible apply clearArgs_keeps
    | with_reducible apply put_keeps
    | with_reducible apply raise_keeps

theorem dropRetNonce_keeps {z s : State}  (hz : Keeps z s) : Keeps z (dropRetNonce s) := by
  unfold dropRetNonce
  repeat' first
    | with_reducible assumption
    | with_reducible apply eachDo_keeps
    | with_reducible apply setReg_keeps
    | with_reducible apply lower_keeps
    | with_reducible apply eachDo_keeps
    | with_reducible apply setReg_keeps
    | (intro _ _ _)

theorem retNonce_keeps {z s : State}  (hz : Keeps z s) : Keeps z (retNonce s) := by
  unfold retNonce
  try dsimp only [State.fresh]
  repeat' first
    | with_reducible assumption
    | with_reducible apply eachDo_keeps
    | with_reducible apply setReg_keeps
    | with_reducible apply raise_keeps
    | with_reducible apply clearArgs_keeps
    | with_reducible apply eachDo_keeps
    | with_reducible apply setReg_keeps
    | (intro _ _ _)
    | (intro _ _)
    | with_reducible apply Keeps.updFree

theorem lcAccept_keeps {z s : State} (code : Nat) (slot : Nat) (hz : Keeps z s) : Keeps z (lcAccept code slot s) := by
  unfold lcAccept
  try dsimp only
  repeat' first
    | with_reducible assumption
    | with_reducible apply retNonce_keeps
    | with_reducible apply raise_keeps
    | with_reducible apply abortLoad_keeps
    | with_reducible apply Keeps.ite
    | split
    | with_reducible apply Keeps.upd

theorem lcCommand_keeps {z s : State} (code : Nat) (v : Word) (hz : Keeps z s) : Keeps z (lcCommand code v s) := by
  unfold lcCommand
  try dsimp only
  repeat' first
    | with_reducible assumption
    | with_reducible apply lcRefuse_keeps
    | with_reducible apply lcAccept_keeps
    | split

theorem lcWrite_keeps {z s : State} (m : Nat) (code : Nat) (v : Word) (hz : Keeps z s) : OutKeeps z (lcWrite m code v s) := by
  unfold lcWrite
  try dsimp only
  repeat' first
    | with_reducible assumption
    | with_reducible apply next_keeps
    | with_reducible apply settled_keeps
    | with_reducible apply gateWrite_keeps
    | with_reducible apply lcCommand_keeps
    | with_reducible apply keepRsvl_keeps
    | with_reducible apply id_keeps
    | with_reducible apply Keeps.ite
    | with_reducible apply OutKeeps.ite
    | (intro _ _ _)
    | (intro _ _)

theorem execEnterFactory_keeps {z s : State} (m : Nat) (v : Word) (hz : Keeps z s) : OutKeeps z (execEnterFactory m v s) := by
  unfold execEnterFactory
  repeat' first
    | with_reducible assumption
    | with_reducible apply lcWrite_keeps

theorem execProvision_keeps {z s : State} (m : Nat) (v : Word) (hz : Keeps z s) : OutKeeps z (execProvision m v s) := by
  unfold execProvision
  repeat' first
    | with_reducible assumption
    | with_reducible apply lcWrite_keeps

theorem execEnterField_keeps {z s : State} (m : Nat) (v : Word) (hz : Keeps z s) : OutKeeps z (execEnterField m v s) := by
  unfold execEnterField
  repeat' first
    | with_reducible assumption
    | with_reducible apply lcWrite_keeps

theorem execRetNonce_keeps {z s : State} (m : Nat) (v : Word) (hz : Keeps z s) : OutKeeps z (execRetNonce m v s) := by
  unfold execRetNonce
  repeat' first
    | with_reducible assumption
    | with_reducible apply lcWrite_keeps

theorem execLcReturn_keeps {z s : State} (m : Nat) (v : Word) (hz : Keeps z s) : OutKeeps z (execLcReturn m v s) := by
  unfold execLcReturn
  repeat' first
    | with_reducible assumption
    | with_reducible apply lcWrite_keeps

theorem execLcRetire_keeps {z s : State} (m : Nat) (v : Word) (hz : Keeps z s) : OutKeeps z (execLcRetire m v s) := by
  unfold execLcRetire
  repeat' first
    | with_reducible assumption
    | with_reducible apply lcWrite_keeps

theorem execLcRevoke_keeps {z s : State} (m : Nat) (v : Word) (hz : Keeps z s) : OutKeeps z (execLcRevoke m v s) := by
  unfold execLcRevoke
  repeat' first
    | with_reducible assumption
    | with_reducible apply lcWrite_keeps

theorem endDebug_keeps {z s : State}  (hz : Keeps z s) : Keeps z (endDebug s) := by
  unfold endDebug
  repeat' first
    | with_reducible assumption
    | with_reducible apply put_keeps

theorem transition_keeps {z s : State}  (hz : Keeps z s) : Keeps z (transition s) := by
  unfold transition
  try dsimp only
  repeat' first
    | with_reducible assumption
    | with_reducible apply keeperState_keeps
    | with_reducible apply endDebug_keeps
    | with_reducible apply abortLoad_keeps
    | with_reducible apply Keeps.upd

theorem lcOver_keeps {z s : State}  (hz : Keeps z s) : Keeps z (lcOver s) := by
  unfold lcOver
  try dsimp only
  repeat' first
    | with_reducible assumption
    | with_reducible apply clearArgs_keeps
    | with_reducible apply lower_keeps
    | with_reducible apply Keeps.upd

theorem fuseFails_keeps {z s : State} (e : Nat × Word) (hz : Keeps z s) : Keeps z (fuseFails e s) := by
  unfold fuseFails
  try dsimp only [State.fresh]
  repeat' first
    | with_reducible assumption
    | with_reducible apply raiseFault_keeps
    | with_reducible apply blow_keeps
    | with_reducible apply put_keeps
    | with_reducible apply blow_keeps
    | with_reducible apply Keeps.updFree

theorem lcFuseFail_keeps {z s : State} (j : LcJob) (bad : Nat) (hz : Keeps z s) : Keeps z (lcFuseFail j bad s) := by
  unfold lcFuseFail
  try dsimp only
  repeat' first
    | with_reducible assumption
    | with_reducible apply eachDo_keeps
    | with_reducible apply blow_keeps
    | with_reducible apply lcRefresh_keeps
    | with_reducible apply fuseFails_keeps
    | with_reducible apply transition_keeps
    | with_reducible apply lcOver_keeps
    | with_reducible apply raise_keeps
    | with_reducible apply eachDo_keeps
    | with_reducible apply blow_keeps
    | with_reducible apply Keeps.ite
    | (intro _ _ _)
    | (intro _ _)
    | split

theorem lcSucceeds_keeps {z s : State} (j : LcJob) (hz : Keeps z s) : Keeps z (lcSucceeds j s) := by
  unfold lcSucceeds
  try dsimp only
  repeat' first
    | with_reducible assumption
    | with_reducible apply eachDo_keeps
    | with_reducible apply blow_keeps
    | with_reducible apply lcRefresh_keeps
    | with_reducible apply transition_keeps
    | with_reducible apply erase_keeps
    | with_reducible apply lcOver_keeps
    | with_reducible apply raise_keeps
    | with_reducible apply eachDo_keeps
    | with_reducible apply blow_keeps
    | with_reducible apply Keeps.ite
    | (intro _ _ _)

theorem tokenFails_keeps {z s : State}  (hz : Keeps z s) : Keeps z (tokenFails s) := by
  unfold tokenFails
  try dsimp only
  repeat' first
    | with_reducible assumption
    | with_reducible apply lcRefuse_keeps
    | with_reducible apply lcOver_keeps
    | with_reducible apply Keeps.upd

theorem execLcCommandDone_keeps {z s : State} (bad : Option Nat) (hz : Keeps z s) : OutKeeps z (execLcCommandDone bad s) := by
  unfold execLcCommandDone
  try dsimp only
  repeat' first
    | with_reducible assumption
    | with_reducible apply next_keeps
    | with_reducible apply dropRetNonce_keeps
    | with_reducible apply settled_keeps
    | with_reducible apply tokenFails_keeps
    | with_reducible apply dropPlan_keeps
    | with_reducible apply lcFuseFail_keeps
    | with_reducible apply lcSucceeds_keeps
    | with_reducible apply id_keeps
    | with_reducible apply Keeps.ite
    | with_reducible apply OutKeeps.ite
    | (intro _ _ _)
    | (intro _ _)
    | split

theorem execReturnNonceExpire_keeps {z s : State}  (hz : Keeps z s) : OutKeeps z (execReturnNonceExpire s) := by
  unfold execReturnNonceExpire
  repeat' first
    | with_reducible assumption
    | with_reducible apply done_keeps
    | with_reducible apply dropRetNonce_keeps

theorem execTokenRefusalEnd_keeps {z s : State}  (hz : Keeps z s) : OutKeeps z (execTokenRefusalEnd s) := by
  unfold execTokenRefusalEnd
  try dsimp only
  repeat' first
    | with_reducible assumption
    | with_reducible apply done_keeps
    | with_reducible apply next_keeps
    | with_reducible apply Keeps.upd

theorem fuseRead_keeps {z s : State}  (hz : Keeps z s) : Keeps z (fuseRead s) := by
  unfold fuseRead
  try dsimp only
  repeat' first
    | with_reducible assumption
    | with_reducible apply setReg_keeps
    | with_reducible apply raise_keeps

theorem execFuseRead_keeps {z s : State} (m : Nat) (hz : Keeps z s) : OutKeeps z (execFuseRead m s) := by
  unfold execFuseRead
  repeat' first
    | with_reducible assumption
    | with_reducible apply done_keeps
    | with_reducible apply gateWrite_keeps
    | with_reducible apply fuseRead_keeps

theorem fuseProgram_keeps {z s : State} (ok : Bool) (hz : Keeps z s) : Keeps z (fuseProgram ok s) := by
  unfold fuseProgram
  try dsimp only
  repeat' first
    | with_reducible assumption
    | with_reducible apply blow_keeps
    | with_reducible apply raise_keeps
    | with_reducible apply fuseFails_keeps
    | with_reducible apply blow_keeps
    | with_reducible apply Keeps.ite

theorem execFuseProgram_keeps {z s : State} (m : Nat) (ok : Bool) (hz : Keeps z s) : OutKeeps z (execFuseProgram m ok s) := by
  unfold execFuseProgram
  repeat' first
    | with_reducible assumption
    | with_reducible apply settled_keeps
    | with_reducible apply gateWrite_keeps
    | with_reducible apply fuseProgram_keeps
    | with_reducible apply next_keeps
    | (intro _ _ _)
    | (intro _ _)

theorem tapLoad_keeps {z s : State} (code : Nat) (hz : Keeps z s) : Keeps z (tapLoad code s) := by
  unfold tapLoad
  try dsimp only
  repeat' first
    | with_reducible assumption
    | with_reducible apply putFlag_keeps
    | with_reducible apply Keeps.upd

theorem tapRestricted_keeps {z s : State} (ok : Bool) (code : Nat) (k : State → State) (hk : ∀ t : State, Keeps z t → Keeps z (k t)) (h : Keeps z s) :
    Keeps z (tapRestricted ok code k s) := by
  unfold tapRestricted
  exact Keeps.ite (hk _ (tapLoad_keeps _ h)) (raise_keeps _ (tapLoad_keeps _ h))

theorem tapDo_keeps {z s : State} (f : State → State) (hf : ∀ (t : State), Keeps z t → Keeps z (f t)) (hz : Keeps z s) : OutKeeps z (tapDo f s) := by
  unfold tapDo
  repeat' first
    | with_reducible assumption
    | with_reducible apply hf
    | with_reducible apply done_keeps
    | with_reducible apply next_keeps
    | with_reducible apply OutKeeps.ite

theorem boundaryScan_keeps {z s : State} (cells : Nat) (hz : Keeps z s) : Keeps z (boundaryScan cells s) := by
  unfold boundaryScan
  try dsimp only [State.fresh]
  repeat' first
    | with_reducible assumption
    | with_reducible apply emit_keeps
    | with_reducible apply Keeps.upd
    | with_reducible apply Keeps.updFree

theorem execIdcode_keeps {z s : State}  (hz : Keeps z s) : OutKeeps z (execIdcode s) := by
  unfold execIdcode
  repeat' first
    | with_reducible assumption
    | with_reducible apply tapDo_keeps
    | with_reducible apply tapLoad_keeps
    | with_reducible apply emit_keeps
    | with_reducible apply next_keeps
    | (intro _ _ _)
    | (intro _ _)

theorem execSamplePreload_keeps {z s : State} (cells : Nat) (hz : Keeps z s) : OutKeeps z (execSamplePreload cells s) := by
  unfold execSamplePreload
  repeat' first
    | with_reducible assumption
    | with_reducible apply tapDo_keeps
    | with_reducible apply boundaryScan_keeps
    | with_reducible apply tapLoad_keeps
    | with_reducible apply next_keeps
    | (intro _ _ _)
    | (intro _ _)

theorem execExtest_keeps {z s : State} (cells : Nat) (hz : Keeps z s) : OutKeeps z (execExtest cells s) := by
  unfold execExtest
  repeat' first
    | with_reducible assumption
    | with_reducible apply tapDo_keeps
    | with_reducible apply tapRestricted_keeps
    | with_reducible apply boundaryScan_keeps
    | with_reducible apply next_keeps
    | (intro _ _ _)
    | (intro _ _)

theorem execJtagClamp_keeps {z s : State}  (hz : Keeps z s) : OutKeeps z (execJtagClamp s) := by
  unfold execJtagClamp
  repeat' first
    | with_reducible assumption
    | with_reducible apply tapDo_keeps
    | with_reducible apply tapRestricted_keeps
    | with_reducible apply id_keeps
    | with_reducible apply next_keeps
    | (intro _ _ _)
    | (intro _ _)

theorem execHighz_keeps {z s : State}  (hz : Keeps z s) : OutKeeps z (execHighz s) := by
  unfold execHighz
  repeat' first
    | with_reducible assumption
    | with_reducible apply tapDo_keeps
    | with_reducible apply tapRestricted_keeps
    | with_reducible apply id_keeps
    | with_reducible apply next_keeps
    | (intro _ _ _)
    | (intro _ _)

theorem execExtestPulse_keeps {z s : State} (cells : Nat) (hz : Keeps z s) : OutKeeps z (execExtestPulse cells s) := by
  unfold execExtestPulse
  repeat' first
    | with_reducible assumption
    | with_reducible apply tapDo_keeps
    | with_reducible apply tapRestricted_keeps
    | with_reducible apply boundaryScan_keeps
    | with_reducible apply next_keeps
    | (intro _ _ _)
    | (intro _ _)

theorem execExtestTrain_keeps {z s : State} (cells : Nat) (hz : Keeps z s) : OutKeeps z (execExtestTrain cells s) := by
  unfold execExtestTrain
  repeat' first
    | with_reducible assumption
    | with_reducible apply tapDo_keeps
    | with_reducible apply tapRestricted_keeps
    | with_reducible apply boundaryScan_keeps
    | with_reducible apply next_keeps
    | (intro _ _ _)
    | (intro _ _)

theorem execDbgStatus_keeps {z s : State}  (hz : Keeps z s) : OutKeeps z (execDbgStatus s) := by
  unfold execDbgStatus
  try dsimp only
  repeat' first
    | with_reducible assumption
    | with_reducible apply tapDo_keeps
    | with_reducible apply tapLoad_keeps
    | with_reducible apply emit_keeps
    | with_reducible apply next_keeps
    | (intro _ _ _)
    | (intro _ _)

theorem execScanNs_keeps {z s : State}  (hz : Keeps z s) : OutKeeps z (execScanNs s) := by
  unfold execScanNs
  repeat' first
    | with_reducible assumption
    | with_reducible apply tapDo_keeps
    | with_reducible apply tapRestricted_keeps
    | with_reducible apply id_keeps
    | with_reducible apply next_keeps
    | (intro _ _ _)
    | (intro _ _)

theorem execScanSec_keeps {z s : State}  (hz : Keeps z s) : OutKeeps z (execScanSec s) := by
  unfold execScanSec
  repeat' first
    | with_reducible assumption
    | with_reducible apply tapDo_keeps
    | with_reducible apply tapRestricted_keeps
    | with_reducible apply id_keeps
    | with_reducible apply next_keeps
    | (intro _ _ _)
    | (intro _ _)

theorem execJtagBypass_keeps {z s : State}  (hz : Keeps z s) : OutKeeps z (execJtagBypass s) := by
  unfold execJtagBypass
  repeat' first
    | with_reducible assumption
    | with_reducible apply tapDo_keeps
    | with_reducible apply tapLoad_keeps
    | with_reducible apply next_keeps
    | (intro _ _ _)
    | (intro _ _)

theorem execTestLogicReset_keeps {z s : State}  (hz : Keeps z s) : OutKeeps z (execTestLogicReset s) := by
  unfold execTestLogicReset
  repeat' first
    | with_reducible assumption
    | with_reducible apply tapDo_keeps
    | with_reducible apply endDebug_keeps
    | with_reducible apply tapLoad_keeps
    | with_reducible apply next_keeps
    | (intro _ _ _)
    | (intro _ _)

theorem dbgChal_keeps {z s : State}  (hz : Keeps z s) : Keeps z (dbgChal s) := by
  unfold dbgChal
  try dsimp only [State.fresh]
  repeat' first
    | with_reducible assumption
    | with_reducible apply tapLoad_keeps
    | with_reducible apply emit_keeps
    | with_reducible apply Keeps.ite
    | (intro _ _ _)
    | (intro _ _)
    | split
    | with_reducible apply Keeps.upd
    | with_reducible apply Keeps.updFree

theorem execDbgChal_keeps {z s : State}  (hz : Keeps z s) : OutKeeps z (execDbgChal s) := by
  unfold execDbgChal
  repeat' first
    | with_reducible assumption
    | with_reducible apply tapDo_keeps
    | with_reducible apply dbgChal_keeps

theorem dbgResp_keeps {z s : State} (key : Nat) (sig : List Word) (hz : Keeps z s) : Keeps z (dbgResp key sig s) := by
  unfold dbgResp
  try dsimp only
  repeat' first
    | with_reducible assumption
    | with_reducible apply tapLoad_keeps
    | with_reducible apply put_keeps
    | with_reducible apply raise_keeps
    | with_reducible apply incSat_keeps
    | with_reducible apply id_keeps
    | with_reducible apply Keeps.ite
    | (intro _ _ _)
    | (intro _ _)
    | split
    | with_reducible apply Keeps.upd

theorem execDbgResp_keeps {z s : State} (key : Nat) (sig : List Word) (hz : Keeps z s) : OutKeeps z (execDbgResp key sig s) := by
  unfold execDbgResp
  try dsimp only
  repeat' first
    | with_reducible assumption
    | with_reducible apply next_keeps
    | with_reducible apply tapDo_keeps
    | with_reducible apply dbgResp_keeps
    | with_reducible apply id_keeps
    | with_reducible apply Keeps.ite
    | with_reducible apply OutKeeps.ite
    | (intro _ _ _)
    | (intro _ _)

theorem execDbgNonceExpire_keeps {z s : State}  (hz : Keeps z s) : OutKeeps z (execDbgNonceExpire s) := by
  unfold execDbgNonceExpire
  try dsimp only
  repeat' first
    | with_reducible assumption
    | with_reducible apply done_keeps
    | with_reducible apply next_keeps
    | with_reducible apply Keeps.upd

theorem execDbgRefusalEnd_keeps {z s : State}  (hz : Keeps z s) : OutKeeps z (execDbgRefusalEnd s) := by
  unfold execDbgRefusalEnd
  try dsimp only
  repeat' first
    | with_reducible assumption
    | with_reducible apply done_keeps
    | with_reducible apply next_keeps
    | with_reducible apply Keeps.upd

theorem execSupplyTrip_keeps {z s : State} (r : Nat) (high : Bool) (hz : Keeps z s) : OutKeeps z (execSupplyTrip r high s) := by
  unfold execSupplyTrip
  repeat' first
    | with_reducible assumption
    | with_reducible apply settled_keeps
    | with_reducible apply raiseFault_keeps
    | with_reducible apply next_keeps
    | with_reducible apply OutKeeps.ite

theorem readTemp_keeps {z s : State} (i : Nat) (tj : Int) (hz : Keeps z s) : Keeps z (readTemp i tj s) := by
  unfold readTemp
  try dsimp only
  repeat' first
    | with_reducible assumption
    | with_reducible apply put_keeps
    | with_reducible apply Keeps.ite

theorem execThermalTrip_keeps {z s : State} (i : Nat) (tj : Int) (hz : Keeps z s) : OutKeeps z (execThermalTrip i tj s) := by
  unfold execThermalTrip
  repeat' first
    | with_reducible assumption
    | with_reducible apply settled_keeps
    | with_reducible apply raiseFault_keeps
    | with_reducible apply readTemp_keeps
    | with_reducible apply next_keeps
    | with_reducible apply OutKeeps.ite

theorem execThermalWarn_keeps {z s : State} (i : Nat) (tj : Int) (hz : Keeps z s) : OutKeeps z (execThermalWarn i tj s) := by
  unfold execThermalWarn
  repeat' first
    | with_reducible assumption
    | with_reducible apply settled_keeps
    | with_reducible apply raiseFault_keeps
    | with_reducible apply readTemp_keeps
    | with_reducible apply next_keeps
    | with_reducible apply OutKeeps.ite

theorem resetStage_keeps {z s : State}  (hz : Keeps z s) : Keeps z (resetStage s) := by
  unfold resetStage
  repeat' first
    | with_reducible assumption
    | with_reducible apply put_keeps

theorem sidebandUp_keeps {z s : State} (h : Keeps z s) : Keeps z (sidebandUp s) := by
  unfold sidebandUp
  exact (h.regsFilter fun c => c.1 < 0x3F000000).of_eq rfl rfl rfl rfl rfl le_rfl

theorem execRailGood_keeps {z s : State} (r : Nat) (hz : Keeps z s) : OutKeeps z (execRailGood r s) := by
  unfold execRailGood
  try dsimp only
  repeat' first
    | with_reducible assumption
    | with_reducible apply sidebandUp_keeps
    | with_reducible apply put_keeps
    | with_reducible apply done_keeps
    | with_reducible apply faultN_keeps
    | with_reducible apply resetStage_keeps
    | with_reducible apply raise_keeps
    | with_reducible apply next_keeps
    | with_reducible apply OutKeeps.ite
    | with_reducible apply Keeps.ite

theorem unsettle_keeps {z s : State}  (hz : Keeps z s) : Keeps z (unsettle s) := by
  unfold unsettle
  try dsimp only
  repeat' first
    | with_reducible assumption
    | with_reducible apply lower_keeps
    | with_reducible apply Keeps.upd

theorem execRailDrop_keeps {z s : State} (r : Nat) (hz : Keeps z s) : OutKeeps z (execRailDrop r s) := by
  unfold execRailDrop
  repeat' first
    | with_reducible assumption
    | with_reducible apply done_keeps
    | with_reducible apply faultN_keeps
    | with_reducible apply resetStage_keeps
    | with_reducible apply unsettle_keeps
    | with_reducible apply lower_keeps
    | with_reducible apply next_keeps
    | with_reducible apply OutKeeps.ite

theorem coldState_keeps {z s : State} (h : Keeps z s) : Keeps z (coldState s) := by
  unfold coldState
  exact (Keeps.memNil (h.regsFilter _)).of_eq rfl rfl rfl rfl rfl le_rfl

theorem execBrownOut_keeps {z s : State} (r : Nat) (hz : Keeps z s) : OutKeeps z (execBrownOut r s) := by
  unfold execBrownOut
  try dsimp only
  repeat' first
    | with_reducible assumption
    | with_reducible apply next_keeps
    | with_reducible apply unsettle_keeps
    | with_reducible apply coldState_keeps
    | with_reducible apply sidebandUp_keeps
    | with_reducible apply put_keeps
    | with_reducible apply lower_keeps
    | with_reducible apply done_keeps
    | with_reducible apply faultN_keeps
    | with_reducible apply loadIdentity_keeps
    | with_reducible apply lcRefresh_keeps
    | with_reducible apply resetStage_keeps
    | with_reducible apply id_keeps
    | with_reducible apply Keeps.ite
    | with_reducible apply OutKeeps.ite

theorem sampleStrap_keeps {z s : State} (j : Nat) (x : Nat) (hz : Keeps z s) : Keeps z (sampleStrap j x s) := by
  unfold sampleStrap
  try dsimp only
  repeat' first
    | with_reducible assumption
    | with_reducible apply put_keeps
    | with_reducible apply raise_keeps
    | with_reducible apply Keeps.ite
    | (intro _ _ _)
    | (intro _ _)
    | split
    | with_reducible apply Keeps.upd

theorem takeAddress_keeps {z s : State}  (hz : Keeps z s) : Keeps z (takeAddress s) := by
  unfold takeAddress
  try dsimp only
  repeat' first
    | with_reducible assumption
    | with_reducible apply Keeps.ite
    | (intro _ _ _)
    | (intro _ _)
    | split
    | with_reducible apply Keeps.upd

theorem execStrapSample_keeps {z s : State} (levels : List Nat) (hz : Keeps z s) : OutKeeps z (execStrapSample levels s) := by
  unfold execStrapSample
  try dsimp only
  repeat' first
    | with_reducible assumption
    | with_reducible apply eachDo_keeps
    | with_reducible apply sampleStrap_keeps
    | with_reducible apply putFlag_keeps
    | with_reducible apply done_keeps
    | with_reducible apply faultN_keeps
    | with_reducible apply takeAddress_keeps
    | with_reducible apply eachDo_keeps
    | with_reducible apply next_keeps
    | with_reducible apply OutKeeps.ite
    | with_reducible apply Keeps.ite
    | (intro _ _ _)

theorem latchStraps_keeps {z s : State}  (hz : Keeps z s) : Keeps z (latchStraps s) := by
  unfold latchStraps
  try dsimp only
  repeat' first
    | with_reducible assumption
    | with_reducible apply setReg_keeps
    | with_reducible apply put_keeps
    | with_reducible apply putFlag_keeps
    | with_reducible apply setReg_keeps
    | with_reducible apply Keeps.ite
    | (intro _ _ _)
    | (intro _ _)
    | split
    | with_reducible apply Keeps.upd

theorem loadGroup_keeps {z s : State} (g : Nat) (h : Keeps z s) : Keeps z (loadGroup g s) := by
  unfold loadGroup
  split
  · exact eachDo_keeps (Keeps.memFold h _ _) fun _ _ hu => mput_keeps _ _ (mput_keeps _ _ hu)
  · exact raiseFault_keeps _ _ _ _ h

theorem startTest_keeps {z s : State} (r : SelfTest) (hz : Keeps z s) : Keeps z (startTest r s) := by
  unfold startTest
  try dsimp only
  repeat' first
    | with_reducible assumption
    | with_reducible apply loadMap_keeps
    | with_reducible apply raise_keeps
    | with_reducible apply put_keeps
    | with_reducible apply showPool_keeps
    | with_reducible apply eachDo_keeps
    | with_reducible apply showMacro_keeps
    | with_reducible apply fuseRepairs_keeps
    | with_reducible apply loadMarker_keeps
    | with_reducible apply selfTest_keeps
    | with_reducible apply eachDo_keeps
    | with_reducible apply Keeps.ite
    | (intro _ _ _)
    | (intro _ _)
    | split

theorem bootLoad_keeps {z s : State}  (hz : Keeps z s) : Keeps z (bootLoad s) := by
  unfold bootLoad
  try dsimp only
  repeat' first
    | with_reducible assumption
    | with_reducible apply putFlag_keeps
    | with_reducible apply put_keeps
    | with_reducible apply bootFail_keeps
    | with_reducible apply Keeps.ite
    | split
    | with_reducible apply Keeps.upd

theorem checkFuses_keeps {z s : State}  (hz : Keeps z s) : Keeps z (checkFuses s) := by
  unfold checkFuses
  try dsimp only
  repeat' first
    | with_reducible assumption
    | with_reducible apply raiseFault_keeps
    | split

theorem checkNvm_keeps {z s : State} (nvm : Option Nat) (hz : Keeps z s) : Keeps z (checkNvm nvm s) := by
  unfold checkNvm
  try dsimp only
  repeat' first
    | with_reducible assumption
    | with_reducible apply raiseFault_keeps
    | with_reducible apply Keeps.ite
    | split

theorem startKeeper_keeps {z s : State}  (hz : Keeps z s) : Keeps z (startKeeper s) := by
  unfold startKeeper
  repeat' first
    | with_reducible assumption
    | with_reducible apply setReg_keeps
    | with_reducible apply setReg_keeps
    | with_reducible apply Keeps.ite

theorem startChecks_keeps {z s : State} (nvm : Option Nat) (hz : Keeps z s) : Keeps z (startChecks nvm s) := by
  unfold startChecks
  try dsimp only
  repeat' first
    | with_reducible assumption
    | with_reducible apply checkNvm_keeps
    | with_reducible apply checkFuses_keeps
    | with_reducible apply startKeeper_keeps
    | with_reducible apply loadIdentity_keeps
    | with_reducible apply lcRefresh_keeps
    | with_reducible apply latchStraps_keeps
    | with_reducible apply coldState_keeps
    | with_reducible apply put_keeps

/-- The stores all cleared, with an update of the other parts of the state. -/
theorem Keeps.updNil {z s : State} (h : Keeps z s) (fine : Nat) (elapsed : Nat) (hrt : Hearth) (rims : List (Nat × Rim)) (strands : List (Nat × Strand)) (tal : Tally) (hops : List Hop) (armCtr : Nat) (nextId : Nat) (resv : List (Nat × Nat)) (cplHeld : Bool) (grants : List (Nat × List Nat)) (lastGrant : List (Nat × Option Nat)) (grantCtr : Nat) (turn : List (Nat × Nat)) (eccBad : List Nat) (col : Collector) (faultsRecs : List FaultsRec) (spokes : List (Nat × Spoke)) (reeds : List (Nat × ReedRun)) (units : List (Nat × CalUnit)) (tdc : List (Nat × TdcTable)) (freshWord : List (Nat × Nat)) (cellCal : List (Nat × Option CellCal)) (lfsr : List (Nat × Nat)) (splices : List (Nat × Splice)) (links : List (Nat × Link)) (lanes : List (Nat × LaneRun)) (boxes : List (Nat × Mailbox)) (pctl : List (Nat × Nat)) (spliceWait : List Nat) (wear : Wear) (wearStrands : List Nat) (plan : Option Plan) (load : Load) (moving : List Nat) (wearWait : List Nat) (rimWearWait : List Nat) (host : HostIf) (bufs : List (Nat × WideBuf)) (latched : List (Nat × Word)) (opnds : List (Nat × Word)) (held : List (Nat × Nat × Nat)) (snaps : List (Nat × Snap)) (sb : Sideband) (keeper : Keeper) (pwr : Power) (lc : LifeCycle) (tap : Tap) (nvm : List (Nat × NvmSlot)) (nvmRun : Option NvmJob) (nvmQueue : List Nat) (repair : List Host.Cell) (rings : List Nat) (dbFrom : List (Nat × Nat)) (cap : Nat) (withdrawn : List Nat) :
    Keeps z ⟨s.regs, [], s.pending, fine, elapsed, s.freeCtr, s.sent, hrt, rims, strands, tal, hops, armCtr, nextId, resv, cplHeld, grants, lastGrant, grantCtr, turn, eccBad, col, faultsRecs, spokes, reeds, units, tdc, freshWord, cellCal, lfsr, splices, links, lanes, boxes, pctl, spliceWait, wear, wearStrands, plan, load, moving, wearWait, rimWearWait, host, bufs, latched, opnds, held, snaps, sb, keeper, pwr, lc, tap, nvm, nvmRun, nvmQueue, repair, s.fuses, rings, dbFrom, cap, withdrawn⟩ :=
  h.memNil.of_eq rfl rfl rfl rfl rfl le_rfl

theorem restLanes_keeps {z s : State} (hz : Keeps z s) : Keeps z (restLanes s) := by
  unfold restLanes
  try dsimp only
  repeat' first
    | with_reducible assumption
    | with_reducible apply eachDo_keeps
    | with_reducible apply laneRests_keeps
    | with_reducible apply eachDo_keeps
    | with_reducible apply id_keeps
    | with_reducible apply Keeps.ite
    | (intro _ _ _)

theorem loadStores_keeps {z s : State} (h : Keeps z s) : Keeps z (loadStores s) := by
  unfold loadStores
  refine faultN_keeps ?_
  with_reducible apply Keeps.upd
  refine bootLoad_keeps (eachDo_keeps (restLanes_keeps ?_) fun _ _ hu => loadGroup_keeps _ hu)
  with_reducible apply Keeps.updNil
  exact h

theorem startUp_keeps {z s : State} (r : SelfTest) (nvm : Option Nat) (hz : Keeps z s) : Keeps z (startUp r nvm s) := by
  unfold startUp
  try dsimp only
  repeat' first
    | with_reducible assumption
    | with_reducible apply startChecks_keeps
    | with_reducible apply startTest_keeps
    | with_reducible apply put_keeps
    | with_reducible apply loadStores_keeps
    | with_reducible apply Keeps.ite

theorem execResetRelease_keeps {z s : State} (r : SelfTest) (nvm : Option Nat) (hz : Keeps z s) : OutKeeps z (execResetRelease r nvm s) := by
  unfold execResetRelease
  repeat' first
    | with_reducible assumption
    | with_reducible apply settled_keeps
    | with_reducible apply startUp_keeps
    | with_reducible apply next_keeps
    | with_reducible apply OutKeeps.ite

theorem execPlanReady_keeps {z s : State} (time : Nat) (paused : Bool) (hz : Keeps z s) : OutKeeps z (execPlanReady time paused s) := by
  unfold execPlanReady
  try dsimp only
  repeat' first
    | with_reducible assumption
    | with_reducible apply put_keeps
    | with_reducible apply raise_keeps
    | with_reducible apply putFlag_keeps
    | with_reducible apply eachDo_keeps
    | with_reducible apply recheckRecord_keeps
    | with_reducible apply completeErasure_keeps
    | with_reducible apply settled_keeps
    | with_reducible apply queueMap_keeps
    | with_reducible apply eachDo_keeps
    | with_reducible apply next_keeps
    | with_reducible apply OutKeeps.ite
    | with_reducible apply Keeps.ite
    | (intro _ _ _)
    | (intro _ _)
    | split
    | with_reducible apply Keeps.upd

theorem paceTo_keeps {z s : State} (sensor : Nat) (hz : Keeps z s) : Keeps z (paceTo sensor s) := by
  unfold paceTo
  try dsimp only
  repeat' first
    | with_reducible assumption
    | with_reducible apply put_keeps
    | with_reducible apply putFlag_keeps
    | with_reducible apply incMod_keeps
    | with_reducible apply incSat_keeps
    | with_reducible apply raise_keeps
    | with_reducible apply raiseFault_keeps
    | with_reducible apply eachDo_keeps
    | with_reducible apply showUnit_keeps
    | with_reducible apply eachDo_keeps
    | with_reducible apply Keeps.ite
    | (intro _ _ _)
    | (intro _ _)
    | split
    | with_reducible apply Keeps.upd

theorem execDroopCrossing_keeps {z s : State} (i : Nat) (d : Nat) (base : Nat) (hz : Keeps z s) : OutKeeps z (execDroopCrossing i d base s) := by
  unfold execDroopCrossing
  try dsimp only
  repeat' first
    | with_reducible assumption
    | with_reducible apply put_keeps
    | with_reducible apply settled_keeps
    | with_reducible apply paceTo_keeps
    | with_reducible apply next_keeps
    | with_reducible apply OutKeeps.ite
    | with_reducible apply Keeps.ite
    | split
    | with_reducible apply Keeps.upd

theorem execPaceStepDown_keeps {z s : State}  (hz : Keeps z s) : OutKeeps z (execPaceStepDown s) := by
  unfold execPaceStepDown
  try dsimp only
  repeat' first
    | with_reducible assumption
    | with_reducible apply settled_keeps
    | with_reducible apply paceTo_keeps
    | with_reducible apply next_keeps
    | with_reducible apply OutKeeps.ite
    | with_reducible apply Keeps.ite
    | split
    | with_reducible apply Keeps.upd

theorem paceForce_keeps {z s : State} (m : Nat) (v : Word) (hz : Keeps z s) : Keeps z (paceForce m v s) := by
  unfold paceForce
  try dsimp only [State.fresh]
  repeat' first
    | with_reducible assumption
    | with_reducible apply storeRw_keeps
    | with_reducible apply paceTo_keeps
    | with_reducible apply Keeps.updFree

theorem execPwrPaceForceWrite_keeps {z s : State} (m : Nat) (v : Word) (hz : Keeps z s) : OutKeeps z (execPwrPaceForceWrite m v s) := by
  unfold execPwrPaceForceWrite
  repeat' first
    | with_reducible assumption
    | with_reducible apply settled_keeps
    | with_reducible apply gateWrite_keeps
    | with_reducible apply paceForce_keeps
    | with_reducible apply next_keeps
    | (intro _ _ _)
    | (intro _ _)

theorem shutdown_keeps {z s : State} (r : SelfTest) (hz : Keeps z s) : Keeps z (shutdown r s) := by
  unfold shutdown
  try dsimp only
  repeat' first
    | with_reducible assumption
    | with_reducible apply dropPlan_keeps
    | with_reducible apply put_keeps
    | with_reducible apply selfTest_keeps
    | with_reducible apply raise_keeps
    | with_reducible apply Keeps.ite
    | (intro _ _ _)
    | (intro _ _)
    | split
    | with_reducible apply Keeps.upd

theorem execShutdown_keeps {z s : State} (m : Nat) (r : SelfTest) (hz : Keeps z s) : OutKeeps z (execShutdown m r s) := by
  unfold execShutdown
  repeat' first
    | with_reducible assumption
    | with_reducible apply settled_keeps
    | with_reducible apply gateWrite_keeps
    | with_reducible apply shutdown_keeps
    | with_reducible apply next_keeps
    | (intro _ _ _)
    | (intro _ _)

theorem execShutdownHalt_keeps {z s : State}  (hz : Keeps z s) : OutKeeps z (execShutdownHalt s) := by
  unfold execShutdownHalt
  repeat' first
    | with_reducible assumption
    | with_reducible apply done_keeps
    | with_reducible apply put_keeps
    | with_reducible apply raise_keeps
    | with_reducible apply next_keeps
    | with_reducible apply OutKeeps.ite

theorem clearPeak_keeps {z s : State}  (hz : Keeps z s) : Keeps z (clearPeak s) := by
  unfold clearPeak
  try dsimp only
  repeat' first
    | with_reducible assumption
    | with_reducible apply eachDo_keeps
    | with_reducible apply put_keeps
    | with_reducible apply eachDo_keeps
    | (intro _ _ _)

theorem execClearPeak_keeps {z s : State} (m : Nat) (hz : Keeps z s) : OutKeeps z (execClearPeak m s) := by
  unfold execClearPeak
  repeat' first
    | with_reducible assumption
    | with_reducible apply done_keeps
    | with_reducible apply gateWrite_keeps
    | with_reducible apply clearPeak_keeps

end Sys2Proof.Machine
end

