-- ==== Sys2Proof/Laws/KeepsHost.lean ====
section
/-! SUPPORT. One lemma for each operation that answers a state: it keeps what every command keeps. Here the host and the sideband. -/

namespace Sys2Proof.Machine

theorem readLatch_keeps {z s : State} (a : Nat) (hz : Keeps z s) : Keeps z (readLatch a s) := by
  unfold readLatch
  try dsimp only
  repeat' first
    | with_reducible assumption
    | with_reducible apply setReg_keeps
    | with_reducible apply latchStrand_keeps
    | with_reducible apply setReg_keeps
    | with_reducible apply Keeps.ite
    | (intro _ _ _)
    | (intro _ _)
    | split
    | with_reducible apply Keeps.upd

theorem readFree_keeps {z s : State} (a : Nat) (v : Word) (h : Keeps z s) : Keeps z (readFree a v s).2 := by
  have ht := h.of_eq (t := s.fresh.2) rfl rfl rfl rfl rfl (Nat.le_add_right _ _)
  unfold readFree
  dsimp only
  split
  · exact ht
  · split
    · exact ht
    · exact h

theorem readLoc_keeps {z s : State} (m : Nat) (l : Loc) (hz : Keeps z s) : Keeps z (readLoc m l s).2 := by
  unfold readLoc
  try dsimp only
  repeat' first
    | with_reducible assumption
    | with_reducible apply readLatch_keeps
    | with_reducible apply readFree_keeps
    | with_reducible apply raiseEcc_keeps
    | with_reducible apply id_keeps
    | with_reducible apply Keeps.ite
    | (intro _ _ _)
    | (intro _ _)
    | split

theorem storeRws_keeps {z s : State} (m : Nat) (a : Nat) (v : Word) (row : RegRow) (hz : Keeps z s) : Keeps z (storeRws m a v row s) := by
  unfold storeRws
  try dsimp only
  repeat' first
    | with_reducible assumption
    | with_reducible apply eachDo_keeps
    | with_reducible apply raise_keeps
    | with_reducible apply eachDo_keeps
    | with_reducible apply Keeps.ite
    | (intro _ _ _)
    | (intro _ _)
    | split
    | with_reducible apply Keeps.upd

theorem storeOpnd_keeps {z s : State} (m : Nat) (a : Nat) (v : Word) (row : RegRow) (hz : Keeps z s) : Keeps z (storeOpnd m a v row s) := by
  unfold storeOpnd
  try dsimp only
  repeat' first
    | with_reducible assumption
    | with_reducible apply Keeps.ite
    | (intro _ _ _)
    | (intro _ _)
    | split
    | with_reducible apply Keeps.upd

theorem storeRsvl_keeps {z s : State} (m : Nat) (a : Nat) (v : Word) (hz : Keeps z s) : Keeps z (storeRsvl m a v s) := by
  unfold storeRsvl
  try dsimp only
  repeat' first
    | with_reducible assumption
    | with_reducible apply keepRsvl_keeps
    | with_reducible apply id_keeps
    | with_reducible apply Keeps.ite

theorem plainStore_keeps {z s : State} (m : Nat) (a : Nat) (at_ : Nat) (ind : Bool) (v : Word) (hz : Keeps z s) : Keeps z (plainStore m a at_ ind v s) := by
  unfold plainStore
  try dsimp only
  repeat' first
    | with_reducible assumption
    | with_reducible apply storeRws_keeps
    | with_reducible apply countKp_keeps
    | with_reducible apply storeOpnd_keeps
    | with_reducible apply storeAt_keeps
    | with_reducible apply eachDo_keeps
    | with_reducible apply raise_keeps
    | with_reducible apply eachDo_keeps
    | with_reducible apply Keeps.ite
    | (intro _ _ _)
    | (intro _ _)
    | split

theorem plainWrite_keeps {z s : State} (m : Nat) (a : Nat) (at_ : Nat) (ind : Bool) (v : Word) (hz : Keeps z s) : Keeps z (plainWrite m a at_ ind v s) := by
  unfold plainWrite
  try dsimp only
  repeat' first
    | with_reducible assumption
    | with_reducible apply eachDo_keeps
    | with_reducible apply setReg_keeps
    | with_reducible apply dropBuf_keeps
    | with_reducible apply plainStore_keeps
    | with_reducible apply eachDo_keeps
    | with_reducible apply setReg_keeps
    | with_reducible apply Keeps.ite
    | (intro _ _ _)
    | (intro _ _)
    | split
    | with_reducible apply Keeps.upd

theorem sendHeld_keeps {z s : State} (f : Nat) (h : Keeps z s) : Keeps z (sendHeld f s) :=
  ⟨h.regs, h.mem, h.fuse, h.pend, h.sent.trans (List.suffix_append _ _), h.free⟩

theorem msixWrite_keeps {z s : State} (a : Nat) (v : Word) (hz : Keeps z s) : Keeps z (msixWrite a v s) := by
  unfold msixWrite
  try dsimp only
  repeat' first
    | with_reducible assumption
    | with_reducible apply sendHeld_keeps
    | with_reducible apply setReg_keeps

theorem putBytes_keeps {z s : State} (a : Nat) (bs : List (Option Nat)) (hz : Keeps z s) : Keeps z (putBytes a bs s) := by
  unfold putBytes
  try dsimp only
  repeat' first
    | with_reducible assumption
    | with_reducible apply eachDo_keeps
    | with_reducible apply setByte_keeps
    | with_reducible apply setMemWord_keeps
    | with_reducible apply eachDo_keeps
    | with_reducible apply setByte_keeps
    | with_reducible apply Keeps.ite
    | (intro _ _ _)
    | (intro _ _)
    | split
    | with_reducible apply Keeps.upd

theorem storeBytes_keeps {z s : State} (m : Nat) (a : Nat) (bs : List (Option Nat)) (hz : Keeps z s) : Keeps z (storeBytes m a bs s) := by
  unfold storeBytes
  repeat' first
    | with_reducible assumption
    | with_reducible apply stagingWrite_keeps
    | with_reducible apply putBytes_keeps
    | with_reducible apply Keeps.ite

theorem rejects_keeps {z s : State} (m : Nat) (a : Nat) (kp : Bool) (f : Fld) (hz : Keeps z s) : OutKeeps z (rejects m a kp f s) := by
  unfold rejects
  repeat' first
    | with_reducible assumption
    | with_reducible apply done_keeps
    | with_reducible apply gateWrite_keeps
    | with_reducible apply raise_keeps
    | with_reducible apply next_keeps
    | (intro _ _ _)
    | (intro _ _)

theorem regCommand_keeps {z s : State} (r : SelfTest) (ok : Bool) (m : Nat) (a : Nat) (v : Word) (hz : Keeps z s) : OptKeeps z (regCommand r ok m a v s) := by
  unfold regCommand
  extract_lets f c t code quiet rej
  have ht : Keeps z t := Keeps.ite (storeRsvl_keeps _ _ _ hz) hz
  clear_value t
  dsimp only [quiet, rej]
  clear hz
  repeat' first
    | with_reducible assumption
    | with_reducible apply done_keeps
    | with_reducible apply gateWrite_keeps
    | with_reducible apply rejects_keeps
    | with_reducible apply execHrtCtrlWrite_keeps
    | with_reducible apply execHrtXrefSettleWrite_keeps
    | with_reducible apply execRequalifyX_keeps
    | with_reducible apply execClearHistory_keeps
    | with_reducible apply execHrtSwitchNow_keeps
    | with_reducible apply execRimMigrate_keeps
    | with_reducible apply execTalStep_keeps
    | with_reducible apply execTalSlew_keeps
    | with_reducible apply execTalSwitchNow_keeps
    | with_reducible apply execRestartDlcal_keeps
    | with_reducible apply execTalAsymWrite_keeps
    | with_reducible apply execSlotClear_keeps
    | with_reducible apply execRecheck_keeps
    | with_reducible apply execWalSpliceGo_keeps
    | with_reducible apply execSpkForcePark_keeps
    | with_reducible apply execSpkForceRelease_keeps
    | with_reducible apply execReedRun_keeps
    | with_reducible apply reedCmd_keeps
    | with_reducible apply reedCut_keeps
    | with_reducible apply execHistClear_keeps
    | with_reducible apply execRingDoorbell_keeps
    | with_reducible apply execArmPeakWrite_keeps
    | with_reducible apply execRetrain_keeps
    | with_reducible apply execLaneRetire_keeps
    | with_reducible apply execSubstitute_keeps
    | with_reducible apply execPctlSend_keeps
    | with_reducible apply execPctlRxRelease_keeps
    | with_reducible apply execPlanOpen_keeps
    | with_reducible apply execPlanVerify_keeps
    | with_reducible apply execPlanCommit_keeps
    | with_reducible apply execPlanAbort_keeps
    | with_reducible apply execStoreBoot_keeps
    | with_reducible apply execSetMinSeq_keeps
    | with_reducible apply execClearFaulted_keeps
    | with_reducible apply execClearRecov_keeps
    | with_reducible apply execClearViol_keeps
    | with_reducible apply execChallenge_keeps
    | with_reducible apply execRespond_keeps
    | with_reducible apply execKeeperDetach_keeps
    | with_reducible apply execFaultPulse_keeps
    | with_reducible apply execFaultHold_keeps
    | with_reducible apply execFcRelease_keeps
    | with_reducible apply forceCmd_keeps
    | with_reducible apply forceRej_keeps
    | with_reducible apply execFcLogTailWrite_keeps
    | with_reducible apply execShutdown_keeps
    | with_reducible apply execClearPeak_keeps
    | with_reducible apply execPwrPaceForceWrite_keeps
    | with_reducible apply execFullNext_keeps
    | with_reducible apply execCancelFull_keeps
    | with_reducible apply execStoreMap_keeps
    | with_reducible apply lcWrite_keeps
    | with_reducible apply execFuseRead_keeps
    | with_reducible apply execFuseProgram_keeps
    | with_reducible apply execSpkCfgWrite_keeps
    | with_reducible apply execReedCfgWrite_keeps
    | with_reducible apply execReedResTailWrite_keeps
    | with_reducible apply id_keeps
    | with_reducible apply next_keeps
    | with_reducible apply some_keeps
    | with_reducible apply none_keeps
    | with_reducible apply OptKeeps.ite
    | with_reducible apply OutKeeps.ite
    | with_reducible apply Keeps.ite
    | (intro _ _ _)
    | (intro _ _)
    | split
    | with_reducible apply reedWrite_keeps
    | with_reducible apply raise_keeps
    | with_reducible apply storeRsvl_keeps

theorem writeLoc_keeps {z s : State} (r : SelfTest) (ok : Bool) (m : Nat) (l : Loc) (port : Nat) (at_ : Nat) (ind : Bool) (v : Word) (hz : Keeps z s) : OutKeeps z (writeLoc r ok m l port at_ ind v s) := by
  unfold writeLoc
  try dsimp only
  repeat' first
    | with_reducible assumption
    | with_reducible apply done_keeps
    | with_reducible apply dropBuf_keeps
    | with_reducible apply regCommand_keeps
    | with_reducible apply settled_keeps
    | with_reducible apply plainWrite_keeps
    | with_reducible apply msixWrite_keeps
    | with_reducible apply storeBytes_keeps
    | with_reducible apply next_keeps
    | with_reducible apply OptKeeps.getD
    | with_reducible apply OptKeeps.ite
    | with_reducible apply none_keeps
    | with_reducible apply OutKeeps.ite
    | with_reducible apply Keeps.ite
    | split

theorem putRws_keeps {z s : State} (a : Nat) (v : Word) (hz : Keeps z s) : Keeps z (putRws a v s) := by
  unfold putRws
  try dsimp only
  repeat' first
    | with_reducible assumption
    | with_reducible apply setReg_keeps
    | with_reducible apply id_keeps
    | with_reducible apply Keeps.ite
    | (intro _ _ _)
    | (intro _ _)
    | split

theorem applyRws_keeps {z s : State} (up : Nat → Bool) (hz : Keeps z s) : Keeps z (applyRws up s) := by
  unfold applyRws
  try dsimp only
  repeat' first
    | with_reducible assumption
    | with_reducible apply eachDo_keeps
    | with_reducible apply putRws_keeps
    | with_reducible apply unqualify_keeps
    | with_reducible apply eachDo_keeps
    | with_reducible apply id_keeps
    | with_reducible apply Keeps.ite
    | (intro _ _ _)
    | (intro _ _)
    | split
    | with_reducible apply Keeps.upd

theorem blkEnWrite_keeps {z s : State} (v : Word) (hz : Keeps z s) : Keeps z (blkEnWrite v s) := by
  unfold blkEnWrite
  try dsimp only
  repeat' first
    | with_reducible assumption
    | with_reducible apply reedOpsGo_keeps
    | with_reducible apply applyRws_keeps
    | with_reducible apply setReg_keeps

theorem execBlkEnWrite_keeps {z s : State} (m : Nat) (v : Word) (hz : Keeps z s) : OutKeeps z (execBlkEnWrite m v s) := by
  unfold execBlkEnWrite
  repeat' first
    | with_reducible assumption
    | with_reducible apply settled_keeps
    | with_reducible apply gateWrite_keeps
    | with_reducible apply blkEnWrite_keeps
    | with_reducible apply next_keeps
    | (intro _ _ _)
    | (intro _ _)

theorem unserved_keeps {z s : State} (m : Nat) (hz : Keeps z s) : OutKeeps z (unserved m s) := by
  unfold unserved
  try dsimp only
  repeat' first
    | with_reducible assumption
    | with_reducible apply next_keeps
    | with_reducible apply done_keeps
    | with_reducible apply emit_keeps
    | with_reducible apply id_keeps
    | with_reducible apply Keeps.ite
    | with_reducible apply OutKeeps.ite

theorem execIndAddrWrite_keeps {z s : State} (m : Nat) (v : Word) (hz : Keeps z s) : OutKeeps z (execIndAddrWrite m v s) := by
  unfold execIndAddrWrite
  repeat' first
    | with_reducible assumption
    | with_reducible apply done_keeps
    | with_reducible apply gateWrite_keeps
    | with_reducible apply setReg_keeps
    | with_reducible apply setReg_keeps
    | with_reducible apply next_keeps
    | (intro _ _ _)
    | (intro _ _)

theorem indAdvance_keeps {z s : State} (m : Nat) (hz : Keeps z s) : Keeps z (indAdvance m s) := by
  unfold indAdvance
  repeat' first
    | with_reducible assumption
    | with_reducible apply setReg_keeps

theorem indAccess_keeps {z s : State} (r : SelfTest) (ok : Bool) (m : Nat) (op : Nat) (w : Option Word) (hz : Keeps z s) : OutKeeps z (indAccess r ok m op w s) := by
  unfold indAccess
  try dsimp only
  repeat' first
    | with_reducible assumption
    | with_reducible apply next_keeps
    | with_reducible apply indAdvance_keeps
    | with_reducible apply writeLoc_keeps
    | with_reducible apply readLoc_keeps
    | with_reducible apply settled_keeps
    | with_reducible apply emit_keeps
    | with_reducible apply unserved_keeps
    | with_reducible apply id_keeps
    | with_reducible apply Keeps.ite
    | with_reducible apply OutKeeps.ite
    | (intro _ _ _)
    | (intro _ _)
    | split

theorem execIndDataAccess_keeps {z s : State} (m : Nat) (op : Nat) (w : Option Word) (r : SelfTest) (ok : Bool) (hz : Keeps z s) : OutKeeps z (execIndDataAccess m op w r ok s) := by
  unfold execIndDataAccess
  repeat' first
    | with_reducible assumption
    | with_reducible apply indAccess_keeps
    | with_reducible apply next_keeps
    | with_reducible apply OutKeeps.ite

theorem snapTake_keeps {z s : State} (m : Nat) (v : Word) (hz : Keeps z s) : Keeps z (snapTake m v s) := by
  unfold snapTake
  try dsimp only
  repeat' first
    | with_reducible assumption
    | with_reducible apply raise_keeps
    | with_reducible apply lower_keeps
    | with_reducible apply Keeps.ite
    | (intro _ _ _)
    | (intro _ _)
    | split
    | with_reducible apply Keeps.upd

theorem execSnapTake_keeps {z s : State} (m : Nat) (v : Word) (hz : Keeps z s) : OutKeeps z (execSnapTake m v s) := by
  unfold execSnapTake
  try dsimp only
  repeat' first
    | with_reducible assumption
    | with_reducible apply next_keeps
    | with_reducible apply done_keeps
    | with_reducible apply gateWrite_keeps
    | with_reducible apply snapTake_keeps
    | with_reducible apply keepRsvl_keeps
    | with_reducible apply id_keeps
    | with_reducible apply Keeps.ite
    | with_reducible apply OutKeeps.ite
    | (intro _ _ _)
    | (intro _ _)

theorem snapRelease_keeps {z s : State} (m : Nat) (hz : Keeps z s) : Keeps z (snapRelease m s) := by
  unfold snapRelease
  try dsimp only
  repeat' first
    | with_reducible assumption
    | with_reducible apply lower_keeps
    | (intro _ _ _)
    | (intro _ _)
    | with_reducible apply Keeps.upd

theorem execSnapRelease_keeps {z s : State} (m : Nat) (hz : Keeps z s) : OutKeeps z (execSnapRelease m s) := by
  unfold execSnapRelease
  repeat' first
    | with_reducible assumption
    | with_reducible apply done_keeps
    | with_reducible apply gateWrite_keeps
    | with_reducible apply snapRelease_keeps
    | with_reducible apply next_keeps
    | (intro _ _ _)
    | (intro _ _)

theorem execSnapCopyDone_keeps {z s : State} (m : Nat) (hz : Keeps z s) : OutKeeps z (execSnapCopyDone m s) := by
  unfold execSnapCopyDone
  try dsimp only
  repeat' first
    | with_reducible assumption
    | with_reducible apply hold_keeps
    | with_reducible apply raise_keeps
    | with_reducible apply eachDo_keeps
    | with_reducible apply setReg_keeps
    | with_reducible apply putFlag_keeps
    | with_reducible apply put_keeps
    | with_reducible apply done_keeps
    | with_reducible apply eachDo_keeps
    | with_reducible apply setReg_keeps
    | with_reducible apply next_keeps
    | with_reducible apply OptKeeps.getD
    | with_reducible apply OptKeeps.ite
    | with_reducible apply none_keeps
    | with_reducible apply OutKeeps.ite
    | with_reducible apply Keeps.ite
    | (intro _ _ _)
    | (intro _ _)
    | split
    | with_reducible apply Keeps.upd

theorem devCommand_keeps {z s : State} (m : Nat) (a : Nat) (v : Word) (hz : Keeps z s) : OptKeeps z (devCommand m a v s) := by
  unfold devCommand
  repeat' first
    | with_reducible assumption
    | with_reducible apply execBlkEnWrite_keeps
    | with_reducible apply execIndAddrWrite_keeps
    | with_reducible apply execSnapTake_keeps
    | with_reducible apply execSnapRelease_keeps
    | with_reducible apply done_keeps
    | with_reducible apply gateWrite_keeps
    | with_reducible apply id_keeps
    | with_reducible apply storeRsvl_keeps
    | exact fun _ h => keepRsvl_keeps _ _ _ h
    | with_reducible apply next_keeps
    | with_reducible apply some_keeps
    | with_reducible apply none_keeps
    | with_reducible apply OptKeeps.ite

theorem barWrite_keeps {z s : State} (r : SelfTest) (ok : Bool) (m : Nat) (off : Nat) (v : Word) (hz : Keeps z s) : OutKeeps z (barWrite r ok m off v s) := by
  unfold barWrite
  try dsimp only
  repeat' first
    | with_reducible assumption
    | with_reducible apply indAccess_keeps
    | with_reducible apply devCommand_keeps
    | with_reducible apply writeLoc_keeps
    | with_reducible apply next_keeps
    | with_reducible apply OptKeeps.getD
    | with_reducible apply OptKeeps.ite
    | with_reducible apply none_keeps
    | with_reducible apply OutKeeps.ite
    | with_reducible apply Keeps.ite
    | split

theorem execRegisterWrite_keeps {z s : State} (m : Nat) (off : Nat) (v : Word) (r : SelfTest) (ok : Bool) (hz : Keeps z s) : OutKeeps z (execRegisterWrite m off v r ok s) := by
  unfold execRegisterWrite
  repeat' first
    | with_reducible assumption
    | with_reducible apply barWrite_keeps
    | with_reducible apply next_keeps
    | with_reducible apply OutKeeps.ite

theorem execAliasWrite_keeps {z s : State} (m : Nat) (off : Nat) (v : Word) (hz : Keeps z s) : OutKeeps z (execAliasWrite m off v s) := by
  unfold execAliasWrite
  repeat' first
    | with_reducible assumption
    | with_reducible apply barWrite_keeps
    | with_reducible apply next_keeps
    | with_reducible apply OutKeeps.ite

theorem barRead_keeps {z s : State} (m off : Nat) (h : Keeps z s) : Keeps z (barRead m off s).2 := by
  unfold barRead
  split
  · exact readLoc_keeps _ _ (indAdvance_keeps _ h)
  · exact readLoc_keeps _ _ h

theorem execWideValueRead_keeps {z s : State} (m : Nat) (off : Nat) (hz : Keeps z s) : OutKeeps z (execWideValueRead m off s) := by
  unfold execWideValueRead
  try dsimp only
  repeat' first
    | with_reducible assumption
    | with_reducible apply next_keeps
    | with_reducible apply barRead_keeps
    | with_reducible apply settled_keeps
    | with_reducible apply emit_keeps
    | with_reducible apply unserved_keeps
    | with_reducible apply id_keeps
    | with_reducible apply Keeps.ite
    | with_reducible apply OutKeeps.ite

theorem windowWrite_keeps {z s : State} (m : Nat) (off : Nat) (bs : List (Option Nat)) (hz : Keeps z s) : Keeps z (windowWrite m off bs s) := by
  unfold windowWrite
  try dsimp only
  repeat' first
    | with_reducible assumption
    | with_reducible apply eachDo_keeps
    | with_reducible apply storeBytes_keeps
    | with_reducible apply eachDo_keeps
    | with_reducible apply Keeps.ite
    | (intro _ _ _)
    | (intro _ _)
    | split

theorem windowRead_keeps {z s : State} (m off len : Nat) (h : Keeps z s) : Keeps z (windowRead m off len s) := by
  have hf : ∀ (l : List Nat) (x : List Sent × State), Keeps z x.2 → Keeps z (l.foldl (fun (x : List Sent × State) w =>
      match x.2.windowAddr m w with
      | some a => let y := readLoc m (.mem a) x.2; (reply m y.1 :: x.1, y.2)
      | none => (Sent.readData m 0 :: x.1, x.2)) x).2 := by
    intro l
    induction l with
    | nil => exact fun _ hx => hx
    | cons w r ih =>
      intro x hx
      refine ih _ ?_
      dsimp only
      split
      · exact readLoc_keeps _ _ hx
      · exact hx
  have := hf (wordsOf off len) ([], s) h
  exact ⟨this.regs, this.mem, this.fuse, this.pend, this.sent.trans (List.suffix_append _ _), this.free⟩

theorem execStoreWindowAccess_keeps {z s : State} (m : Nat) (off : Nat) (len : Nat) (w : Option (List (Option Nat))) (hz : Keeps z s) : OutKeeps z (execStoreWindowAccess m off len w s) := by
  unfold execStoreWindowAccess
  try dsimp only
  repeat' first
    | with_reducible assumption
    | with_reducible apply next_keeps
    | with_reducible apply settled_keeps
    | with_reducible apply windowWrite_keeps
    | with_reducible apply dropBuf_keeps
    | with_reducible apply windowRead_keeps
    | with_reducible apply unserved_keeps
    | with_reducible apply id_keeps
    | with_reducible apply Keeps.ite
    | with_reducible apply OutKeeps.ite
    | (intro _ _ _)
    | (intro _ _)
    | split

theorem execMsixConditionBegin_keeps {z s : State} (f : Nat) (c : MsixCond) (hz : Keeps z s) : OutKeeps z (execMsixConditionBegin f c s) := by
  unfold execMsixConditionBegin
  try dsimp only
  repeat' first
    | with_reducible assumption
    | with_reducible apply done_keeps
    | with_reducible apply setReg_keeps
    | with_reducible apply setReg_keeps
    | with_reducible apply next_keeps
    | with_reducible apply OutKeeps.ite
    | with_reducible apply Keeps.ite
    | split
    | with_reducible apply Keeps.upd

theorem execMsixConditionEnd_keeps {z s : State} (f : Nat) (c : MsixCond) (hz : Keeps z s) : OutKeeps z (execMsixConditionEnd f c s) := by
  unfold execMsixConditionEnd
  try dsimp only
  repeat' first
    | with_reducible assumption
    | with_reducible apply done_keeps
    | with_reducible apply sendHeld_keeps
    | with_reducible apply setReg_keeps
    | with_reducible apply setReg_keeps
    | with_reducible apply next_keeps
    | with_reducible apply OutKeeps.ite
    | with_reducible apply Keeps.ite
    | split
    | with_reducible apply Keeps.upd

theorem hostReset_keeps {z s : State}  (hz : Keeps z s) : Keeps z (hostReset s) := by
  unfold hostReset
  repeat' first
    | with_reducible assumption
    | with_reducible apply pfReset_keeps
    | with_reducible apply Keeps.ite

theorem execPerstNAssert_keeps {z s : State}  (hz : Keeps z s) : OutKeeps z (execPerstNAssert s) := by
  unfold execPerstNAssert
  try dsimp only
  repeat' first
    | with_reducible assumption
    | with_reducible apply settled_keeps
    | with_reducible apply hostReset_keeps
    | with_reducible apply next_keeps
    | with_reducible apply Keeps.upd

theorem execPerstNRelease_keeps {z s : State}  (hz : Keeps z s) : OutKeeps z (execPerstNRelease s) := by
  unfold execPerstNRelease
  try dsimp only
  repeat' first
    | with_reducible assumption
    | with_reducible apply done_keeps
    | with_reducible apply next_keeps
    | with_reducible apply Keeps.upd

theorem execHotReset_keeps {z s : State}  (hz : Keeps z s) : OutKeeps z (execHotReset s) := by
  unfold execHotReset
  try dsimp only
  repeat' first
    | with_reducible assumption
    | with_reducible apply settled_keeps
    | with_reducible apply hostReset_keeps
    | with_reducible apply next_keeps
    | with_reducible apply OutKeeps.ite
    | with_reducible apply Keeps.ite
    | split
    | with_reducible apply Keeps.upd

theorem execFlrPf_keeps {z s : State}  (hz : Keeps z s) : OutKeeps z (execFlrPf s) := by
  unfold execFlrPf
  try dsimp only
  repeat' first
    | with_reducible assumption
    | with_reducible apply pfReset_keeps
    | with_reducible apply settled_keeps
    | with_reducible apply next_keeps
    | with_reducible apply OutKeeps.ite
    | with_reducible apply Keeps.ite
    | split
    | with_reducible apply Keeps.upd

theorem execFlrVf_keeps {z s : State} (k : Nat) (hz : Keeps z s) : OutKeeps z (execFlrVf k s) := by
  unfold execFlrVf
  try dsimp only
  repeat' first
    | with_reducible assumption
    | with_reducible apply vfReset_keeps
    | with_reducible apply settled_keeps
    | with_reducible apply raise_keeps
    | with_reducible apply next_keeps
    | with_reducible apply OutKeeps.ite
    | with_reducible apply Keeps.ite
    | split
    | with_reducible apply Keeps.upd

theorem execFlrComplete_keeps {z s : State} (k : Nat) (hz : Keeps z s) : OutKeeps z (execFlrComplete k s) := by
  unfold execFlrComplete
  try dsimp only
  repeat' first
    | with_reducible assumption
    | with_reducible apply done_keeps
    | with_reducible apply lower_keeps
    | with_reducible apply next_keeps
    | with_reducible apply OutKeeps.ite
    | with_reducible apply Keeps.ite
    | split
    | with_reducible apply Keeps.upd

theorem execVfEnableClear_keeps {z s : State} (n : Nat) (hz : Keeps z s) : OutKeeps z (execVfEnableClear n s) := by
  unfold execVfEnableClear
  try dsimp only
  repeat' first
    | with_reducible assumption
    | with_reducible apply eachDo_keeps
    | with_reducible apply vfReset_keeps
    | with_reducible apply lower_keeps
    | with_reducible apply settled_keeps
    | with_reducible apply eachDo_keeps
    | with_reducible apply next_keeps
    | with_reducible apply OutKeeps.ite
    | with_reducible apply Keeps.ite
    | (intro _ _ _)
    | (intro _ _)
    | split
    | with_reducible apply Keeps.upd

theorem execVfEnableSet_keeps {z s : State} (n : Nat) (hz : Keeps z s) : OutKeeps z (execVfEnableSet n s) := by
  unfold execVfEnableSet
  try dsimp only
  repeat' first
    | with_reducible assumption
    | with_reducible apply done_keeps
    | with_reducible apply eachDo_keeps
    | with_reducible apply raise_keeps
    | with_reducible apply eachDo_keeps
    | with_reducible apply next_keeps
    | with_reducible apply OutKeeps.ite
    | with_reducible apply Keeps.ite
    | (intro _ _ _)
    | (intro _ _)
    | split
    | with_reducible apply Keeps.upd

theorem execPcieLinkL0_keeps {z s : State}  (hz : Keeps z s) : OutKeeps z (execPcieLinkL0 s) := by
  unfold execPcieLinkL0
  try dsimp only
  repeat' first
    | with_reducible assumption
    | with_reducible apply done_keeps
    | with_reducible apply next_keeps
    | with_reducible apply OutKeeps.ite
    | with_reducible apply Keeps.ite
    | split
    | with_reducible apply Keeps.upd

theorem sbWindow_keeps {z s : State} (cmd : Nat) (hz : Keeps z s) : Keeps z (sbWindow cmd s) := by
  unfold sbWindow
  try dsimp only
  repeat' first
    | with_reducible assumption
    | with_reducible apply put_keeps
    | with_reducible apply Keeps.ite
    | split
    | with_reducible apply Keeps.upd

theorem sbWinCmd_keeps {z s : State} (cmd : Nat) (v : Word) (hz : Keeps z s) : Keeps z (sbWinCmd cmd v s) := by
  unfold sbWinCmd
  repeat' first
    | with_reducible assumption
    | with_reducible apply sbWindow_keeps
    | with_reducible apply put_keeps

theorem sbWrite_keeps {z s : State} (i : Nat) (v : Word) (hz : Keeps z s) : Keeps z (sbWrite i v s) := by
  unfold sbWrite
  try dsimp only
  repeat' first
    | with_reducible assumption
    | with_reducible apply setReg_keeps
    | with_reducible apply sbWindow_keeps
    | with_reducible apply setReg_keeps
    | with_reducible apply Keeps.ite
    | split

theorem sbGroups_keeps {z : State} (l : List Nat) {s : State} (h : Keeps z s) : Keeps z (sbGroups l s) := by
  match l with
  | b0 :: b1 :: b2 :: b3 :: r =>
    unfold sbGroups
    refine sbGroups_keeps r ?_
    dsimp only
    with_reducible apply Keeps.upd
    with_reducible exact sbWrite_keeps _ _ h
  | [] => exact h
  | [_] => exact h
  | [_, _] => exact h
  | [_, _, _] => exact h

theorem execSbPrivateWrite_keeps {z s : State} (i2c : Bool) (x : Nat) (bs : Bytes) (hz : Keeps z s) : OutKeeps z (execSbPrivateWrite i2c x bs s) := by
  unfold execSbPrivateWrite
  try dsimp only
  repeat' first
    | with_reducible assumption
    | with_reducible apply done_keeps
    | with_reducible apply faultN_keeps
    | with_reducible apply sbGroups_keeps
    | with_reducible apply next_keeps
    | with_reducible apply OutKeeps.ite
    | with_reducible apply Keeps.ite
    | split
    | with_reducible apply Keeps.upd

theorem sbLatch_keeps {z s : State} (i : Nat) (hz : Keeps z s) : Keeps z (sbLatch i s) := by
  unfold sbLatch
  repeat' first
    | with_reducible assumption
    | with_reducible apply readLatch_keeps
    | with_reducible apply Keeps.ite

theorem sbBytes_keeps {z : State} (n : Nat) {s : State} (h : Keeps z s) : Keeps z (sbBytes n s).2 := by
  induction n generalizing s with
  | zero => exact h
  | succ n ih =>
    unfold sbBytes
    refine ih ?_
    with_reducible apply Keeps.upd
    with_reducible exact sbLatch_keeps _ h

theorem execSbPrivateRead_keeps {z s : State} (i2c : Bool) (x n : Nat) (h : Keeps z s) : OutKeeps z (execSbPrivateRead i2c x n s) := by
  unfold execSbPrivateRead
  refine OutKeeps.ite (done_keeps _ (emit_keeps _ (Keeps.ite ?_ (sbLatch_keeps _ ?_)))) (next_keeps h)
  · exact sbBytes_keeps _ h
  · exact sbBytes_keeps _ h

theorem execEntdaa_keeps {z s : State} (x : Nat) (hz : Keeps z s) : OutKeeps z (execEntdaa x s) := by
  unfold execEntdaa
  try dsimp only
  repeat' first
    | with_reducible assumption
    | with_reducible apply done_keeps
    | with_reducible apply emit_keeps
    | with_reducible apply next_keeps
    | with_reducible apply OutKeeps.ite
    | with_reducible apply Keeps.ite
    | split
    | with_reducible apply Keeps.upd

theorem execSetdasa_keeps {z s : State} (st : Nat) (x : Nat) (hz : Keeps z s) : OutKeeps z (execSetdasa st x s) := by
  unfold execSetdasa
  try dsimp only
  repeat' first
    | with_reducible assumption
    | with_reducible apply done_keeps
    | with_reducible apply next_keeps
    | with_reducible apply OutKeeps.ite
    | with_reducible apply Keeps.ite
    | split
    | with_reducible apply Keeps.upd

theorem execSetnewda_keeps {z s : State} (old : Nat) (x : Nat) (hz : Keeps z s) : OutKeeps z (execSetnewda old x s) := by
  unfold execSetnewda
  try dsimp only
  repeat' first
    | with_reducible assumption
    | with_reducible apply done_keeps
    | with_reducible apply next_keeps
    | with_reducible apply OutKeeps.ite
    | with_reducible apply Keeps.ite
    | split
    | with_reducible apply Keeps.upd

theorem execRstdaa_keeps {z s : State}  (hz : Keeps z s) : OutKeeps z (execRstdaa s) := by
  unfold execRstdaa
  try dsimp only
  repeat' first
    | with_reducible assumption
    | with_reducible apply done_keeps
    | with_reducible apply next_keeps
    | with_reducible apply OutKeeps.ite
    | with_reducible apply Keeps.ite
    | split
    | with_reducible apply Keeps.upd

theorem execEnec_keeps {z s : State} (dest : Option Nat) (ev : Nat) (hz : Keeps z s) : OutKeeps z (execEnec dest ev s) := by
  unfold execEnec
  try dsimp only
  repeat' first
    | with_reducible assumption
    | with_reducible apply done_keeps
    | with_reducible apply next_keeps
    | with_reducible apply OutKeeps.ite
    | with_reducible apply Keeps.ite
    | split
    | with_reducible apply Keeps.upd

theorem execDisec_keeps {z s : State} (dest : Option Nat) (ev : Nat) (hz : Keeps z s) : OutKeeps z (execDisec dest ev s) := by
  unfold execDisec
  try dsimp only
  repeat' first
    | with_reducible assumption
    | with_reducible apply done_keeps
    | with_reducible apply next_keeps
    | with_reducible apply OutKeeps.ite
    | with_reducible apply Keeps.ite
    | split
    | with_reducible apply Keeps.upd

theorem execSetmwl_keeps {z s : State} (dest : Option Nat) (n : Nat) (hz : Keeps z s) : OutKeeps z (execSetmwl dest n s) := by
  unfold execSetmwl
  try dsimp only
  repeat' first
    | with_reducible assumption
    | with_reducible apply done_keeps
    | with_reducible apply next_keeps
    | with_reducible apply OutKeeps.ite
    | with_reducible apply Keeps.ite
    | split
    | with_reducible apply Keeps.upd

theorem execSetmrl_keeps {z s : State} (dest : Option Nat) (n : Nat) (hz : Keeps z s) : OutKeeps z (execSetmrl dest n s) := by
  unfold execSetmrl
  try dsimp only
  repeat' first
    | with_reducible assumption
    | with_reducible apply done_keeps
    | with_reducible apply next_keeps
    | with_reducible apply OutKeeps.ite
    | with_reducible apply Keeps.ite
    | split
    | with_reducible apply Keeps.upd

theorem sbReturns_keeps {z s : State} (x : Nat) (n : Nat) (v : State → Nat) (hz : Keeps z s) : OutKeeps z (sbReturns x n v s) := by
  unfold sbReturns
  repeat' first
    | with_reducible assumption
    | with_reducible apply done_keeps
    | with_reducible apply emit_keeps
    | with_reducible apply next_keeps
    | with_reducible apply OutKeeps.ite

theorem execGetpid_keeps {z s : State} (x : Nat) (hz : Keeps z s) : OutKeeps z (execGetpid x s) := by
  unfold execGetpid
  repeat' first
    | with_reducible assumption
    | with_reducible apply sbReturns_keeps

theorem execGetbcr_keeps {z s : State} (x : Nat) (hz : Keeps z s) : OutKeeps z (execGetbcr x s) := by
  unfold execGetbcr
  repeat' first
    | with_reducible assumption
    | with_reducible apply sbReturns_keeps

theorem execGetdcr_keeps {z s : State} (x : Nat) (hz : Keeps z s) : OutKeeps z (execGetdcr x s) := by
  unfold execGetdcr
  repeat' first
    | with_reducible assumption
    | with_reducible apply sbReturns_keeps

theorem execGetstatus_keeps {z s : State} (x : Nat) (hz : Keeps z s) : OutKeeps z (execGetstatus x s) := by
  unfold execGetstatus
  try dsimp only [State.fresh]
  repeat' first
    | with_reducible assumption
    | with_reducible apply done_keeps
    | with_reducible apply emit_keeps
    | with_reducible apply next_keeps
    | with_reducible apply OutKeeps.ite
    | with_reducible apply Keeps.ite
    | split
    | with_reducible apply Keeps.updFree

theorem execGetmwl_keeps {z s : State} (x : Nat) (hz : Keeps z s) : OutKeeps z (execGetmwl x s) := by
  unfold execGetmwl
  repeat' first
    | with_reducible assumption
    | with_reducible apply sbReturns_keeps

theorem execGetmrl_keeps {z s : State} (x : Nat) (hz : Keeps z s) : OutKeeps z (execGetmrl x s) := by
  unfold execGetmrl
  repeat' first
    | with_reducible assumption
    | with_reducible apply sbReturns_keeps

theorem execSbWinRead_keeps {z s : State} (v : Word) (hz : Keeps z s) : OutKeeps z (execSbWinRead v s) := by
  unfold execSbWinRead
  repeat' first
    | with_reducible assumption
    | with_reducible apply done_keeps
    | with_reducible apply sbWinCmd_keeps
    | with_reducible apply next_keeps
    | with_reducible apply OutKeeps.ite

theorem execSbWinWrite_keeps {z s : State} (v : Word) (hz : Keeps z s) : OutKeeps z (execSbWinWrite v s) := by
  unfold execSbWinWrite
  repeat' first
    | with_reducible assumption
    | with_reducible apply done_keeps
    | with_reducible apply sbWinCmd_keeps
    | with_reducible apply next_keeps
    | with_reducible apply OutKeeps.ite

theorem sbWinOver_keeps {z s : State}  (hz : Keeps z s) : Keeps z (sbWinOver s) := by
  unfold sbWinOver
  try dsimp only
  repeat' first
    | with_reducible assumption
    | with_reducible apply put_keeps
    | with_reducible apply Keeps.ite
    | split
    | with_reducible apply Keeps.upd

theorem execSbWinDone_keeps {z s : State} (h : Keeps z s) : OutKeeps z (execSbWinDone s) := by
  unfold execSbWinDone
  split
  · exact barWrite_keeps _ _ _ _ _ (sbWinOver_keeps h)
  · refine settled_keeps _ (setReg_keeps ?_ _ _)
    dsimp only [State.fresh]
    with_reducible apply Keeps.updFree
    exact barRead_keeps _ _ (sbWinOver_keeps h)
  · exact next_keeps h

end Sys2Proof.Machine
end

