-- ==== Sys2Proof/WellFormed.lean ====
section
/-! DEFINITION. Which commands are well formed: every operand that numbers a unit of the hub lies among the numbers the spec gives that kind of unit.
A command that is not well formed names nothing the hub has; its meaning answers the state unchanged, or acts on nothing. -/

namespace Sys2Proof

/-- A master: the PF, a VF, or the sideband (R326). -/
def isMaster (m : Nat) : Bool := decide (m ≤ 65)

/-- A function of the PCIe endpoint (R32, R334). -/
def isFunction (m : Nat) : Bool := decide (m ≤ 64)

/-- `x` is below `n`. -/
def below (n x : Nat) : Bool := decide (x < n)

/-- A byte string of the sideband. -/
def areBytes (bs : Bytes) : Bool := bs.all (below 256)

/-- Where a command record came from is a place the hub has: a physical lane, or a ring (R143, R234). -/
def CmdIn.wf : CmdIn → Bool
  | .lane p _ _ _ _ _ => below 108 p
  | .host r => below 32768 r

/-- The findings of a self-test name strands, wales, macros and lanes that the hub has (R407 to R414). -/
def SelfTest.wf (r : SelfTest) : Bool :=
  r.strands.all (below 1088) && r.wales.all (below 64) && r.bits.all (fun e => below 256 e.1 && e.2.all fun b => below 4096 b.1 && below 576 b.2) &&
    r.spares.all (fun e => below 256 e.1 && below 6 e.2) && r.still.all (below 256) && r.lanes.all (below 108)

/-- The MSI-X condition is one that function `f` has: a vector below its table's size (R334). -/
def MsixCond.wf (f : Nat) : MsixCond → Bool
  | .vector v => below (if f = 0 then 256 else 8) v
  | .function | .busMaster | .d3hot => true

/-- The command is well formed (DESIGN CHOICE, log entry 2; DESIGN CHOICE, log entry 81). -/
def Instr.wf : Instr → Bool
  -- sources of the hearth, domains of the tally
  | .warpSourcePresent x | .domainTimeout x => below 2 x
  | .qualificationWindowElapsed xs => xs.all (below 3)
  | .coarseFreqGateEnd x _ | .fineFreqGateEnd x _ | .phaseHit x _ _ | .revertiveWtrElapsed x => below 3 x
  | .syncReceive x _ => below 2 x
  -- rims
  | .rimLockDeclare n _ band | .spareRimLock n _ band => below 16 n && below 64 band
  | .rimUnlock p => below 20 p
  | .relockWaitExpire n | .migrationWaleMove n _ | .retuneMaxExpire n => below 16 n
  -- a master's commands
  | .requalifyX m | .clearHistory m | .hrtSwitchNow m | .hrtCtrlWrite m _ | .hrtXrefSettleWrite m _ | .rimMigrate m _ | .talStep m | .talSlew m
  | .talSwitchNow m | .restartDlcal m | .talNow0Read m | .ringDoorbell m _ | .pctlSend m _ | .pctlRxRelease m | .planOpen m | .planVerify m
  | .planCommit m | .planAbort m | .storeBoot m | .setMinSeq m | .clearViol m | .challenge m | .keeperDetach m | .blkEnWrite m _ | .indAddrWrite m _
  | .snapTake m _ | .snapRelease m | .snapCopyDone m | .faultPulse m | .faultHold m | .fcRelease m | .fcLogTailWrite m _ | .pwrPaceForceWrite m _
  | .clearPeak m | .fullNext m | .cancelFull m | .storeMap m | .walSpliceGo m _ | .enterFactory m _ | .provision m _ | .enterField m _ | .retNonce m _
  | .lcReturn m _ | .lcRetire m _ | .lcRevoke m _ | .fuseRead m | .fuseProgram m _ => isMaster m
  | .shutdown m r => isMaster m && r.wf
  | .talAsymWrite m x _ => isMaster m && below 2 x
  | .slotClear m k j _ => isMaster m && below 1024 k && below 4 j
  | .recheck m k | .strAcc0Read m k => isMaster m && below 1024 k
  | .spkCfgWrite m n _ | .spkForcePark m n _ | .spkForceRelease m n _ | .reedRun m n | .reedStop m n _ | .histClear m n | .reedResTailWrite m n _
  | .reedCfgWrite m n _ => isMaster m && below 256 n
  | .armPeakWrite m b => isMaster m && b.all (below 64)
  | .retrain m p | .laneRetire m p | .substitute m p => isMaster m && below 108 p
  | .planStagingWrite m _ _ => isMaster m
  | .clearFaulted m b | .clearRecov m b => isMaster m && below 64 b
  | .respond m key => isMaster m && below 4 key
  | .registerWrite m off _ r _ => isFunction m && below 0x4000000 off && r.wf
  | .aliasWrite m off _ => isFunction m && below 0x4000000 off && decide (0x4000 ≤ off % 0x10000)
  | .indDataAccess m op _ r _ => isMaster m && below 4 op && r.wf
  | .wideValueRead m off => isFunction m && below 0x4000000 off
  | .storeWindowAccess m _ len w => isFunction m && decide (len ≤ 512) && (w.all fun bs => decide (bs.length ≤ 512) && bs.all fun b => b.all (below 256))
  -- lanes, partners and chains
  | .delayReqSend p _ _ | .delayReqReceive p _ _ _ | .delayRespReceive p _ _ _ | .delayRespTimeout p _ | .laneDetect p _ _ | .trainReady p
  | .trainMaxExpire p | .alignComplete p _ _ _ _ | .capReceive p _ _ | .agreedEcho p | .enumEcho p | .retReceive p _ | .retireComplete p | .ackReceive p _ _ _
  | .frameError p _ | .replayTimeout p _ | .ackSend p _ | .replayExhaust p | .blockLockLoss p | .chainUpstreamFrame p _ | .calLaneStepEnd p _ _ _ =>
    below 108 p
  | .refusalHoldExpire ps => ps.all (below 108)
  | .beatMarkerSend h _ | .pctlAckReceive h _ | .pctlRx h _ _ => below 96 h
  | .pctlTimeout c | .pctlBusyEnd c => isFunction c
  -- command records and hops
  | .hopArm c | .hopCommit c | .hopSquash c | .hopRetune c | .strandStart c | .strandStop c | .nopCmd c | .invalidOp c | .reedMeasure c | .measureStop c
  | .calStrand c | .calReed c | .calRim c | .calLane c | .calStore c => c.wf
  | .hopGrant r | .creditSend r _ => below 32768 r
  | .hopTakeEffect rim k _ _ => below (if rim then 16 else 1024) k
  | .rampStep k _ | .strandBaseMove k _ _ _ | .residualRetryVisit k _ _ | .slewStep k => below 1024 k
  -- wales, spokes, reeds and calibration units
  | .residualVisitEnd w pos _ _ => below 64 w && below 17 pos
  | .calTdcStageEnd w _ | .calCellSweepEnd w _ | .calCellHandover w | .spliceShadowStart w | .spliceAlignEnd w _ | .spliceVerifyEnd w _
  | .spliceHandover w => below 64 w
  | .lowPointApply n | .spokeRelease n | .reedRunStart n | .reedRunComplete n _ | .reedRunMaxExpire n _ => below 256 n
  | .calReedStageEnd q _ _ _ => below 4 q
  | .calPauseTimeout u => below 236 u
  | .calConditionChange i _ => below 16 i
  -- functions
  | .flrVf k => isFunction k && decide (1 ≤ k)
  | .flrComplete k => isFunction k
  | .vfEnableClear n => below 64 n
  | .vfEnableSet n => isFunction n && decide (1 ≤ n)
  | .msixConditionBegin f c | .msixConditionEnd f c => isFunction f && c.wf f
  -- the sideband
  | .sbPrivateWrite _ x bs => below 128 x && areBytes bs
  | .sbPrivateRead _ x _ | .entdaa x | .getpid x | .getbcr x | .getdcr x | .getstatus x | .getmwl x | .getmrl x => below 128 x
  | .setdasa x y | .setnewda x y => below 128 x && below 128 y
  | .enec dest ev | .disec dest ev => dest.all (below 128) && below 256 ev
  | .setmwl dest n | .setmrl dest n => dest.all (below 128) && below 65536 n
  | .strapSample levels => decide (levels.length = 8) && levels.all (below 3)
  -- faults, rails and sensors
  | .faultMessage src kind b _ => below 65536 src && below 256 kind && below 64 b
  | .quietPeriodEnd b | .recoveryAgeOut b => below 64 b
  | .supplyTrip r _ | .railGood r | .railDrop r | .brownOut r => below 8 r
  | .thermalTrip i _ | .thermalWarn i _ => below 16 i
  | .droopCrossing i d base => below 64 i && below 256 d && below 4096 base
  | .resetRelease r _ => r.wf
  | .samplePreload cells | .extest cells | .extestPulse cells | .extestTrain cells => below (2 ^ 3164) cells
  | .dbgResp key sig => below 2 key && sig.length == 24
  | .lcCommandDone bad => bad.all (below 512)
  -- events with no operand that names a unit
  | .xrefActivityTrip | .xrefActivityReturn | .xrefSettleElapsed | .hearthLockDeclare | .hearthUnlock | .hearthBwStep | .holdoverWindowExpire
  | .waitMaxExpire | .reacquisitionFail | .historyValid | .tallyTrackEnter | .tallySlewDone | .domainRevert | .calRimSweepEnd _ | .calRimMarginEnd _ _
  | .optimeMinute | .nvmWriteComplete | .capacityMeasure _ | .reservationRestore | .bondWaitExpire _ | .profileFetchDone _ | .holdMaxExpire _
  | .fireLeadReached _ | .timedMissed _ | .specTimeout _ | .stageTimeout | .planVerifyDone | .commitWaitEnd | .fullReweaveApplied
  | .partialReweaveApplied | .keeperVerifyDone | .keeperNonceExpire | .challengeRefusalEnd | .perstNAssert | .perstNRelease | .hotReset | .flrPf
  | .rstdaa | .sbWinRead _ | .sbWinWrite _ | .sbWinDone | .planReady _ _ | .paceStepDown | .shutdownHalt | .repairMapWriteStart | .returnNonceExpire
  | .idcode | .jtagClamp | .highz | .dbgChal | .dbgStatus | .scanNs | .scanSec | .jtagBypass | .testLogicReset | .dbgNonceExpire | .dbgRefusalEnd
  | .pcieLinkL0 | .tokenRefusalEnd => true

end Sys2Proof
end

