-- ==== Sys2Proof/Laws/PerInstr.lean ====
section
/-! SUPPORT. Per constructor: the master that sends a well-formed command is one of the 66 that the spec numbers (R326). -/

namespace Sys2Proof.Laws

/-- The number of the master that sends a command, where a master sends it. -/
def sender : Instr → Option Nat
  | .xrefActivityTrip => none
  | .xrefActivityReturn => none
  | .xrefSettleElapsed => none
  | .warpSourcePresent _ => none
  | .qualificationWindowElapsed _ => none
  | .coarseFreqGateEnd _ _ => none
  | .fineFreqGateEnd _ _ => none
  | .phaseHit _ _ _ => none
  | .hearthLockDeclare => none
  | .hearthUnlock => none
  | .hearthBwStep => none
  | .revertiveWtrElapsed _ => none
  | .holdoverWindowExpire => none
  | .waitMaxExpire => none
  | .reacquisitionFail => none
  | .historyValid => none
  | .requalifyX m => some m
  | .clearHistory m => some m
  | .hrtSwitchNow m => some m
  | .hrtCtrlWrite m _ => some m
  | .hrtXrefSettleWrite m _ => some m
  | .rimLockDeclare _ _ _ => none
  | .rimUnlock _ => none
  | .relockWaitExpire _ => none
  | .spareRimLock _ _ _ => none
  | .migrationWaleMove _ _ => none
  | .retuneMaxExpire _ => none
  | .rimMigrate m _ => some m
  | .syncReceive _ _ => none
  | .delayReqSend _ _ _ => none
  | .delayReqReceive _ _ _ _ => none
  | .delayRespReceive _ _ _ _ => none
  | .delayRespTimeout _ _ => none
  | .domainTimeout _ => none
  | .tallyTrackEnter => none
  | .tallySlewDone => none
  | .domainRevert => none
  | .beatMarkerSend _ _ => none
  | .talStep m => some m
  | .talSlew m => some m
  | .talSwitchNow m => some m
  | .restartDlcal m => some m
  | .talAsymWrite m _ _ => some m
  | .talNow0Read m => some m
  | .hopArm _ => none
  | .hopCommit _ => none
  | .hopSquash _ => none
  | .hopRetune _ => none
  | .strandStart _ => none
  | .strandStop _ => none
  | .nopCmd _ => none
  | .invalidOp _ => none
  | .reedMeasure _ => none
  | .measureStop _ => none
  | .calStrand _ => none
  | .calReed _ => none
  | .calRim _ => none
  | .calLane _ => none
  | .calStore _ => none
  | .hopGrant _ => none
  | .profileFetchDone _ => none
  | .hopTakeEffect _ _ _ _ => none
  | .holdMaxExpire _ => none
  | .fireLeadReached _ => none
  | .timedMissed _ => none
  | .specTimeout _ => none
  | .rampStep _ _ => none
  | .strandBaseMove _ _ _ _ => none
  | .residualVisitEnd _ _ _ _ => none
  | .residualRetryVisit _ _ _ => none
  | .slotClear m _ _ _ => some m
  | .recheck m _ => some m
  | .strAcc0Read m _ => some m
  | .spkCfgWrite m _ _ => some m
  | .lowPointApply _ => none
  | .spkForcePark m _ _ => some m
  | .spkForceRelease m _ _ => some m
  | .spokeRelease _ => none
  | .reedRun m _ => some m
  | .reedStop m _ _ => some m
  | .histClear m _ => some m
  | .reedRunStart _ => none
  | .reedRunComplete _ _ => none
  | .reedRunMaxExpire _ _ => none
  | .reedResTailWrite m _ _ => some m
  | .reedCfgWrite m _ _ => some m
  | .calTdcStageEnd _ _ => none
  | .calCellSweepEnd _ _ => none
  | .calCellHandover _ => none
  | .calReedStageEnd _ _ _ _ => none
  | .calRimSweepEnd _ => none
  | .calRimMarginEnd _ _ => none
  | .calLaneStepEnd _ _ _ _ => none
  | .calPauseTimeout _ => none
  | .optimeMinute => none
  | .calConditionChange _ _ => none
  | .nvmWriteComplete => none
  | .ringDoorbell m _ => some m
  | .creditSend _ _ => none
  | .capacityMeasure _ => none
  | .reservationRestore => none
  | .armPeakWrite m _ => some m
  | .laneDetect _ _ _ => none
  | .bondWaitExpire _ => none
  | .trainReady _ => none
  | .trainMaxExpire _ => none
  | .alignComplete _ _ _ _ _ => none
  | .capReceive _ _ _ => none
  | .agreedEcho _ => none
  | .enumEcho _ => none
  | .retReceive _ _ => none
  | .retireComplete _ => none
  | .refusalHoldExpire _ => none
  | .ackReceive _ _ _ _ => none
  | .frameError _ _ => none
  | .replayTimeout _ _ => none
  | .ackSend _ _ => none
  | .replayExhaust _ => none
  | .blockLockLoss _ => none
  | .chainUpstreamFrame _ _ => none
  | .retrain m _ => some m
  | .laneRetire m _ => some m
  | .substitute m _ => some m
  | .pctlSend m _ => some m
  | .pctlAckReceive _ _ => none
  | .pctlRx _ _ _ => none
  | .pctlTimeout _ => none
  | .pctlBusyEnd _ => none
  | .pctlRxRelease m => some m
  | .planOpen m => some m
  | .planVerify m => some m
  | .planCommit m => some m
  | .planAbort m => some m
  | .storeBoot m => some m
  | .setMinSeq m => some m
  | .planStagingWrite m _ _ => some m
  | .stageTimeout => none
  | .planVerifyDone => none
  | .commitWaitEnd => none
  | .fullReweaveApplied => none
  | .partialReweaveApplied => none
  | .clearFaulted m _ => some m
  | .clearRecov m _ => some m
  | .clearViol m => some m
  | .challenge m => some m
  | .respond m _ => some m
  | .keeperDetach m => some m
  | .keeperVerifyDone => none
  | .keeperNonceExpire => none
  | .challengeRefusalEnd => none
  | .perstNAssert => none
  | .perstNRelease => none
  | .hotReset => none
  | .flrPf => none
  | .flrVf _ => none
  | .vfEnableClear _ => none
  | .registerWrite m _ _ _ _ => some m
  | .aliasWrite m _ _ => some m
  | .blkEnWrite m _ => some m
  | .indDataAccess m _ _ _ _ => some m
  | .indAddrWrite m _ => some m
  | .storeWindowAccess m _ _ _ => some m
  | .msixConditionEnd _ _ => none
  | .snapTake m _ => some m
  | .snapRelease m => some m
  | .snapCopyDone m => some m
  | .sbPrivateWrite _ _ _ => none
  | .sbPrivateRead _ _ _ => none
  | .entdaa _ => none
  | .setdasa _ _ => none
  | .setnewda _ _ => none
  | .rstdaa => none
  | .enec _ _ => none
  | .disec _ _ => none
  | .setmwl _ _ => none
  | .setmrl _ _ => none
  | .getpid _ => none
  | .getbcr _ => none
  | .getdcr _ => none
  | .getstatus _ => none
  | .getmwl _ => none
  | .getmrl _ => none
  | .sbWinRead _ => none
  | .sbWinWrite _ => none
  | .sbWinDone => none
  | .strapSample _ => none
  | .faultMessage _ _ _ _ => none
  | .quietPeriodEnd _ => none
  | .recoveryAgeOut _ => none
  | .faultPulse m => some m
  | .faultHold m => some m
  | .fcRelease m => some m
  | .fcLogTailWrite m _ => some m
  | .supplyTrip _ _ => none
  | .thermalTrip _ _ => none
  | .thermalWarn _ _ => none
  | .railGood _ => none
  | .railDrop _ => none
  | .brownOut _ => none
  | .resetRelease _ _ => none
  | .planReady _ _ => none
  | .droopCrossing _ _ _ => none
  | .paceStepDown => none
  | .pwrPaceForceWrite m _ => some m
  | .shutdown m _ => some m
  | .shutdownHalt => none
  | .clearPeak m => some m
  | .fullNext m => some m
  | .cancelFull m => some m
  | .storeMap m => some m
  | .repairMapWriteStart => none
  | .walSpliceGo m _ => some m
  | .spliceShadowStart _ => none
  | .spliceAlignEnd _ _ => none
  | .spliceVerifyEnd _ _ => none
  | .spliceHandover _ => none
  | .enterFactory m _ => some m
  | .provision m _ => some m
  | .enterField m _ => some m
  | .retNonce m _ => some m
  | .lcReturn m _ => some m
  | .lcRetire m _ => some m
  | .lcRevoke m _ => some m
  | .returnNonceExpire => none
  | .fuseRead m => some m
  | .fuseProgram m _ => some m
  | .idcode => none
  | .samplePreload _ => none
  | .extest _ => none
  | .jtagClamp => none
  | .highz => none
  | .extestPulse _ => none
  | .extestTrain _ => none
  | .dbgChal => none
  | .dbgResp _ _ => none
  | .dbgStatus => none
  | .scanNs => none
  | .scanSec => none
  | .jtagBypass => none
  | .testLogicReset => none
  | .dbgNonceExpire => none
  | .dbgRefusalEnd => none
  | .slewStep _ => none
  | .wideValueRead m _ => some m
  | .vfEnableSet _ => none
  | .msixConditionBegin _ _ => none
  | .flrComplete _ => none
  | .pcieLinkL0 => none
  | .lcCommandDone _ => none
  | .tokenRefusalEnd => none

/-- The master that sends the command, if it is well formed, is one of masters 0 to 65. -/
def Operands.Statement (i : Instr) : Prop := ∀ m, sender i = some m → i.wf = true → m ≤ 65

theorem left_of {a b : Bool} (h : (a && b) = true) : a = true := (Bool.and_eq_true_iff.mp h).1
theorem isMaster_le {m : Nat} (h : isMaster m = true) : m ≤ 65 := of_decide_eq_true h
theorem isFunction_le {m : Nat} (h : isFunction m = true) : m ≤ 65 := (of_decide_eq_true h).trans (by decide)

theorem Operands.xrefActivityTrip : Operands.Statement (.xrefActivityTrip) := fun _ h => nomatch h
theorem Operands.xrefActivityReturn : Operands.Statement (.xrefActivityReturn) := fun _ h => nomatch h
theorem Operands.xrefSettleElapsed : Operands.Statement (.xrefSettleElapsed) := fun _ h => nomatch h
theorem Operands.warpSourcePresent (x : Nat) : Operands.Statement (.warpSourcePresent x) := fun _ h => nomatch h
theorem Operands.qualificationWindowElapsed (xs : List Nat) : Operands.Statement (.qualificationWindowElapsed xs) := fun _ h => nomatch h
theorem Operands.coarseFreqGateEnd (x : Nat) (off : Int) : Operands.Statement (.coarseFreqGateEnd x off) := fun _ h => nomatch h
theorem Operands.fineFreqGateEnd (x : Nat) (off : Int) : Operands.Statement (.fineFreqGateEnd x off) := fun _ h => nomatch h
theorem Operands.phaseHit (x : Nat) (mv : Int) (ph : Int) : Operands.Statement (.phaseHit x mv ph) := fun _ h => nomatch h
theorem Operands.hearthLockDeclare : Operands.Statement (.hearthLockDeclare) := fun _ h => nomatch h
theorem Operands.hearthUnlock : Operands.Statement (.hearthUnlock) := fun _ h => nomatch h
theorem Operands.hearthBwStep : Operands.Statement (.hearthBwStep) := fun _ h => nomatch h
theorem Operands.revertiveWtrElapsed (x : Nat) : Operands.Statement (.revertiveWtrElapsed x) := fun _ h => nomatch h
theorem Operands.holdoverWindowExpire : Operands.Statement (.holdoverWindowExpire) := fun _ h => nomatch h
theorem Operands.waitMaxExpire : Operands.Statement (.waitMaxExpire) := fun _ h => nomatch h
theorem Operands.reacquisitionFail : Operands.Statement (.reacquisitionFail) := fun _ h => nomatch h
theorem Operands.historyValid : Operands.Statement (.historyValid) := fun _ h => nomatch h
theorem Operands.requalifyX (m : Nat) : Operands.Statement (.requalifyX m) := fun _ h w => Option.some.inj h ▸ isMaster_le w
theorem Operands.clearHistory (m : Nat) : Operands.Statement (.clearHistory m) := fun _ h w => Option.some.inj h ▸ isMaster_le w
theorem Operands.hrtSwitchNow (m : Nat) : Operands.Statement (.hrtSwitchNow m) := fun _ h w => Option.some.inj h ▸ isMaster_le w
theorem Operands.hrtCtrlWrite (m : Nat) (v : Word) : Operands.Statement (.hrtCtrlWrite m v) := fun _ h w => Option.some.inj h ▸ isMaster_le w
theorem Operands.hrtXrefSettleWrite (m : Nat) (v : Word) : Operands.Statement (.hrtXrefSettleWrite m v) := fun _ h w => Option.some.inj h ▸ isMaster_le w
theorem Operands.rimLockDeclare (n : Nat) (code : Nat) (band : Nat) : Operands.Statement (.rimLockDeclare n code band) := fun _ h => nomatch h
theorem Operands.rimUnlock (p : Nat) : Operands.Statement (.rimUnlock p) := fun _ h => nomatch h
theorem Operands.relockWaitExpire (n : Nat) : Operands.Statement (.relockWaitExpire n) := fun _ h => nomatch h
theorem Operands.spareRimLock (n : Nat) (code : Nat) (band : Nat) : Operands.Statement (.spareRimLock n code band) := fun _ h => nomatch h
theorem Operands.migrationWaleMove (n : Nat) (delta : Int) : Operands.Statement (.migrationWaleMove n delta) := fun _ h => nomatch h
theorem Operands.retuneMaxExpire (n : Nat) : Operands.Statement (.retuneMaxExpire n) := fun _ h => nomatch h
theorem Operands.rimMigrate (m : Nat) (v : Word) : Operands.Statement (.rimMigrate m v) := fun _ h w => Option.some.inj h ▸ isMaster_le w
theorem Operands.syncReceive (x : Nat) (m : SyncMsg) : Operands.Statement (.syncReceive x m) := fun _ h => nomatch h
theorem Operands.delayReqSend (p : Nat) (seq : Nat) (t1 : Nat) : Operands.Statement (.delayReqSend p seq t1) := fun _ h => nomatch h
theorem Operands.delayReqReceive (p : Nat) (seq : Nat) (t2 : Nat) (t3 : Nat) : Operands.Statement (.delayReqReceive p seq t2 t3) := fun _ h => nomatch h
theorem Operands.delayRespReceive (p : Nat) (seq : Nat) (turn : Nat) (t4 : Nat) : Operands.Statement (.delayRespReceive p seq turn t4) := fun _ h => nomatch h
theorem Operands.delayRespTimeout (p : Nat) (seq : Nat) : Operands.Statement (.delayRespTimeout p seq) := fun _ h => nomatch h
theorem Operands.domainTimeout (x : Nat) : Operands.Statement (.domainTimeout x) := fun _ h => nomatch h
theorem Operands.tallyTrackEnter : Operands.Statement (.tallyTrackEnter) := fun _ h => nomatch h
theorem Operands.tallySlewDone : Operands.Statement (.tallySlewDone) := fun _ h => nomatch h
theorem Operands.domainRevert : Operands.Statement (.domainRevert) := fun _ h => nomatch h
theorem Operands.beatMarkerSend (h : Nat) (stamp : Nat) : Operands.Statement (.beatMarkerSend h stamp) := fun _ h => nomatch h
theorem Operands.talStep (m : Nat) : Operands.Statement (.talStep m) := fun _ h w => Option.some.inj h ▸ isMaster_le w
theorem Operands.talSlew (m : Nat) : Operands.Statement (.talSlew m) := fun _ h w => Option.some.inj h ▸ isMaster_le w
theorem Operands.talSwitchNow (m : Nat) : Operands.Statement (.talSwitchNow m) := fun _ h w => Option.some.inj h ▸ isMaster_le w
theorem Operands.restartDlcal (m : Nat) : Operands.Statement (.restartDlcal m) := fun _ h w => Option.some.inj h ▸ isMaster_le w
theorem Operands.talAsymWrite (m : Nat) (x : Nat) (v : Word) : Operands.Statement (.talAsymWrite m x v) := fun _ h w => Option.some.inj h ▸ isMaster_le (left_of w)
theorem Operands.talNow0Read (m : Nat) : Operands.Statement (.talNow0Read m) := fun _ h w => Option.some.inj h ▸ isMaster_le w
theorem Operands.hopArm (c : CmdIn) : Operands.Statement (.hopArm c) := fun _ h => nomatch h
theorem Operands.hopCommit (c : CmdIn) : Operands.Statement (.hopCommit c) := fun _ h => nomatch h
theorem Operands.hopSquash (c : CmdIn) : Operands.Statement (.hopSquash c) := fun _ h => nomatch h
theorem Operands.hopRetune (c : CmdIn) : Operands.Statement (.hopRetune c) := fun _ h => nomatch h
theorem Operands.strandStart (c : CmdIn) : Operands.Statement (.strandStart c) := fun _ h => nomatch h
theorem Operands.strandStop (c : CmdIn) : Operands.Statement (.strandStop c) := fun _ h => nomatch h
theorem Operands.nopCmd (c : CmdIn) : Operands.Statement (.nopCmd c) := fun _ h => nomatch h
theorem Operands.invalidOp (c : CmdIn) : Operands.Statement (.invalidOp c) := fun _ h => nomatch h
theorem Operands.reedMeasure (c : CmdIn) : Operands.Statement (.reedMeasure c) := fun _ h => nomatch h
theorem Operands.measureStop (c : CmdIn) : Operands.Statement (.measureStop c) := fun _ h => nomatch h
theorem Operands.calStrand (c : CmdIn) : Operands.Statement (.calStrand c) := fun _ h => nomatch h
theorem Operands.calReed (c : CmdIn) : Operands.Statement (.calReed c) := fun _ h => nomatch h
theorem Operands.calRim (c : CmdIn) : Operands.Statement (.calRim c) := fun _ h => nomatch h
theorem Operands.calLane (c : CmdIn) : Operands.Statement (.calLane c) := fun _ h => nomatch h
theorem Operands.calStore (c : CmdIn) : Operands.Statement (.calStore c) := fun _ h => nomatch h
theorem Operands.hopGrant (r : Nat) : Operands.Statement (.hopGrant r) := fun _ h => nomatch h
theorem Operands.profileFetchDone (id : Nat) : Operands.Statement (.profileFetchDone id) := fun _ h => nomatch h
theorem Operands.hopTakeEffect (rim : Bool) (k : Nat) (n : Nat) (at_ : Nat) : Operands.Statement (.hopTakeEffect rim k n at_) := fun _ h => nomatch h
theorem Operands.holdMaxExpire (i : Nat) : Operands.Statement (.holdMaxExpire i) := fun _ h => nomatch h
theorem Operands.fireLeadReached (i : Nat) : Operands.Statement (.fireLeadReached i) := fun _ h => nomatch h
theorem Operands.timedMissed (i : Nat) : Operands.Statement (.timedMissed i) := fun _ h => nomatch h
theorem Operands.specTimeout (i : Nat) : Operands.Statement (.specTimeout i) := fun _ h => nomatch h
theorem Operands.rampStep (k : Nat) (n : Nat) : Operands.Statement (.rampStep k n) := fun _ h => nomatch h
theorem Operands.strandBaseMove (k : Nat) (n : Nat) (delta : Int) (k0 : Int) : Operands.Statement (.strandBaseMove k n delta k0) := fun _ h => nomatch h
theorem Operands.residualVisitEnd (w : Nat) (pos : Nat) (j : Nat) (bins : List Nat) : Operands.Statement (.residualVisitEnd w pos j bins) := fun _ h => nomatch h
theorem Operands.residualRetryVisit (k : Nat) (j : Nat) (bins : List Nat) : Operands.Statement (.residualRetryVisit k j bins) := fun _ h => nomatch h
theorem Operands.slotClear (m : Nat) (k : Nat) (j : Nat) (all : Bool) : Operands.Statement (.slotClear m k j all) := fun _ h w => Option.some.inj h ▸ isMaster_le (left_of (left_of w))
theorem Operands.recheck (m : Nat) (k : Nat) : Operands.Statement (.recheck m k) := fun _ h w => Option.some.inj h ▸ isMaster_le (left_of w)
theorem Operands.strAcc0Read (m : Nat) (k : Nat) : Operands.Statement (.strAcc0Read m k) := fun _ h w => Option.some.inj h ▸ isMaster_le (left_of w)
theorem Operands.spkCfgWrite (m : Nat) (n : Nat) (v : Word) : Operands.Statement (.spkCfgWrite m n v) := fun _ h w => Option.some.inj h ▸ isMaster_le (left_of w)
theorem Operands.lowPointApply (n : Nat) : Operands.Statement (.lowPointApply n) := fun _ h => nomatch h
theorem Operands.spkForcePark (m : Nat) (n : Nat) (all : Bool) : Operands.Statement (.spkForcePark m n all) := fun _ h w => Option.some.inj h ▸ isMaster_le (left_of w)
theorem Operands.spkForceRelease (m : Nat) (n : Nat) (all : Bool) : Operands.Statement (.spkForceRelease m n all) := fun _ h w => Option.some.inj h ▸ isMaster_le (left_of w)
theorem Operands.spokeRelease (n : Nat) : Operands.Statement (.spokeRelease n) := fun _ h => nomatch h
theorem Operands.reedRun (m : Nat) (n : Nat) : Operands.Statement (.reedRun m n) := fun _ h w => Option.some.inj h ▸ isMaster_le (left_of w)
theorem Operands.reedStop (m : Nat) (n : Nat) (d : ReedData) : Operands.Statement (.reedStop m n d) := fun _ h w => Option.some.inj h ▸ isMaster_le (left_of w)
theorem Operands.histClear (m : Nat) (n : Nat) : Operands.Statement (.histClear m n) := fun _ h w => Option.some.inj h ▸ isMaster_le (left_of w)
theorem Operands.reedRunStart (n : Nat) : Operands.Statement (.reedRunStart n) := fun _ h => nomatch h
theorem Operands.reedRunComplete (n : Nat) (d : ReedData) : Operands.Statement (.reedRunComplete n d) := fun _ h => nomatch h
theorem Operands.reedRunMaxExpire (n : Nat) (d : ReedData) : Operands.Statement (.reedRunMaxExpire n d) := fun _ h => nomatch h
theorem Operands.reedResTailWrite (m : Nat) (n : Nat) (v : Word) : Operands.Statement (.reedResTailWrite m n v) := fun _ h w => Option.some.inj h ▸ isMaster_le (left_of w)
theorem Operands.reedCfgWrite (m : Nat) (n : Nat) (v : Word) : Operands.Statement (.reedCfgWrite m n v) := fun _ h w => Option.some.inj h ▸ isMaster_le (left_of w)
theorem Operands.calTdcStageEnd (w : Nat) (bins : List Nat) : Operands.Statement (.calTdcStageEnd w bins) := fun _ h => nomatch h
theorem Operands.calCellSweepEnd (w : Nat) (m : CellSweep) : Operands.Statement (.calCellSweepEnd w m) := fun _ h => nomatch h
theorem Operands.calCellHandover (w : Nat) : Operands.Statement (.calCellHandover w) := fun _ h => nomatch h
theorem Operands.calReedStageEnd (q : Nat) (bins : List Nat) (east : ReedData) (west : ReedData) : Operands.Statement (.calReedStageEnd q bins east west) := fun _ h => nomatch h
theorem Operands.calRimSweepEnd (bands : List (Nat × Nat)) : Operands.Statement (.calRimSweepEnd bands) := fun _ h => nomatch h
theorem Operands.calRimMarginEnd (code : Nat) (peak : Nat) : Operands.Statement (.calRimMarginEnd code peak) := fun _ h => nomatch h
theorem Operands.calLaneStepEnd (p : Nat) (e : EyeScan) (m : List Nat) (hit : Bool) : Operands.Statement (.calLaneStepEnd p e m hit) := fun _ h => nomatch h
theorem Operands.calPauseTimeout (u : Nat) : Operands.Statement (.calPauseTimeout u) := fun _ h => nomatch h
theorem Operands.optimeMinute : Operands.Statement (.optimeMinute) := fun _ h => nomatch h
theorem Operands.calConditionChange (i : Nat) (tj : Int) : Operands.Statement (.calConditionChange i tj) := fun _ h => nomatch h
theorem Operands.nvmWriteComplete : Operands.Statement (.nvmWriteComplete) := fun _ h => nomatch h
theorem Operands.ringDoorbell (m : Nat) (v : Word) : Operands.Statement (.ringDoorbell m v) := fun _ h w => Option.some.inj h ▸ isMaster_le w
theorem Operands.creditSend (r : Nat) (j : Nat) : Operands.Statement (.creditSend r j) := fun _ h => nomatch h
theorem Operands.capacityMeasure (rates : List Nat) : Operands.Statement (.capacityMeasure rates) := fun _ h => nomatch h
theorem Operands.reservationRestore : Operands.Statement (.reservationRestore) := fun _ h => nomatch h
theorem Operands.armPeakWrite (m : Nat) (b : Option Nat) : Operands.Statement (.armPeakWrite m b) := fun _ h w => Option.some.inj h ▸ isMaster_le (left_of w)
theorem Operands.laneDetect (p : Nat) (id : Nat) (rates : Nat) : Operands.Statement (.laneDetect p id rates) := fun _ h => nomatch h
theorem Operands.bondWaitExpire (id : Nat) : Operands.Statement (.bondWaitExpire id) := fun _ h => nomatch h
theorem Operands.trainReady (p : Nat) : Operands.Statement (.trainReady p) := fun _ h => nomatch h
theorem Operands.trainMaxExpire (p : Nat) : Operands.Statement (.trainMaxExpire p) := fun _ h => nomatch h
theorem Operands.alignComplete (p : Nat) (rtt : Nat) (tx : Nat) (rx : Nat) (aseq : Nat) : Operands.Statement (.alignComplete p rtt tx rx aseq) := fun _ h => nomatch h
theorem Operands.capReceive (p : Nat) (d1 : Nat) (d2 : Nat) : Operands.Statement (.capReceive p d1 d2) := fun _ h => nomatch h
theorem Operands.agreedEcho (p : Nat) : Operands.Statement (.agreedEcho p) := fun _ h => nomatch h
theorem Operands.enumEcho (p : Nat) : Operands.Statement (.enumEcho p) := fun _ h => nomatch h
theorem Operands.retReceive (p : Nat) (w : Nat) : Operands.Statement (.retReceive p w) := fun _ h => nomatch h
theorem Operands.retireComplete (p : Nat) : Operands.Statement (.retireComplete p) := fun _ h => nomatch h
theorem Operands.refusalHoldExpire (ps : List Nat) : Operands.Statement (.refusalHoldExpire ps) := fun _ h => nomatch h
theorem Operands.ackReceive (p : Nat) (seq : Nat) (nak : Bool) (far : Bool) : Operands.Statement (.ackReceive p seq nak far) := fun _ h => nomatch h
theorem Operands.frameError (p : Nat) (e : LineError) : Operands.Statement (.frameError p e) := fun _ h => nomatch h
theorem Operands.replayTimeout (p : Nat) (sender : Bool) : Operands.Statement (.replayTimeout p sender) := fun _ h => nomatch h
theorem Operands.ackSend (p : Nat) (far : Bool) : Operands.Statement (.ackSend p far) := fun _ h => nomatch h
theorem Operands.replayExhaust (p : Nat) : Operands.Statement (.replayExhaust p) := fun _ h => nomatch h
theorem Operands.blockLockLoss (p : Nat) : Operands.Statement (.blockLockLoss p) := fun _ h => nomatch h
theorem Operands.chainUpstreamFrame (q : Nat) (f : UpFrame) : Operands.Statement (.chainUpstreamFrame q f) := fun _ h => nomatch h
theorem Operands.retrain (m : Nat) (p : Nat) : Operands.Statement (.retrain m p) := fun _ h w => Option.some.inj h ▸ isMaster_le (left_of w)
theorem Operands.laneRetire (m : Nat) (p : Nat) : Operands.Statement (.laneRetire m p) := fun _ h w => Option.some.inj h ▸ isMaster_le (left_of w)
theorem Operands.substitute (m : Nat) (p : Nat) : Operands.Statement (.substitute m p) := fun _ h w => Option.some.inj h ▸ isMaster_le (left_of w)
theorem Operands.pctlSend (m : Nat) (v : Word) : Operands.Statement (.pctlSend m v) := fun _ h w => Option.some.inj h ▸ isMaster_le w
theorem Operands.pctlAckReceive (h : Nat) (st : Nat) : Operands.Statement (.pctlAckReceive h st) := fun _ h => nomatch h
theorem Operands.pctlRx (h : Nat) (d0 : Word) (d1 : Word) : Operands.Statement (.pctlRx h d0 d1) := fun _ h => nomatch h
theorem Operands.pctlTimeout (c : Nat) : Operands.Statement (.pctlTimeout c) := fun _ h => nomatch h
theorem Operands.pctlBusyEnd (c : Nat) : Operands.Statement (.pctlBusyEnd c) := fun _ h => nomatch h
theorem Operands.pctlRxRelease (m : Nat) : Operands.Statement (.pctlRxRelease m) := fun _ h w => Option.some.inj h ▸ isMaster_le w
theorem Operands.planOpen (m : Nat) : Operands.Statement (.planOpen m) := fun _ h w => Option.some.inj h ▸ isMaster_le w
theorem Operands.planVerify (m : Nat) : Operands.Statement (.planVerify m) := fun _ h w => Option.some.inj h ▸ isMaster_le w
theorem Operands.planCommit (m : Nat) : Operands.Statement (.planCommit m) := fun _ h w => Option.some.inj h ▸ isMaster_le w
theorem Operands.planAbort (m : Nat) : Operands.Statement (.planAbort m) := fun _ h w => Option.some.inj h ▸ isMaster_le w
theorem Operands.storeBoot (m : Nat) : Operands.Statement (.storeBoot m) := fun _ h w => Option.some.inj h ▸ isMaster_le w
theorem Operands.setMinSeq (m : Nat) : Operands.Statement (.setMinSeq m) := fun _ h w => Option.some.inj h ▸ isMaster_le w
theorem Operands.planStagingWrite (m : Nat) (k : Nat) (v : Word) : Operands.Statement (.planStagingWrite m k v) := fun _ h w => Option.some.inj h ▸ isMaster_le w
theorem Operands.stageTimeout : Operands.Statement (.stageTimeout) := fun _ h => nomatch h
theorem Operands.planVerifyDone : Operands.Statement (.planVerifyDone) := fun _ h => nomatch h
theorem Operands.commitWaitEnd : Operands.Statement (.commitWaitEnd) := fun _ h => nomatch h
theorem Operands.fullReweaveApplied : Operands.Statement (.fullReweaveApplied) := fun _ h => nomatch h
theorem Operands.partialReweaveApplied : Operands.Statement (.partialReweaveApplied) := fun _ h => nomatch h
theorem Operands.clearFaulted (m : Nat) (b : Nat) : Operands.Statement (.clearFaulted m b) := fun _ h w => Option.some.inj h ▸ isMaster_le (left_of w)
theorem Operands.clearRecov (m : Nat) (b : Nat) : Operands.Statement (.clearRecov m b) := fun _ h w => Option.some.inj h ▸ isMaster_le (left_of w)
theorem Operands.clearViol (m : Nat) : Operands.Statement (.clearViol m) := fun _ h w => Option.some.inj h ▸ isMaster_le w
theorem Operands.challenge (m : Nat) : Operands.Statement (.challenge m) := fun _ h w => Option.some.inj h ▸ isMaster_le w
theorem Operands.respond (m : Nat) (key : Nat) : Operands.Statement (.respond m key) := fun _ h w => Option.some.inj h ▸ isMaster_le (left_of w)
theorem Operands.keeperDetach (m : Nat) : Operands.Statement (.keeperDetach m) := fun _ h w => Option.some.inj h ▸ isMaster_le w
theorem Operands.keeperVerifyDone : Operands.Statement (.keeperVerifyDone) := fun _ h => nomatch h
theorem Operands.keeperNonceExpire : Operands.Statement (.keeperNonceExpire) := fun _ h => nomatch h
theorem Operands.challengeRefusalEnd : Operands.Statement (.challengeRefusalEnd) := fun _ h => nomatch h
theorem Operands.perstNAssert : Operands.Statement (.perstNAssert) := fun _ h => nomatch h
theorem Operands.perstNRelease : Operands.Statement (.perstNRelease) := fun _ h => nomatch h
theorem Operands.hotReset : Operands.Statement (.hotReset) := fun _ h => nomatch h
theorem Operands.flrPf : Operands.Statement (.flrPf) := fun _ h => nomatch h
theorem Operands.flrVf (k : Nat) : Operands.Statement (.flrVf k) := fun _ h => nomatch h
theorem Operands.vfEnableClear (n : Nat) : Operands.Statement (.vfEnableClear n) := fun _ h => nomatch h
theorem Operands.registerWrite (m : Nat) (off : Nat) (v : Word) (r : SelfTest) (ok : Bool) : Operands.Statement (.registerWrite m off v r ok) := fun _ h w => Option.some.inj h ▸ isFunction_le (left_of (left_of w))
theorem Operands.aliasWrite (m : Nat) (off : Nat) (v : Word) : Operands.Statement (.aliasWrite m off v) := fun _ h w => Option.some.inj h ▸ isFunction_le (left_of (left_of w))
theorem Operands.blkEnWrite (m : Nat) (v : Word) : Operands.Statement (.blkEnWrite m v) := fun _ h w => Option.some.inj h ▸ isMaster_le w
theorem Operands.indDataAccess (m : Nat) (op : Nat) (w : Option Word) (r : SelfTest) (ok : Bool) : Operands.Statement (.indDataAccess m op w r ok) := fun _ h w => Option.some.inj h ▸ isMaster_le (left_of (left_of w))
theorem Operands.indAddrWrite (m : Nat) (v : Word) : Operands.Statement (.indAddrWrite m v) := fun _ h w => Option.some.inj h ▸ isMaster_le w
theorem Operands.storeWindowAccess (m : Nat) (off : Nat) (len : Nat) (w : Option (List (Option Nat))) : Operands.Statement (.storeWindowAccess m off len w) := fun _ h w => Option.some.inj h ▸ isFunction_le (left_of (left_of w))
theorem Operands.msixConditionEnd (f : Nat) (c : MsixCond) : Operands.Statement (.msixConditionEnd f c) := fun _ h => nomatch h
theorem Operands.snapTake (m : Nat) (v : Word) : Operands.Statement (.snapTake m v) := fun _ h w => Option.some.inj h ▸ isMaster_le w
theorem Operands.snapRelease (m : Nat) : Operands.Statement (.snapRelease m) := fun _ h w => Option.some.inj h ▸ isMaster_le w
theorem Operands.snapCopyDone (m : Nat) : Operands.Statement (.snapCopyDone m) := fun _ h w => Option.some.inj h ▸ isMaster_le w
theorem Operands.sbPrivateWrite (i2c : Bool) (x : Nat) (bs : Bytes) : Operands.Statement (.sbPrivateWrite i2c x bs) := fun _ h => nomatch h
theorem Operands.sbPrivateRead (i2c : Bool) (x : Nat) (n : Nat) : Operands.Statement (.sbPrivateRead i2c x n) := fun _ h => nomatch h
theorem Operands.entdaa (x : Nat) : Operands.Statement (.entdaa x) := fun _ h => nomatch h
theorem Operands.setdasa (st : Nat) (x : Nat) : Operands.Statement (.setdasa st x) := fun _ h => nomatch h
theorem Operands.setnewda (old : Nat) (x : Nat) : Operands.Statement (.setnewda old x) := fun _ h => nomatch h
theorem Operands.rstdaa : Operands.Statement (.rstdaa) := fun _ h => nomatch h
theorem Operands.enec (dest : Option Nat) (ev : Nat) : Operands.Statement (.enec dest ev) := fun _ h => nomatch h
theorem Operands.disec (dest : Option Nat) (ev : Nat) : Operands.Statement (.disec dest ev) := fun _ h => nomatch h
theorem Operands.setmwl (dest : Option Nat) (n : Nat) : Operands.Statement (.setmwl dest n) := fun _ h => nomatch h
theorem Operands.setmrl (dest : Option Nat) (n : Nat) : Operands.Statement (.setmrl dest n) := fun _ h => nomatch h
theorem Operands.getpid (x : Nat) : Operands.Statement (.getpid x) := fun _ h => nomatch h
theorem Operands.getbcr (x : Nat) : Operands.Statement (.getbcr x) := fun _ h => nomatch h
theorem Operands.getdcr (x : Nat) : Operands.Statement (.getdcr x) := fun _ h => nomatch h
theorem Operands.getstatus (x : Nat) : Operands.Statement (.getstatus x) := fun _ h => nomatch h
theorem Operands.getmwl (x : Nat) : Operands.Statement (.getmwl x) := fun _ h => nomatch h
theorem Operands.getmrl (x : Nat) : Operands.Statement (.getmrl x) := fun _ h => nomatch h
theorem Operands.sbWinRead (v : Word) : Operands.Statement (.sbWinRead v) := fun _ h => nomatch h
theorem Operands.sbWinWrite (v : Word) : Operands.Statement (.sbWinWrite v) := fun _ h => nomatch h
theorem Operands.sbWinDone : Operands.Statement (.sbWinDone) := fun _ h => nomatch h
theorem Operands.strapSample (levels : List Nat) : Operands.Statement (.strapSample levels) := fun _ h => nomatch h
theorem Operands.faultMessage (src : Nat) (kind : Nat) (b : Nat) (detail : Nat) : Operands.Statement (.faultMessage src kind b detail) := fun _ h => nomatch h
theorem Operands.quietPeriodEnd (b : Nat) : Operands.Statement (.quietPeriodEnd b) := fun _ h => nomatch h
theorem Operands.recoveryAgeOut (b : Nat) : Operands.Statement (.recoveryAgeOut b) := fun _ h => nomatch h
theorem Operands.faultPulse (m : Nat) : Operands.Statement (.faultPulse m) := fun _ h w => Option.some.inj h ▸ isMaster_le w
theorem Operands.faultHold (m : Nat) : Operands.Statement (.faultHold m) := fun _ h w => Option.some.inj h ▸ isMaster_le w
theorem Operands.fcRelease (m : Nat) : Operands.Statement (.fcRelease m) := fun _ h w => Option.some.inj h ▸ isMaster_le w
theorem Operands.fcLogTailWrite (m : Nat) (v : Word) : Operands.Statement (.fcLogTailWrite m v) := fun _ h w => Option.some.inj h ▸ isMaster_le w
theorem Operands.supplyTrip (r : Nat) (high : Bool) : Operands.Statement (.supplyTrip r high) := fun _ h => nomatch h
theorem Operands.thermalTrip (i : Nat) (tj : Int) : Operands.Statement (.thermalTrip i tj) := fun _ h => nomatch h
theorem Operands.thermalWarn (i : Nat) (tj : Int) : Operands.Statement (.thermalWarn i tj) := fun _ h => nomatch h
theorem Operands.railGood (r : Nat) : Operands.Statement (.railGood r) := fun _ h => nomatch h
theorem Operands.railDrop (r : Nat) : Operands.Statement (.railDrop r) := fun _ h => nomatch h
theorem Operands.brownOut (r : Nat) : Operands.Statement (.brownOut r) := fun _ h => nomatch h
theorem Operands.resetRelease (r : SelfTest) (nvm : Option Nat) : Operands.Statement (.resetRelease r nvm) := fun _ h => nomatch h
theorem Operands.planReady (time : Nat) (paused : Bool) : Operands.Statement (.planReady time paused) := fun _ h => nomatch h
theorem Operands.droopCrossing (i : Nat) (d : Nat) (base : Nat) : Operands.Statement (.droopCrossing i d base) := fun _ h => nomatch h
theorem Operands.paceStepDown : Operands.Statement (.paceStepDown) := fun _ h => nomatch h
theorem Operands.pwrPaceForceWrite (m : Nat) (v : Word) : Operands.Statement (.pwrPaceForceWrite m v) := fun _ h w => Option.some.inj h ▸ isMaster_le w
theorem Operands.shutdown (m : Nat) (r : SelfTest) : Operands.Statement (.shutdown m r) := fun _ h w => Option.some.inj h ▸ isMaster_le (left_of w)
theorem Operands.shutdownHalt : Operands.Statement (.shutdownHalt) := fun _ h => nomatch h
theorem Operands.clearPeak (m : Nat) : Operands.Statement (.clearPeak m) := fun _ h w => Option.some.inj h ▸ isMaster_le w
theorem Operands.fullNext (m : Nat) : Operands.Statement (.fullNext m) := fun _ h w => Option.some.inj h ▸ isMaster_le w
theorem Operands.cancelFull (m : Nat) : Operands.Statement (.cancelFull m) := fun _ h w => Option.some.inj h ▸ isMaster_le w
theorem Operands.storeMap (m : Nat) : Operands.Statement (.storeMap m) := fun _ h w => Option.some.inj h ▸ isMaster_le w
theorem Operands.repairMapWriteStart : Operands.Statement (.repairMapWriteStart) := fun _ h => nomatch h
theorem Operands.walSpliceGo (m : Nat) (v : Word) : Operands.Statement (.walSpliceGo m v) := fun _ h w => Option.some.inj h ▸ isMaster_le w
theorem Operands.spliceShadowStart (w : Nat) : Operands.Statement (.spliceShadowStart w) := fun _ h => nomatch h
theorem Operands.spliceAlignEnd (w : Nat) (pairs : List (Nat × Nat)) : Operands.Statement (.spliceAlignEnd w pairs) := fun _ h => nomatch h
theorem Operands.spliceVerifyEnd (w : Nat) (pairs : List (Nat × Nat)) : Operands.Statement (.spliceVerifyEnd w pairs) := fun _ h => nomatch h
theorem Operands.spliceHandover (w : Nat) : Operands.Statement (.spliceHandover w) := fun _ h => nomatch h
theorem Operands.enterFactory (m : Nat) (v : Word) : Operands.Statement (.enterFactory m v) := fun _ h w => Option.some.inj h ▸ isMaster_le w
theorem Operands.provision (m : Nat) (v : Word) : Operands.Statement (.provision m v) := fun _ h w => Option.some.inj h ▸ isMaster_le w
theorem Operands.enterField (m : Nat) (v : Word) : Operands.Statement (.enterField m v) := fun _ h w => Option.some.inj h ▸ isMaster_le w
theorem Operands.retNonce (m : Nat) (v : Word) : Operands.Statement (.retNonce m v) := fun _ h w => Option.some.inj h ▸ isMaster_le w
theorem Operands.lcReturn (m : Nat) (v : Word) : Operands.Statement (.lcReturn m v) := fun _ h w => Option.some.inj h ▸ isMaster_le w
theorem Operands.lcRetire (m : Nat) (v : Word) : Operands.Statement (.lcRetire m v) := fun _ h w => Option.some.inj h ▸ isMaster_le w
theorem Operands.lcRevoke (m : Nat) (v : Word) : Operands.Statement (.lcRevoke m v) := fun _ h w => Option.some.inj h ▸ isMaster_le w
theorem Operands.returnNonceExpire : Operands.Statement (.returnNonceExpire) := fun _ h => nomatch h
theorem Operands.fuseRead (m : Nat) : Operands.Statement (.fuseRead m) := fun _ h w => Option.some.inj h ▸ isMaster_le w
theorem Operands.fuseProgram (m : Nat) (ok : Bool) : Operands.Statement (.fuseProgram m ok) := fun _ h w => Option.some.inj h ▸ isMaster_le w
theorem Operands.idcode : Operands.Statement (.idcode) := fun _ h => nomatch h
theorem Operands.samplePreload (cells : Nat) : Operands.Statement (.samplePreload cells) := fun _ h => nomatch h
theorem Operands.extest (cells : Nat) : Operands.Statement (.extest cells) := fun _ h => nomatch h
theorem Operands.jtagClamp : Operands.Statement (.jtagClamp) := fun _ h => nomatch h
theorem Operands.highz : Operands.Statement (.highz) := fun _ h => nomatch h
theorem Operands.extestPulse (cells : Nat) : Operands.Statement (.extestPulse cells) := fun _ h => nomatch h
theorem Operands.extestTrain (cells : Nat) : Operands.Statement (.extestTrain cells) := fun _ h => nomatch h
theorem Operands.dbgChal : Operands.Statement (.dbgChal) := fun _ h => nomatch h
theorem Operands.dbgResp (key : Nat) (sig : List Word) : Operands.Statement (.dbgResp key sig) := fun _ h => nomatch h
theorem Operands.dbgStatus : Operands.Statement (.dbgStatus) := fun _ h => nomatch h
theorem Operands.scanNs : Operands.Statement (.scanNs) := fun _ h => nomatch h
theorem Operands.scanSec : Operands.Statement (.scanSec) := fun _ h => nomatch h
theorem Operands.jtagBypass : Operands.Statement (.jtagBypass) := fun _ h => nomatch h
theorem Operands.testLogicReset : Operands.Statement (.testLogicReset) := fun _ h => nomatch h
theorem Operands.dbgNonceExpire : Operands.Statement (.dbgNonceExpire) := fun _ h => nomatch h
theorem Operands.dbgRefusalEnd : Operands.Statement (.dbgRefusalEnd) := fun _ h => nomatch h
theorem Operands.slewStep (k : Nat) : Operands.Statement (.slewStep k) := fun _ h => nomatch h
theorem Operands.wideValueRead (m : Nat) (off : Nat) : Operands.Statement (.wideValueRead m off) := fun _ h w => Option.some.inj h ▸ isFunction_le (left_of w)
theorem Operands.vfEnableSet (n : Nat) : Operands.Statement (.vfEnableSet n) := fun _ h => nomatch h
theorem Operands.msixConditionBegin (f : Nat) (c : MsixCond) : Operands.Statement (.msixConditionBegin f c) := fun _ h => nomatch h
theorem Operands.flrComplete (k : Nat) : Operands.Statement (.flrComplete k) := fun _ h => nomatch h
theorem Operands.pcieLinkL0 : Operands.Statement (.pcieLinkL0) := fun _ h => nomatch h
theorem Operands.lcCommandDone (bad : Option Nat) : Operands.Statement (.lcCommandDone bad) := fun _ h => nomatch h
theorem Operands.tokenRefusalEnd : Operands.Statement (.tokenRefusalEnd) := fun _ h => nomatch h

end Sys2Proof.Laws
end

