-- ==== Sys2Proof/Tests/Slice0.lean ====
section
/-! SUPPORT. Tests against what the spec works out, ill-formed terms that WellFormed refuses, and a witness for the hypotheses of every statement. -/

namespace Sys2Proof.Tests

set_option Elab.async false

open Sys2Proof Sys2Proof.Machine

/-- A hub whose host can write: every block enabled, configuration open, the link up, and the PF the keeper. -/
def up : State :=
  (({ State.reset with host := { ready := true, link := true } } : State).setReg DEV_BLK_EN (BitVec.ofNat 32 0xFFFF)).put BSK_KEEPER_STATUS_STATE 1

/-- The conditions of an access, checked. -/
theorem opens_of {s : State} {m a : Nat} {kp : Bool}
    (h : (s.hostOk m && (s.bufs.find? fun e => e.1 == m).isNone && s.enabledAt a && !s.fusedOff a && (!kp || s.isKeeper m) && s.reach m a != 0) = true) :
    s.opens m a kp := by
  simp only [Bool.and_eq_true, bne_iff_ne, Bool.or_eq_true, Option.isNone_iff_eq_none, Bool.not_eq_true'] at h
  obtain ⟨⟨⟨⟨⟨h1, h2⟩, h3⟩, hf⟩, h4⟩, h5⟩ := h
  exact ⟨h1, h2, h3, hf, fun e => by simpa [e] using h4, h5⟩

/-- Its XREF is present and active. -/
def xr : State := (up.put HRT_SRC_STATUS_XREF_PRESENT 1).put (HRT_SRC_STATUS_ACT 2) 1

/-- Its hearth is LOCKED to WARP_B. -/
def lk : State := (up.put HRT_STATUS_STATE 1).put HRT_STATUS_SEL 1

/-! ## Words and values that the spec works out -/

/-- The fault message of rim 4's unlock in basket 5 (R361's example). -/
theorem test_fault_message : faultMsg (srcRim 4) .rimUnlock .b (some 5) 4 = 0x2004284500000004 := by decide

/-- The lowest and the highest rim word of R67, and their neighbours outside. -/
theorem test_rim_word_bounds :
    (rimWordOk 6 0xDB6DB6DC, rimWordOk 6 0xDB6DB6DB, rimWordOk 8 0x49249249, rimWordOk 8 0x4924924A, rimWordOk 7 0x8AF8AF8B) =
      (true, false, true, false, true) := by decide

/-- A period of 20 ticks at duty 128 is high for 10 (the example of R170); at 16 ticks every duty gives 8 (R109). -/
theorem test_high_time :
    highTime (20 * 2 ^ 48) 1 128 = (20 * 2 ^ 48, 10 * 2 ^ 48) ∧ (highTime (16 * 2 ^ 48) 1 255).2 = 8 * 2 ^ 48 ∧ (highTime (16 * 2 ^ 48) 1 1).2 = 8 * 2 ^ 48 := by
  decide

/-- After a period of 1,000 ticks with a high time of 500, a period of 16 ticks places its first edge 512 ticks on (the example of R115). -/
theorem test_gap_skips_grid_points :
    (settingEdge {} ⟨16 * 2 ^ 48, 1, 128, 0, false, false, 0, 0, none, 0, 0, 0⟩ { t := 1000 * 2 ^ 48, h := 500 * 2 ^ 48 }).map (·.e) =
      some (512 * 2 ^ 48) := by decide +kernel

/-- The ramp of R167's example: from the bridge word, three steps of one 64th and a last one that meets the target. -/
theorem test_ramp_steps :
    let r : Ramp := { p := 64 * 2 ^ 48, n := 1, k := 6, j := 8, left := 0 }
    let b := (64 * 2 ^ 48 * 132 + 70) / 140
    let t1 := rampWord b r
    let t2 := rampWord t1 r
    let t3 := rampWord t2 r
    (t1 / 2 ^ 48, t2 / 2 ^ 48, t3 / 2 ^ 48, rampWord t3 r) = (61, 62, 63, 64 * 2 ^ 48) ∧ t1 % 2 ^ 48 * 1000000 / 2 ^ 48 = 285714 ∧
      t2 % 2 ^ 48 * 1000000 / 2 ^ 48 = 243303 ∧ t3 % 2 ^ 48 * 1000000 / 2 ^ 48 = 215855 := by decide +kernel

/-- A hub in which VF 6 reaches spoke 8, as R348's example has it. -/
def spoke8 : State :=
  let s := up.setReg (SPK_CFG 8) 0x0045E320
  { s with host := { s.host with vfs := 8 } }

/-- The SET alias of the example of R348 sets STOP_LEVEL alone. -/
theorem test_alias_set :
    (match exec (.aliasWrite 6 0x24180 0x00400800) spoke8 with | .next t => some (t.reg (SPK_CFG 8)) | _ => none) = some 0x0045EB20 := by
  decide +kernel

/-- SHA-384 of "abc" (the example of FIPS 180-4), AES-256 of FIPS 197's example, and the tag of one block of zeros under a key of zeros (GCM's test case 14). -/
theorem test_crypto :
    (sha384 [0x61, 0x62, 0x63]).take 4 = [0xCB, 0x00, 0x75, 0x3F] ∧
      beNat (aesBlock (aesKeys (List.range 32)) ((List.range 16).map (17 * ·))) = 0x8EA2B7CA516745BFEAFC49904B496089 ∧
      (let k := List.replicate 32 0; let iv := List.replicate 12 0
       beNat (gcmTag k iv [] (gcmCrypt k iv (List.replicate 16 0))) = 0xD0D1C8A799996BF0265B98B5D48AB919) := by decide +kernel

/-- No word spells a command. -/
theorem test_decode_refuses : decodeTableWord 32 0 = none := by decide

/-! ## Terms that WellFormed refuses -/

theorem test_wf_refuses_sources :
    ([.warpSourcePresent 2, .phaseHit 3 0 0, .syncReceive 2 ⟨0, 0, 0, 0, 0, 0, 0, 0, 0, 0, 0, 0, 0⟩, .qualificationWindowElapsed [0, 3]] : List Instr).all (fun i => !i.wf) = true := by decide
theorem test_wf_refuses_rims :
    ([.rimLockDeclare 16 0 0, .rimLockDeclare 0 0 64, .rimUnlock 20, .relockWaitExpire 16] : List Instr).all (fun i => !i.wf) = true := by decide
theorem test_wf_refuses_masters :
    ([.requalifyX 66, .shutdown 66 {}, .talAsymWrite 66 0 0, .talAsymWrite 0 2 0, .slotClear 0 1024 0 false, .slotClear 0 0 4 false, .recheck 0 1024,
      .spkCfgWrite 0 256 0, .armPeakWrite 0 (some 64), .retrain 0 108, .planStagingWrite 66 0 0, .clearFaulted 0 64, .respond 0 4] : List Instr).all
      (fun i => !i.wf) = true := by decide
theorem test_wf_refuses_accesses :
    ([.registerWrite 65 0 0 {} false, .registerWrite 0 0x4000000 0 {} false, .aliasWrite 65 0x4000 0, .aliasWrite 0 0x3FFC 0, .indDataAccess 66 0 none {} false,
      .indDataAccess 0 4 none {} false, .wideValueRead 65 0, .storeWindowAccess 65 0 4 none, .storeWindowAccess 0 0 513 none,
      .storeWindowAccess 0 0 4 (some [some 256])] : List Instr).all (fun i => !i.wf) = true := by decide
theorem test_wf_refuses_findings :
    ([{ strands := [1088] }, { wales := [64] }, { bits := [(256, [])] }, { bits := [(0, [(4096, 0)])] }, { bits := [(0, [(0, 576)])] }, { spares := [(256, 0)] },
      { spares := [(0, 6)] }, { still := [256] }, { lanes := [108] }] : List SelfTest).all (fun r => !(Instr.resetRelease r none).wf) = true := by decide
theorem test_wf_refuses_lanes :
    ([.trainReady 108, .refusalHoldExpire [108], .beatMarkerSend 96 0, .pctlTimeout 65, .hopArm (.lane 108 false 0 0 0 0), .hopArm (.host 32768),
      .hopGrant 32768] : List Instr).all (fun i => !i.wf) = true := by decide
theorem test_wf_refuses_strands :
    ([.hopTakeEffect true 16 0 0, .hopTakeEffect false 1024 0 0, .rampStep 1024 0, .residualVisitEnd 64 0 0 [], .residualVisitEnd 0 17 0 [], .calTdcStageEnd 64 [],
      .lowPointApply 256, .calReedStageEnd 4 [] ⟨0, [], 0, 0, 0⟩ ⟨0, [], 0, 0, 0⟩, .calPauseTimeout 236, .calConditionChange 16 0] : List Instr).all (fun i => !i.wf) = true := by decide
theorem test_wf_refuses_functions :
    ([.flrVf 0, .flrVf 65, .flrComplete 65, .vfEnableClear 64, .vfEnableSet 0, .vfEnableSet 65, .msixConditionBegin 65 .function,
      .msixConditionBegin 0 (.vector 256), .msixConditionEnd 1 (.vector 8)] : List Instr).all (fun i => !i.wf) = true := by decide
theorem test_wf_refuses_sideband :
    ([.sbPrivateWrite 0 128 [], .sbPrivateWrite 0 0 [256], .entdaa 128, .setdasa 128 0, .setdasa 0 128, .enec (some 128) 0, .enec none 256,
      .setmwl (some 128) 0, .setmwl none 65536, .strapSample [], .strapSample [3, 0, 0, 0, 0, 0, 0, 0]] : List Instr).all (fun i => !i.wf) = true := by decide
theorem test_wf_refuses_faults :
    ([.faultMessage 65536 0 0 0, .faultMessage 0 256 0 0, .faultMessage 0 0 64 0, .quietPeriodEnd 64, .supplyTrip 8 false, .thermalTrip 16 0,
      .droopCrossing 64 0 0, .droopCrossing 0 256 0, .droopCrossing 0 0 4096, .dbgResp 2 (List.replicate 24 0), .dbgResp 0 [], .lcCommandDone (some 512)] :
      List Instr).all (fun i => !i.wf) = true := by decide

theorem test_wf_refuses_cells : (Instr.samplePreload (2 ^ 3164)).wf = false := by decide +kernel

/-! ## Witnesses: for every statement with hypotheses, a state and operands that meet them -/

def wl : State := { up.put (LANE_STATUS_PHASE 1) 5 with tal := { domB := { seq := some 65535 } } }

def bt : State :=
  (((up.put (LANE_STATUS_PHASE 20) 5).put (LANE_STATUS_HANDLE 20) 7).put (LANE_PTN_STATUS_FIRST 7) 20).put (LANE_PTN_STATUS_TIME 7) 1 |>.put
    (LANE_PTN_STATUS_PRESENT 7) 1

/-- A hub with a host ring 3 of basket 0 and class 0, whose entry at 0 is an ARM of strand 0 in basket 0, and a completion ring 4. -/
def hr (w0 : Word) : State :=
  let s := ((((up.put (RING_DESC1_KIND 3) 1).put (RING_PROD_IDX 3) 1).put (BSK_SRC0_HOST 0) 1).put (RING_DESC1_DEPTH_EXP 4) 4).put (RING_BSK_CPL_RING 0) 4
  let s := ((s.put (WAL_BIND_BOUND 0) 1).setStrand 0 { bound := true }).put (RING_DESC0_BASE 4) 100
  s.setMemWord 0x14000000 w0
/-- A hub whose WARP_A feeds ring 5 of basket 0 and class 0 with one credit, strand 0 being the basket's. -/
def lr : State :=
  let s := ((((up.put (LANE_STATUS_PHASE 0) 5).put (BSK_SRC0_WARP_A 0) 1).put (RING_DESC1_KIND 5) 2).put (RING_SRC_SRC 5 0) 0xF0).put (RING_SRC_OUT_HELD 5 0) 1
  { (s.put (WAL_BIND_BOUND 0) 1).setStrand 0 { bound := true } with rings := [5] }

/-- A speculative hop of basket 0 with tag 0. -/
def sp (st : HopState) (rel : Bool) : Hop :=
  { id := 0, w0 := 0x41, w1 := 0, src := .host 3, feed := none, ring := 3, st := st, released := rel, squashed := false, record := [], fire := 0,
    armSeq := 0, heldAt := 0, reserved := true }

/-- A hub with one hop, a fetched ARM of strand 0, whose profile record 0 is good. -/
def fh (st : HopState) (w0 : Word) : Hop :=
  { id := 0, w0 := w0, w1 := 0, src := .host 3, feed := none, ring := 3, st := st, released := false, squashed := false, record := [], fire := 0,
    armSeq := 0, heldAt := 0, reserved := true }
def gr (h : Hop) : State :=
  { (((hr 1).put (RING_BSK_CFG_ARM_QUOTA 0) 8).put (BSK_PROF_QUOTA_QUOTA 0) 1).setMemWord 0x10000004 0x200000 |>.setMemWord 0x1000000C 1
      |>.setMemWord 0x1000001C 1 with hops := [h] }

/-- A hub whose strand 5 runs. -/
def rs : State := up.put (STR_STATUS_RUN 5) 1

/-- A ready strand 5 of a running wale, whose edge 0 was placed at phase 0. -/
def rv : State := (((rs.put (STR_STATUS_READY 5) 1).put (WAL_BIND_BOUND 0) 1).put (RIM_FREQ_HI_N 0) 8).setStrand 5 { ys := [0], ts := [2 ^ 52], qs := [0] }
/-- The check TDC of its wale stands at it. -/
def rv5 : State := rv.put (WAL_CHECK_NEXT 0) 5

/-- The host's virtual functions are on. -/
def vf (n : Nat) (s : State) : State := { s with host := { s.host with vfs := n } }
/-- A hub whose reed `n` is basket 0's. -/
def rd (n : Nat) : State := (up.put (REED_CFG_ASSIGNED n) 1).put (REED_RES_TAIL_TAIL n) 3

/-- Unit `u` runs a calibration at stage `st`. -/
def cu (u x : Nat) (st : CalStage) (rot : Bool) : State :=
  { up with units := [(u, { run := some ⟨x, false, st, 5, rot, {}, {}⟩ })] }

/-- Lane `p` in phase `ph`. -/
def la (p ph : Nat) : State := up.put (LANE_STATUS_PHASE p) ph
/-- A bond of lane 4 alone, in ENUMERATE. -/
def ln : State :=
  let s := ((la 4 4).put (LANE_STATUS_HANDLE 4) 95).put (LANE_PTN_STATUS_FIRST 95) 4
  s.setLane 4 { agreed := some ⟨0, false, true, 1, 0, 4, 95, false⟩, cap := some (0, 0), heard := some .enum }

/-- A hub whose partner 95 is present on lane 4, ACTIVE, and basket 0's. -/
def pt : State :=
  let s := ((la 4 5).put (LANE_PTN_STATUS_PRESENT 95) 1).put (LANE_PTN_STATUS_FIRST 95) 4
  s.put (LANE_PTN_BIND_BOUND 95) 1

/-- The load is in state `st`. -/
def pl (st : Nat) : State := up.put PLAN_STATUS_STATE st

/-- `ws` in the fuses from word `lo` on. -/
def fuseAt (lo : Nat) (ws : List Nat) (s : State) : State := { s with fuses := ws.zipIdx.map fun e => (lo + e.2, BitVec.ofNat 32 e.1) }
/-- OWNED, with a key in owner slot 0, of which `signedPlan` bears the signature. -/
def owned : State := fuseAt 32
  [0x717f283d, 0xbbe47bad, 0x21889b77, 0xc77ad70a, 0x1f9c2037, 0x1cb6c4fd, 0x9be72979, 0x7a6e3d52, 0xa58d03ef, 0xc6505cc7, 0x3924b495, 0x4fcf12fe, 0x4e6c2719, 0xf4614f87, 0xd52220d8, 0x75a2eaa6, 0xd73f7be1, 0xbcb2e32c, 0xf9902ca3, 0x2822930, 0x21d64c6c, 0x4d06e47d, 0xca298d95, 0xf4b8760e]
  ((up.put LC_STATUS_STATE 2).put ⟨LC_STATUS, 13, 1⟩ 1)
/-- A header, a directory, a DEVICE section and a signature. -/
def signedPlan : List Word := List.map (BitVec.ofNat 32)
  [0x4c505657, 0x1, 0x32, 0x1, 0x1, 0x0, 0x0, 0x1, 0x0, 0x0, 0x0, 0x0, 0x0, 0x0, 0x0, 0x0, 0x1, 0x12, 0x10101, 0x5, 0x0, 0x0, 0x0, 0x0, 0x0, 0x7ee47fa6, 0xf90dd14f, 0x2623aa2e, 0xf028ec04, 0xc5fc05dd, 0x110fb992, 0x60a49194, 0x922c8365, 0x78377d65, 0x6a6546bf, 0x43f8652f, 0xfb547ab6, 0xbed626ac, 0xf90dd14f, 0x2623aa2e, 0xf028ec04, 0xc5fc05dd, 0x110fb992, 0x60a49194, 0x922c8365, 0x78377d65, 0x6a6546bf, 0x43f8652f, 0xfb547ab6, 0xbed626ac]

/-- A response under verification that the key in owner slot 0 signed. -/
def signedResp : State :=
  let s := fuseAt 32
    [0xf3fe2877, 0x56c6f65e, 0xfda63ce9, 0xaa1793d, 0xfb86867b, 0x2e33174d, 0x77df64a7, 0x544c2b1f, 0xe01556ec, 0xb1dc5343, 0x6fb9fc2d, 0x1a88c685, 0x842d490c, 0x22b7defd, 0x751a0a8c, 0xaf79e182, 0x3c9ffb97, 0xe28cdb57, 0xf973362a, 0x57d62589, 0x39374832, 0xfe175f74, 0xbed494cb, 0xe634af9e]
    (((up.put LC_STATUS_STATE 2).put ⟨LC_STATUS, 13, 1⟩ 1).put BSK_KEEPER_STATUS_STATE 3)
  { s with keeper := { s.keeper with key := 0, nonce := 1 :: List.replicate 11 0, resp := List.map (BitVec.ofNat 32) [0x33f33619, 0xe0c07d76, 0xea0eee6a, 0xe5aa02af, 0x151db541, 0xb81852a0, 0x13eb21c4, 0x53eb56bf, 0xe9416e23, 0x8745ac99, 0x19800ada, 0x4f7c4eef, 0x33f33619, 0xe0c07d76, 0xea0eee6a, 0xe5aa02af, 0x151db541, 0xb81852a0, 0x13eb21c4, 0x53eb56bf, 0xe9416e23, 0x8745ac99, 0x19800ada, 0x4f7c4eef] } }

/-- A hub in reset with VDD_IO good, at static address 0x35 and dynamic address `d`. -/
def sd (d : Option Nat) : State :=
  let s := State.reset.put ⟨DEV_SB_RAILS, 6, 1⟩ 1
  { s with sb := { s.sb with stat := some 0x35, dyn := d } }

/-- An injection of RES_FAULT on strand 0, which is bound to basket 0. -/
def inj : State :=
  let s := (up.put (WAL_BIND_BOUND 0) 1).put (BSK_STATUS_STATE 0) 1
  { s with opnds := [(FC_FORCE0 0, BitVec.ofNat 32 (0x3000 + 65536 * FaultKind.resFault.code))] }

/-- A hub in reset, every rail good and every strap settled. -/
def rg : State :=
  let s := (State.reset.setReg DEV_SB_RAILS 0xFF#32).put DEV_SB_STRAP_STABLE 1
  { s with pwr := { steady := (List.range 8).map fun j => (j, 100) } }

/-- Wale 63 splices strand 1023, in phase `ph` after `n` tries. -/
def sl (ph : SplicePhase) (n : Nat) : State := { up with splices := [(63, ⟨1023, ph, n, 0, false⟩)] }

/-- A hub in FACTORY whose keeper is attached under the part's own key 2, with the confirmation's word ready. -/
def lf : State := (up.put LC_STATUS_STATE 1).put BSK_KEEPER_STATUS_KEY_ID 2
/-- A vendor key, and a RETURN whose token it signed. -/
def vendorKey : List Nat := [0x40b48188, 0x5ce268c2, 0x105399f0, 0x1e2610f, 0x14670dec, 0x1faef42f, 0xaedba38e, 0x22221b6a, 0x772db3c6, 0x8277ef47, 0x3b58645c, 0x851cd3fc, 0xf71135a, 0x22303d9c, 0x17020dbc, 0x3ccbbe71, 0xba8ee8b5, 0xecb87351, 0xe4ce65a, 0xdd18cd6e, 0x2e61a25, 0xb3ae6d45, 0xaf1d0f68, 0x5cc2793f]
def returnJob : LcJob := { code := 5, slot := 0, args := [], nonce := 2 :: List.replicate 11 0, token := List.map (BitVec.ofNat 32) [0x3d582a22, 0xeef25ab2, 0x228fc266, 0xe3dbe02d, 0xe04c5229, 0x911f8f69, 0xa437e371, 0x2e0fddeb, 0xb1bddb3f, 0x7d5d01e3, 0x8d49634d, 0x9974c4af, 0x3d582a22, 0xeef25ab2, 0x228fc266, 0xe3dbe02d, 0xe04c5229, 0x911f8f69, 0xa437e371, 0x2e0fddeb, 0xb1bddb3f, 0x7d5d01e3, 0x8d49634d, 0x9974c4af] }

/-- A key for owner slot 1, and what it signed for a debug session. -/
def debugKey : List Nat := [0xf8a8d9c2, 0xc182a77d, 0x150bcd6, 0x142512b9, 0xdfdc69b1, 0xfcc8d885, 0xd11c90d9, 0x71f141b6, 0xbaf2a71a, 0x5425f57b, 0x53eeded8, 0xf2e83239, 0x70e708da, 0xb0baf392, 0x85561d2a, 0xfd24df5d, 0x8aa31d5, 0xc03ab39a, 0x95c2bffe, 0xd76a9172, 0xce384f58, 0x1cba7a7c, 0x13a87010, 0xec32c713]
def debugNonce : List Word := 2 :: List.replicate 11 0
def debugSig : List Word := List.map (BitVec.ofNat 32)
  [0x135c09af, 0xc7abb43c, 0xae4b1a84, 0x738e4577, 0xa2d924fb, 0x7645eef6, 0x474caa85, 0x173d4c7e, 0x5b5c0f3f, 0xbe33a18f, 0x5effedec, 0x2167aa63, 0x135c09af, 0xc7abb43c, 0xae4b1a84, 0x738e4577, 0xa2d924fb, 0x7645eef6, 0x474caa85, 0x173d4c7e, 0x5b5c0f3f, 0xbe33a18f, 0x5effedec, 0x2167aa63]

theorem witness_EmptyQueueTicks :
    up.pending = [] ∧ up.get TAL_STATUS_STATE = 0 ∧ ({ up with hrt := { up.hrt with moving := true } } : State).hrt.moving = true ∧
      ({ up.put TAL_STATUS_STATE 1 with hrt := { up.hrt with everLocked := true } } : State).get TAL_STATUS_STATE ≠ 0 := by decide +kernel

theorem witness_StepKeepsCanon : up.canon ∧ ∃ t, step { up with pending := [.historyValid] } = .next t := ⟨by unfold State.canon; decide, _, rfl⟩

theorem witness_StepKeepsBlownFuses : (blow 0 1 up).blown 0 0 ∧ ∃ t, step (blow 0 1 up) = .next t := ⟨by unfold State.blown; decide, _, rfl⟩

theorem witness_LifeCycleNeverGoesBack : (blow 3 2 (blow 0 5 up)).fusedState = 3 ∧ (blow 3 2 (blow 0 5 up)).revoked 1 = true := by decide +kernel

theorem witness_KeeperGate :
    up.hostOk 65 = true ∧ (up.bufs.find? fun e => e.1 == 65) = none ∧ up.enabledAt PLAN_CMD = true ∧ up.isKeeper 65 = false := by decide +kernel

theorem witness_SourceMonitors :
    (xr.flag HRT_SRC_STATUS_XREF_PRESENT = true ∧ xr.flag (HRT_SRC_STATUS_ACT 2) = true) ∧
    (xr.flag HRT_SRC_STATUS_XREF_PRESENT = true ∧ xr.get (HRT_SRC_STATUS_QSTATE 2) = 0) ∧
    ((xr.put (HRT_SRC_STATUS_QSTATE 2) 1).get (HRT_SRC_STATUS_QSTATE 2) = 1) ∧ up.get (HRT_SRC_STATUS_QSTATE 1) = 0 ∧
    (let s := (xr.put (HRT_SRC_STATUS_QSTATE 2) 2).put HRT_STATUS_STATE 1
     2 ≤ s.get (HRT_SRC_STATUS_QSTATE 2) ∧ s.get HRT_STATUS_SEL ≠ 2 ∧ s.hearthTimebase = true) ∧
    (let s := up.put (HRT_SRC_STATUS_QSTATE 1) 3
     2 ≤ s.get (HRT_SRC_STATUS_QSTATE 1) ∧ 100000 * s.get HRT_MON_CFG_PHIT < (1000001 : Int).natAbs) := by decide +kernel

theorem witness_SourceSelection :
    ((∃ x ∈ [2, 0], x < 3 ∧ (up.put (HRT_SRC_STATUS_QSTATE 2) 2).get (HRT_SRC_STATUS_QSTATE x) = 2) ∧ up.get HRT_STATUS_STATE = 0) ∧
    (up.get HRT_STATUS_SEL = 3) ∧ (lk.get HRT_STATUS_SEL = 1 ∧ lk.get (HRT_SRC_STATUS_QSTATE 1) ≠ 3 ∧ lk.get HRT_STATUS_STATE = 1 ∧ lk.bestSource = none) ∧
    (lk.put (HRT_SRC_STATUS_QSTATE 0) 3).bestSource = some 0 ∧
    (let s := (lk.put (HRT_SRC_STATUS_QSTATE 0) 3).put HRT_CTRL_REVERTIVE 1
     s.get HRT_STATUS_STATE = 1 ∧ s.get HRT_CTRL_MODE = 0 ∧ s.flag HRT_CTRL_REVERTIVE = true ∧ s.get (HRT_SRC_STATUS_QSTATE 0) = 3 ∧
       s.rank 0 < s.rank (s.get HRT_STATUS_SEL)) := by decide +kernel

theorem witness_UnlockAndReacquisition :
    lk.get HRT_STATUS_STATE = 1 ∧
    (let s := ({ (lk.put HRT_STATUS_STATE 3).put (HRT_SRC_STATUS_QSTATE 1) 3 with hrt := { everLocked := true } } : State)
     s.get HRT_STATUS_STATE = 3 ∧ s.get HRT_STATUS_SEL < 3 ∧ s.get (HRT_SRC_STATUS_QSTATE (s.get HRT_STATUS_SEL)) = 3 ∧ s.hrt.everLocked = true) := by
  decide

theorem witness_HearthLockAndLoss :
    (let s := (up.put HRT_STATUS_SEL 2).put (HRT_SRC_STATUS_QSTATE 2) 3
     s.get HRT_STATUS_STATE = 0 ∧ s.get HRT_STATUS_SEL < 3 ∧ s.get (HRT_SRC_STATUS_QSTATE (s.get HRT_STATUS_SEL)) = 3) ∧
    lk.get HRT_STATUS_STATE = 1 ∧ (lk.put HRT_STATUS_STATE 2).get HRT_STATUS_STATE = 2 ∧ (lk.put HRT_STATUS_STATE 3).get HRT_STATUS_STATE = 3 := by decide +kernel

theorem witness_HearthCommands :
    up.opens 0 HRT_CMD true ∧ up.opens 0 HRT_CTRL true ∧ up.opens 0 HRT_XREF_SETTLE true ∧ xr.opens 0 HRT_CMD true ∧
    xr.flag HRT_SRC_STATUS_XREF_PRESENT = true ∧ (up.put HRT_CTRL_MODE 1).get HRT_CTRL_MODE = 1 ∧
    ((lk.put (HRT_SRC_STATUS_QSTATE 0) 3).bestSource = some 0 ∧ (lk.put (HRT_SRC_STATUS_QSTATE 0) 3).get HRT_CTRL_MODE ≠ 1) ∧
    (let t := (up.setReg HRT_CTRL 0x0A370000#32)
     t.get HRT_STATUS_STATE = 0 ∧ t.get HRT_CTRL_MODE = 0) :=
  ⟨opens_of (by decide +kernel), opens_of (by decide +kernel), opens_of (by decide +kernel), opens_of (by decide +kernel), by decide +kernel, by decide +kernel, by decide +kernel, by decide +kernel⟩

theorem witness_RimLockAndUnlock :
    (up.put (RIM_STATUS_STATE 15) 1).get (RIM_STATUS_STATE 15) = 1 ∧
    (let s := ((up.put (RIM_FREQ_HI_N 3) 8).put (RIM_STATUS_STATE 3) 2)
     s.logicalRim 3 = some 3 ∧ s.get (RIM_STATUS_STATE 3) = 2) ∧
    (let s := (((up.put (RIM_FREQ_HI_N 3) 8).put (RIM_STATUS_STATE 3) 5).setRim 3 { mig := some { spare := 17, hitless := true, locked := false, toMove := [], moved := [] } })
     s.logicalRim 3 = some 3 ∧ s.get (RIM_STATUS_STATE 3) = 5 ∧ (s.rim 3).mig = some { spare := 17, hitless := true, locked := false, toMove := [], moved := [] } ∧
     s.logicalRim 17 = none ∧ s.spareOf 17 = some 3) ∧
    (let s := (up.put (RIM_STATUS_STATE 0) 4).setRim 0 { relockRun := true }
     s.get (RIM_STATUS_STATE 0) = 4 ∧ (s.rim 0).relockRun = true) ∧
    (let s := up.put (RIM_STATUS_STATE 7) 3
     s.get (RIM_STATUS_STATE 7) = 3) := by decide +kernel

theorem witness_RimMigrations :
    (let s := up.put (RIM_STATUS_STATE 2) 2
     s.opens 0 RIM_MIGRATE true ∧ s.lowestFreeRim = some 16 ∧ s.anyMigration = false ∧ s.rimSplicing 2 = false ∧ s.loadIncludesRim 2 = false) ∧
    (let s := up.setRim 2 { mig := some { spare := 17, hitless := true, locked := false, toMove := [], moved := [] } }
     (s.rim 2).mig = some { spare := 17, hitless := true, locked := false, toMove := [], moved := [] }) ∧
    (let s := up.setRim 2 { mig := some { spare := 17, hitless := true, locked := true, toMove := [5], moved := [] } }
     (s.rim 2).mig = some { spare := 17, hitless := true, locked := true, toMove := [5], moved := [] }) :=
  ⟨⟨opens_of (by decide +kernel), by decide +kernel⟩, by decide +kernel, by decide +kernel⟩

theorem witness_SyncMessages :
    wl.laneActive 1 = true ∧ wl.flag (LANE_STATUS_REPLAY 1) = false ∧ (wl.put (LANE_STATUS_REPLAY 1) 1).flag (LANE_STATUS_REPLAY 1) = true ∧
    wl.laneActive 3 = false ∧ (wl.put (LANE_STATUS_PHASE 3) 5).laneActive 3 = true ∧ ((wl.put (LANE_STATUS_PHASE 3) 5).link 3).episode = none ∧
    (wl.dom 1).seq = some 65535 ∧ wl.domState 1 = 0 ∧ (wl.put (domFld 1) 2).domState 1 ≠ 0 ∧ wl.get TAL_STATUS_STATE = 0 := by decide +kernel

theorem witness_DelayExchanges :
    bt.requester 20 = true ∧ (wl.put (LANE_STATUS_PHASE 3) 5).laneActive 3 = true ∧ wl.requester 1 = true ∧
    (let s : State := { wl with tal := { reqs := [(1, 9, 100)] } }
     (s.tal.reqs.find? fun r => r.1 == 1 && r.2.1 == 9) = some (1, 9, 100) ∧ s.requester 1 = true) ∧
    up.opens 0 TAL_CMD true ∧ up.opens 0 TAL_ASYM_B true ∧
    (bt.get (LANE_PTN_STATUS_FIRST 7) = 20 ∧ bt.flag (LANE_PTN_STATUS_PRESENT 7) = true ∧ bt.flag (LANE_PTN_STATUS_TIME 7) = true ∧
     bt.laneActive 20 = true ∧ bt.flag (LANE_STATUS_REPLAY 20) = false) :=
  ⟨by decide +kernel, by decide +kernel, by decide +kernel, by decide +kernel, opens_of (by decide +kernel), opens_of (by decide +kernel), by decide +kernel⟩

theorem witness_TallyStates :
    (let s := (up.put (domFld 0) 2).put TAL_STATUS_STATE 2
     s.domState 0 ≠ 0 ∧ s.get TAL_STATUS_SEL = 3 ∧ cmdDomain s = some 0 ∧ firstValid s = some 0 ∧ domOrder s = [0, 1]) ∧
    (let s := (((up.put (domFld 0) 2).put TAL_STATUS_STATE 2).put TAL_STATUS_SEL 0)
     s.get TAL_STATUS_SEL = 0 ∧ s.domState 1 ≠ 2 ∧ (s.put (domFld 1) 2).domState 1 = 2 ∧ (s.put TAL_CTRL_REVERTIVE 1).flag TAL_CTRL_REVERTIVE = true) ∧
    (let t := ((up.put TAL_STATUS_STATE 3).put (domFld 0) 2)
     t.get TAL_STATUS_STATE = 3 ∧ (t.dom 0).off.natAbs ≤ usec (t.get TAL_DOM_CFG_STEP_THR)) ∧
    up.get TAL_STATUS_STATE = 0 ∧ cmdDomain up = none ∧ firstValid up = none ∧ (up.put TAL_STATUS_STATE 1).get TAL_STATUS_STATE = 1 ∧
    up.opens 0 TAL_CMD true ∧ up.opens 0 TAL_NOW0 false :=
  ⟨by decide +kernel, by decide +kernel, by decide +kernel, by decide +kernel, by decide +kernel, by decide +kernel, by decide +kernel, opens_of (by decide +kernel), opens_of (by decide +kernel)⟩

theorem witness_CommandsEnterRings :
    (let s := hr 1
     let p : Parsed := ⟨.host 3, false, 1, 0, 0, 0⟩
     s.incoming (.host 3) = some p ∧ s.addressed p = true ∧ s.parseCheck p = none ∧ s.abortsAll = false ∧ s.canReserve 0 = true) ∧
    (let p : Parsed := ⟨.lane 0, true, 1, 0, 0, 0⟩
     lr.incoming (.lane 0 true 1 0 0 0) = some p ∧ lr.addressed p = true ∧ lr.parseCheck p = none ∧ lr.abortsAll = false ∧ lr.creditOf 0 p = some (5, 0)) := by
  decide +kernel

theorem witness_CommandsActedOnAtParse :
    ((hr 15).incoming (.host 3) = some ⟨.host 3, false, 15, 0, 0, 0⟩) ∧
    (lr.incoming (.lane 0 true 0x401 0 0 0) = some ⟨.lane 0, true, 0x401, 0, 0, 0⟩ ∧ lr.addressed ⟨.lane 0, true, 0x401, 0, 0, 0⟩ = false) ∧
    ((hr 7).incoming (.host 3) = some ⟨.host 3, false, 7, 0, 0, 0⟩ ∧ (hr 7).addressed ⟨.host 3, false, 7, 0, 0, 0⟩ = true) ∧
    (lr.parseCheck ⟨.lane 1, true, 1, 0, 0, 0⟩ = some (0x11, 0)) ∧
    (let s := (hr 1).put FC_STATUS_G_ACTIVE 1
     s.incoming (.host 3) = some ⟨.host 3, false, 1, 0, 0, 0⟩ ∧ s.parseCheck ⟨.host 3, false, 1, 0, 0, 0⟩ = none ∧ s.abortsAll = true) := by decide +kernel

theorem witness_CommitAndSquash :
    (let p : Parsed := ⟨.host 3, false, 2, 0, 0, 0⟩
     (hr 2).incoming (.host 3) = some p ∧ (hr 2).parseCheck p = none ∧ (hr 2).abortsAll = false ∧ (hr 2).tagHop 0 0 = none ∧
       ({ hr 2 with hops := [sp .speculative false] } : State).tagHop 0 0 = some (sp .speculative false) ∧
       ({ hr 2 with hops := [sp .queued false] } : State).tagHop 0 0 = some (sp .queued false)) ∧
    (let p : Parsed := ⟨.host 3, false, 3, 0, 0, 0⟩
     (hr 3).incoming (.host 3) = some p ∧ (hr 3).parseCheck p = none ∧ (hr 3).abortsAll = false ∧ (hr 3).tagHop 0 0 = none ∧
       ({ hr 3 with hops := [sp .due true] } : State).tagHop 0 0 = some (sp .due true)) := by decide +kernel
theorem witness_CommitAndSquash_head :
    (let h : Hop := { sp .queued false with squashed := true }
     ({ hr 2 with hops := [h] } : State).ringHead? 3 = some h ∧ h.aborting = false ∧ h.squashed = true ∧ h.released = false ∧ h.reserved = true ∧
       ({ hr 2 with hops := [h] } : State).tagHop 0 0 = some h) ∧ (sp .due true).released = true := by decide +kernel

theorem witness_UrgentFrames :
    let p : Parsed := ⟨.lane 0, true, 0x21, 0, 0, 0⟩
    let s := (lr.put (RING_DESC1_CLASS 5) 2)
    s.incoming (.lane 0 true 0x21 0 0 0) = some p ∧ s.addressed p = true ∧ s.parseCheck { p with urgent := false } = none ∧ cmdClass p.w0 ≠ 0 ∧
      (lr.put (BSK_SRC0_WARP_A 0) 0).parseCheck { p with urgent := false } = some (0x11, 0) := by
  decide +kernel

theorem witness_HopGrantAndFetch :
    ((gr (fh .queued 1)).ringHead? 3 = some (fh .queued 1) ∧ (gr (fh .queued 1)).grantable (fh .queued 1) = true ∧
      (gr (fh .queued 1)).canAnswer (fh .queued 1) = true ∧
      (gr (fh .queued 1)).outranked (fh .queued 1) = false ∧ ((grantSlot (fh .queued 1) (gr (fh .queued 1))).hop? 0).map Hop.op = some 1) ∧
    (let s := gr (fh .fetching 1)
     s.hop? 0 = some (fh .fetching 1) ∧ (s.accessing (s.bankOf (fh .fetching 1))).map (·.id) = some 0 ∧
       recordFault 1 0 (s.get (BSK_PROF_QUOTA_QUOTA 0)) false (s.record 0) = none ∧
       rampRefused 1 (settingOf (s.record 0) 0) = false ∧
       recordFault 1 0 ((s.put (BSK_PROF_QUOTA_QUOTA 0) 0).get (BSK_PROF_QUOTA_QUOTA 0)) false (s.record 0) = some 1 ∧
       recordFault 1 0 1 true (s.record 0) = some 2) ∧
    ((sp .fetching false).spec = true ∧ (fh .fetching 1).spec = false) ∧ (((gr (fh .armed 1)).put (RIM_STATUS_STATE 0) 5).blocked (fh .armed 1)) = some 7 := by decide +kernel

theorem witness_HopEnds :
    (let s : State := { (hr 1).put (STR_STATUS_RUN 0) 1 with hops := [fh .due 1, { fh .due 6 with id := 1, armSeq := 1 }] }
     ((s.hops.filter fun h => h.st == .due && h.target == 0)).find? (fun h => s.hops.all fun g => g.id == h.id || precedes h g) =
       some { fh .due 6 with id := 1, armSeq := 1 } ∧ s.flag (STR_STATUS_RUN 0) = true ∧ (s.strand 0).pend = false) ∧
    (fh .due 1).timed = false ∧ (fh .due 0x11).timed = true ∧
    (let s : State := { (hr 1).put (RIM_STATUS_STATE 0) 2 with hops := [fh .due 5] }
     s.flag (STR_STATUS_RUN 0) = false ∧ (s.strand 0).parent = none ∧ (s.blocked (fh .due 5)).isNone = true ∧ s.startLate 0 (fh .due 5) = false ∧
       s.startPoint (fh .due 5) = some 0) ∧
    (let s : State := { hr 1 with hops := [fh .due 4], rims := [] }
     let t := s.put (RIM_STATUS_STATE 0) 2
     (t.hops.filter fun h => h.st == .due && h.op == 4 && h.rim == 0 && (t.blocked h).isNone) = [fh .due 4]) ∧
    (((gr (fh .held 1)).put (RIM_STATUS_STATE 0) 5).hop? 0 = some (fh .held 1) ∧ ((gr (fh .held 1)).put (RIM_STATUS_STATE 0) 5).blocked (fh .held 1) = some 7) ∧
    (let h := fh .armed 0x14
     let s := (gr h).put (RIM_STATUS_STATE 0) 2
     s.hop? 0 = some h ∧ h.timed = true ∧ s.leadReached 0 = true ∧ s.blocked h = none ∧ h.fire ≤ s.tally) ∧
    ((gr (sp .speculative false)).hop? 0 = some (sp .speculative false)) := by decide +kernel

theorem witness_DutyAndPlacement : 16 * 2 ^ 48 ≤ 1 * (16 * 2 ^ 48) ∧ 2 ^ 40 - 1 < 2 ^ 40 ∧ (State.reset.around 5).par = none := by decide +kernel

theorem witness_SlewsAndRamps :
    (let x : Strand := { ramp := some ⟨2 ^ 53, 1, 2, 0, 0⟩ }
     let a : Around := {}
     x.ramp = some ⟨2 ^ 53, 1, 2, 0, 0⟩ ∧ a.par = none ∧ a.elig = true ∧ x.pend = false) ∧
    (((8 * 2 ^ 48 : Nat) : Int) + 8 * 2 ^ 48 ≤ ((17 * 2 ^ 48 : Nat) : Int)) ∧ rampPeriod 100 (1 * 101) 1 = 1 * 101 ∧ rampPeriod 100 (1 * 400) 1 ≠ 1 * 400 := by decide +kernel

theorem witness_StrandMotion :
    (let s := (rs.setStrand 5 { ramp := some ⟨2 ^ 53, 1, 2, 0, 0⟩ }).put (WAL_BIND_BOUND 0) 1
     ((runEdges 5 0 s).strand 5).ramp = some ⟨2 ^ 53, 1, 2, 0, 0⟩ ∧ (runEdges 5 0 s).ineligible 5 = none ∧ ((runEdges 5 0 s).strand 5).pend = false) ∧
    (let s := rs.setStrand 5 { ramp := some ⟨2 ^ 53, 1, 2, 0, 3⟩, pend := true }
     ((runEdges 5 0 s).strand 5).ramp = some ⟨2 ^ 53, 1, 2, 0, 3⟩ ∧ ((runEdges 5 0 s).strand 5).pend = true) ∧
    (rs.flag (STR_STATUS_RUN 5) = true ∧ ((rs.setStrand 5 { slewing := true }).strand 5).slewing = true) ∧
    (let s : State := { rs with moving := [5] }
     s.moving.contains 5 = true ∧ (runEdges 5 0 s).planNow.strand? 5 = none) := by decide +kernel
theorem witness_StrandMotion_cmds :
    up.opens 0 STR_CMD false ∧ up.opens 65 (STR_ACC0 1023) false ∧
    (let s := { up.put (DEV_BLK_EN_EN) 0x7FFF with host := { up.host with vfs := 64 } }
     s.opens 64 STR_CMD false ∧ s.strandBasket 0 ≠ some 63) := ⟨opens_of (by decide +kernel), opens_of (by decide +kernel), opens_of (by decide +kernel), by decide +kernel⟩

theorem witness_ResidualVisits :
    (rv5.enabled 5 = true ∧ 5 = rv5.posFrom 0 (rv5.get (WAL_CHECK_NEXT 0)) ∧ rv5.posVisitable 0 5 = true ∧ rv5.visited 0 5 = some 5 ∧
      rv5.residuals 5 0 [0] ≠ [] ∧ rv5.residuals 5 0 [] = [] ∧ rv5.posVisitable 0 6 = false) ∧
    (let s : State := { rv with splices := [(63, ⟨1008, .shadow, 0, 0, false⟩)] }
     16 = s.posFrom 63 16 ∧ s.posVisitable 63 16 = true ∧ s.visited 63 16 = none ∧ s.shadowed 63 = some 1008) ∧
    (let s := rv.put (STR_STATUS_NR_RES 5) 1
     s.flag (STR_STATUS_NR_RES 5) = true ∧ s.flag (STR_STATUS_RUN 5) = true ∧ s.flag (STR_STATUS_STALE 5) = false ∧ s.underCal 5 = false) ∧
    (rv.setStrand 5 { awaitVisit := true }).strand 5 = { awaitVisit := true } := by decide +kernel
theorem witness_ResidualVisits_ends :
    rv5.visitPasses 5 (rv5.residuals 5 0 [0]) = true ∧ rv5.visitPasses 5 (rv5.residuals 5 0 [500]) = false := by decide +kernel

theorem witness_SpokeParking :
    up.get (SPK_STATUS_STATE 255) = 0 ∧ (up.put (SPK_STATUS_STATE 0) 2).get (SPK_STATUS_STATE 0) = 2 ∧ up.flag (SPK_STATUS_C_FW 9) = false ∧
    (up.flag (SPK_STATUS_C_UNROUTED 9) = true ∧ (up.put (SPK_STATUS_C_UNROUTED 9) 0).spokeCauses 9 = 0 ∧ (up.put (SPK_STATUS_C_UNROUTED 9) 0).spokeRuns 9 = false) ∧
    (let s := ((rs.put (SPK_CFG_ROUTED 9) 1).put (SPK_CFG_STRAND 9) 5)
     (s.put (SPK_STATUS_C_UNROUTED 9) 0).spokeRuns 9 = true) ∧ ((up.put (SPK_STATUS_C_FW 9) 1).put (SPK_STATUS_C_UNROUTED 9) 0).spokeCauses 9 ≠ 0 ∧
    (let s := (up.put (SPK_STATUS_C_UNROUTED 9) 0).put (SPK_STATUS_PEND 9) 1
     s.spokeCauses 9 = 0 ∧ s.spokeRuns 9 = false ∧ (spokeApply 9 s).flag (SPK_STATUS_C_FW 9) = true ∧ (spokeApply 9 s).flag (SPK_CFG_STOP_LEVEL 9) = false) := by decide +kernel

theorem witness_SpokeCommands :
    up.opens 0 (SPK_CFG 0) false ∧ up.opens 65 (SPK_CFG 255) false ∧ up.opens 0 SPK_FORCE true ∧
    (let s := ((((rs.put (SPK_CFG_ROUTED 9) 1).put (SPK_CFG_STRAND 9) 5).put (SPK_STATUS_PEND 9) 1).put (SPK_STATUS_STATE 9) 1).put (SPK_STATUS_C_UNROUTED 9) 0
     s.spokeRuns 9 = true ∧ s.flag (SPK_STATUS_PEND 9) = true ∧ (s.put (SPK_STATUS_C_FW 9) 0).reg (SPK_STATUS 9) &&& 0xFFF0#32 = 0#32) ∧
    (up.put (SPK_STATUS_STATE 9) 3).get (SPK_STATUS_STATE 9) = 3 :=
  ⟨opens_of (by decide +kernel), opens_of (by decide +kernel), opens_of (by decide +kernel), by decide +kernel, by decide +kernel⟩

theorem witness_ReedRuns :
    (rd 255).opens 0 REED_CMD false ∧ up.opens 0 REED_CMD false ∧ (rd 255).flag (REED_CFG_ASSIGNED 255) = true ∧ up.flag (REED_CFG_ASSIGNED 9) = false ∧
    (up.put (REED_STATUS_STATE 9) 2).get (REED_STATUS_STATE 9) = 2 ∧ up.get (REED_STATUS_STATE 255) = 0 ∧
    ((rd 255).put (REED_STATUS_STATE 255) 1).get (REED_STATUS_STATE 255) = 1 ∧ (up.put (REED_RES_HEAD_HEAD 0) 512).reedUsed 0 = 512 ∧
    (up.put (REED_STATUS_STATE 0) 1).reedUsed 0 < 512 ∧ (up.reedRun 0).cfg.toNat % 8 = 0 ∧
    up.opens 0 (REED_RES_TAIL 0) false ∧ up.opens 0 (REED_CFG 255) false ∧ (vf 33 up).opens 33 REED_CMD false :=
  ⟨opens_of (by decide +kernel), opens_of (by decide +kernel), by decide +kernel, by decide +kernel, by decide +kernel, by decide +kernel, by decide +kernel, by decide +kernel,
    by decide +kernel, by decide +kernel, opens_of (by decide +kernel), opens_of (by decide +kernel), opens_of (by decide +kernel)⟩

theorem witness_StrandCalibration :
    (((cu 63 5 .tdc false).unit 63).run.isSome = true ∧ (cu 63 5 .tdc false).unitPaused 63 = false ∧
      (List.replicate 1024 4096).length = 1024 ∧ (List.replicate 1024 4096).sum = 2 ^ 22 ∧ ((List.replicate 1023 4100) ++ [4]).sum = 2 ^ 22) ∧
    ((cu 0 5 (.sweep 2) true).unit 0).run.isSome = true ∧ (cu 0 5 (.sweep 2) true).unitPaused 0 = false ∧
    up.cellCheck 5 0 0 ⟨512, 0, [0], [], 0, true, true⟩ = none ∧ up.cellCheck 5 2 0 ⟨1008, 0, [], [], 0, true, true⟩ = some 2 ∧
    ((cu 0 5 (.handover 0) true).unit 0).run.isSome = true ∧ ((cu 0 5 (.handover 1) true).unit 0).run.isSome = true ∧
    ((cu 0 5 (.handover 2) true).unit 0).run.isSome = true ∧ ((cu 0 5 (.clearing true) true).unit 0).run.isSome = true := by decide +kernel
theorem witness_StrandCalibration_passes : (List.replicate (4096 * 256) ((0, 0) : Nat × Nat)).length = 4096 * 256 := List.length_replicate

theorem witness_ReedCalibration :
    ((cu 67 255 .density false).unit 67).run.isSome = true ∧ (cu 67 255 .density false).unitPaused 67 = false ∧ ((cu 64 0 .cross false).unit 64).run.isSome = true ∧
    (let s := ((cu 64 0 .density false).put (STR_STATUS_RUN 0) 1).put (STR_STATUS_READY 0) 1
     reedRef 0 (s.reg (REED_CFG 0)) = 0 ∧ s.flag (STR_STATUS_RUN 0) = true ∧ s.flag (STR_STATUS_READY 0) = true) ∧
    (List.replicate 2048 4096).length = 2048 ∧ (List.replicate 2048 4096).sum = 2 ^ 23 ∧ up.mget (recState (recReed 0)) = 0 := by decide +kernel

theorem witness_RimAndLaneCalibration :
    ((cu 68 19 .bands false).unit 68).run.isSome = true ∧ ((cu 68 19 .bands false).put HRT_STATUS_STATE 1).get HRT_STATUS_STATE = 1 ∧
    (cu 68 19 .bands false).unitPaused 68 = false ∧
    (let s := (((cu 68 2 .margin false).put (RIM_STATUS_PHYS 2) 2).put (RIM_STATUS_STATE 2) 2).put (RIM_FREQ_HI_N 2) 8
     (s.unit 68).run.isSome = true ∧ s.logicalRim 2 = some 2 ∧ s.get (RIM_STATUS_STATE 2) = 2) ∧
    ((cu 128 0 .eyeBefore false).unit 128).run.isSome = true ∧ (cu 128 0 .eyeBefore false).unitPaused 128 = false ∧
    ((cu 235 107 .tapOn false).unit 235).run.isSome = true ∧ ((cu 235 107 .eyeAfter false).unit 235).run.isSome = true ∧
    (let l := (List.range 64).map fun b => (0x6B0000000 + b * 0x8000000, 0x6B0000000 + b * 0x8000000 + 0x30000000)
     (List.range 64).filter (bandFails l) = [] ∧ bandsCover l = true) ∧
    bandsCover (List.replicate 64 (0, 1)) = false := by decide +kernel

theorem witness_CalibrationAges :
    (let s := (cu 0 5 .tdc false).put RING_CAP_PACE 2
     (s.unit 0).run.isSome = true ∧ s.unitPaused 0 = true) ∧
    (up.mput (recState (recReed 255)) 1).mget (recState (recReed 255)) ≠ 0 ∧
    (up.mput (recState (recStrand 1087)) 1).mget (recState (recStrand 1087)) ≠ 0 ∧ up.mget (recState (recStrand 5)) = 0 ∧
    (let j : NvmJob := ⟨6, 1, up.bodyOf 6⟩
     ({ up with nvmRun := some j } : State).nvmRun = some j ∧ j.body.tag.toNat % 256 = j.group ∧ lengthOk j.group j.body.len.toNat = true) ∧
    (let j : NvmJob := ⟨7, 1, {}⟩
     ({ up with nvmRun := some j } : State).nvmRun = some j) := by decide +kernel

theorem witness_DoorbellsCreditsCapacity :
    up.opens 0 RING_DB false ∧ up.opens 0 (RING_BSK_PEAK 63) false ∧ up.opens 0 RING_ARM_TOTAL true ∧
    (let s := (up.put (RING_DESC1_KIND 3) 1).put (RING_DESC1_DEPTH_EXP 3) 4
     s.get (RING_DESC1_KIND 3) = 1 ∧ s.ringUsed 3 = 0 ∧ 0 < s.ringDepth 3) ∧
    (let s := ((up.put (RING_DESC1_KIND 32767) 3).put (RING_DESC1_DEPTH_EXP 32767) 4).put (RING_PROD_IDX 32767) 2
     s.get (RING_DESC1_KIND 32767) = 3 ∧ s.ringUsed 32767 = 2) ∧ up.get (RING_DESC1_KIND 9) = 0 ∧
    (let s := lr.put (RING_SRC_OUT_OWED 5 0) 3
     s.get (RING_SRC_OUT_OWED 5 0) = 3 ∧ s.sourceActive (s.get (RING_SRC_SRC 5 0)) = true) ∧ up.get (RING_SRC_OUT_OWED 0 5) = 0 ∧
    (let s := { up.put (RING_BSK_RES0_RES_TMD 7) 1 with cap := 0 }
     s.cap < 1000 * s.resTotal ∧ s.nextTmd = some 7) ∧ 1000 * up.resTotal ≤ up.cap ∧
    (let s := { up with withdrawn := [3], cap := 100 }
     105 * 1000 * (s.resTotal + s.get (RING_BSK_RES0_RES_TMD 3)) ≤ 100 * s.cap) ∧
    (let s := { up.put (RING_BSK_RES0_RES_TMD 3) 9 with withdrawn := [3], cap := 0 }
     100 * s.cap < 105 * 1000 * (s.resTotal + s.get (RING_BSK_RES0_RES_TMD 3))) :=
  ⟨opens_of (by decide +kernel), opens_of (by decide +kernel), opens_of (by decide +kernel), by decide +kernel⟩

theorem witness_LaneBringUp :
    (la 0 0).get (LANE_STATUS_PHASE 0) = 0 ∧ ((la 2 0).put (LANE_STATUS_PHASE 0) 5).get (LANE_STATUS_PHASE 0) = 5 ∧ (la 107 0).get (LANE_STATUS_PHASE 107) = 0 ∧
    (up.setLane 4 { rates := 15 }).commonRate 4 15 0 = some 0 ∧ ((la 4 1).setLane 4 { rates := 15 }).commonRate 4 15 1 = some 1 ∧
    ((la 4 1).put (LANE_STATUS_RATE 4) 3).commonRate 4 15 4 = none ∧ ((up.setLane 0 { heard := some (.ts 7 15) }).lane 0).heard = some (.ts 7 15) ∧ (up.lane 0).heard = none ∧ (la 1 1).get (LANE_STATUS_PHASE 1) = 1 ∧ (la 107 2).get (LANE_STATUS_PHASE 107) = 2 ∧
    (la 1 3).get (LANE_STATUS_PHASE 1) = 3 ∧ (la 3 3).get (LANE_STATUS_PHASE 3) = 3 ∧ ((la 1 3).lane 1).agreed = none ∧
    (((la 4 3).setLane 4 { id16 := some 7 }).lane 4).id16 = some 7 ∧
    (((la 4 3).setLane 4 (ln.lane 4)).lane 4).agreed = some ⟨0, false, true, 1, 0, 4, 95, false⟩ ∧
    (((la 1 3).setLane 1 (ln.lane 4)).lane 1).agreed = some ⟨0, false, true, 1, 0, 4, 95, false⟩ ∧
    (ln.get (LANE_STATUS_PHASE 4) = 4 ∧ ln.linkOf 4 = 4 ∧ ln.linkLanes 4 = [4] ∧ (ln.lane 4).agreed = some ⟨0, false, true, 1, 0, 4, 95, false⟩) := by decide +kernel

theorem witness_LaneReplay :
    (la 0 5).parses 0 = true ∧ (la 107 6).laneCarries 107 = true ∧ (la 3 5).parses 3 = true ∧ (la 5 4).parses 5 = false ∧ (la 5 4).laneCarries 5 = false ∧
    (((la 0 5).setLane 0 { lost := true }).lane 0).lost = true ∧
    (let s := (la 0 5).setLink 2 { waiting := List.replicate 256 (.credit 1 0 0 0) }
     s.laneCarries 0 = true ∧ 256 ≤ (s.link (2 + s.linkOf 0)).unacked.length + (s.link (2 + s.linkOf 0)).waiting.length) ∧
    (let s := (la 0 5).setLink 0 { unacked := [(0, .credit 1 0 0 0)], nakked := true, owed := 1, episode := some ⟨0, 8, none, true⟩ }
     (s.link (s.linkOf 0)).unacked ≠ [] ∧ (s.link (s.linkOf 0)).nakked = true ∧ (s.link (s.linkOf 0)).owed ≠ 0 ∧ (s.link (s.linkOf 0)).episode = some ⟨0, 8, none, true⟩ ∧
       (s.link (2 + s.linkOf 0)).unacked.length + (s.link (2 + s.linkOf 0)).waiting.length < 256) ∧
    ((la 0 5).put (LANE_STATUS_FEC 0) 1).flag (LANE_STATUS_FEC 0) = true ∧ (la 1 0).get (LANE_STATUS_PHASE 1) = 0 ∧ (la 1 1).get (LANE_STATUS_PHASE 1) = 1 ∧
    (la 107 4).get (LANE_STATUS_PHASE 107) = 4 ∧ (la 107 2).get (LANE_STATUS_PHASE 107) = 2 := by decide +kernel

theorem witness_LaneDepartures :
    (la 1 3).get (LANE_STATUS_PHASE 1) = 3 ∧ (la 107 6).get (LANE_STATUS_PHASE 107) = 6 ∧ (la 0 2).get (LANE_STATUS_PHASE 0) = 2 ∧ (la 0 5).get (LANE_STATUS_PHASE 0) = 5 ∧
    (((la 1 3).link 1).stalled = none ∧ ((la 1 3).lane 1).heard = none ∧ (((la 1 3).setLane 1 { heard := some (.ret 2) }).lane 1).heard = some (.ret 2)) ∧
    ((up.setLink 7 { stalled := some (false, []) }).link 7).stalled.isSome = true ∧
    ((la 0 5).link 0).episode = none ∧ (((la 0 5).setLink 0 { episode := some ⟨0, 0, none, true⟩ }).link 0).episode.isSome = true ∧
    up.opens 0 LANE_CMD true ∧ up.handleOf 107 = none ∧
    (let s := ((up.put (LANE_PTN_BIND_BOUND 3) 1).put (LANE_PTN_BIND_SPARE 3) 1)
     s.handleOf 4 = some 3 ∧ s.flag (LANE_PTN_BIND_SPARE 3) = true) :=
  ⟨by decide +kernel, by decide +kernel, by decide +kernel, by decide +kernel, by decide +kernel, by decide +kernel, by decide +kernel, by decide +kernel,
    opens_of (by decide +kernel), by decide +kernel, by decide +kernel⟩

theorem witness_PartnerControl :
    pt.opens 0 (LANE_PCTL_CTRL 0) false ∧ pt.opens 65 (LANE_PCTL_RX_INFO 0) false ∧ (vf 1 pt).opens 1 (LANE_PCTL_CTRL 1) false ∧
    (pt.put (LANE_PCTL_STATUS_BUSY 0) 1).flag (LANE_PCTL_STATUS_BUSY 0) = true ∧ pt.flag (LANE_PCTL_STATUS_BUSY 0) = false ∧
    (let k := keepRsvl 0 (LANE_PCTL_CTRL 0) (BitVec.ofNat 32 (2 ^ 31 + 95)) pt
     k.flag (LANE_PCTL_STATUS_BUSY 0) = false ∧ k.ownPartner 0 95 = true ∧ k.sourceActive 95 = true ∧ k.ownPartner 2 95 = false) ∧
    (keepRsvl 0 (LANE_PCTL_CTRL 0) (BitVec.ofNat 32 (2 ^ 31)) (pt.put (LANE_PCTL_STATUS_BUSY 0) 1)).flag (LANE_PCTL_STATUS_BUSY 0) = true ∧
    pt.ownPartner 0 95 = true ∧ pt.sourceActive 95 = true ∧ pt.ownPartner 2 95 = false ∧ pt.partnerThere 95 = true ∧
    (∃ e ∈ (pt.setBox 0 ⟨some 95, true, []⟩).boxes, e.2.dest = some 95 ∧ e.2.late = true) ∧ pt.pctl.find? (fun e => e.1 == 95) = none ∧
    ({ pt with pctl := [(95, 0)] } : State).pctl.find? (fun e => e.1 == 95) = some (95, 0) ∧
    16 ≤ ((pt.setBox 0 ⟨none, false, List.replicate 16 (95, 0, 0)⟩).box 0).rx.length ∧
    ((pt.setBox 0 ⟨some 95, false, []⟩).box 0).dest = some 95 ∧ (pt.link (pt.get (LANE_PTN_STATUS_FIRST 95))).episode = none ∧
    ((pt.setBox 0 ⟨some 95, true, []⟩).box 0).late = true ∧ (pt.put (LANE_PCTL_RX_INFO_VALID 0) 1).flag (LANE_PCTL_RX_INFO_VALID 0) = true :=
  ⟨opens_of (by decide +kernel), opens_of (by decide +kernel), opens_of (by decide +kernel), by decide +kernel⟩

theorem witness_PlanCommandsByState :
    (pl 3).opens 0 PLAN_CMD true ∧ (pl 6).opens 0 PLAN_CMD true ∧ (pl 3).get PLAN_STATUS_STATE = 3 ∧ (pl 6).get PLAN_STATUS_STATE = 6 ∧
    (pl 3).load.frag = none ∧ (pl 3).load.words.length ≤ 16384 ∧ ({ pl 3 with load := { frag := some {} } } : State).load.frag.isSome = true :=
  ⟨opens_of (by decide +kernel), opens_of (by decide +kernel), by decide +kernel⟩

theorem witness_PlanLoad :
    (up.opens 0 PLAN_CMD true ∧ (up.put PWR_STATUS_STAGE 3).get PLAN_STATUS_STATE = 0 ∧ (up.put PWR_STATUS_STAGE 3).flag FC_STATUS_G_ACTIVE = false ∧
      (up.put PWR_STATUS_STAGE 3).get PWR_STATUS_STAGE = 3 ∧ (up.put PWR_STATUS_STAGE 4).get PWR_STATUS_STAGE ≠ 3) ∧
    ((up.put PWR_STATUS_STAGE 3).opens 0 PLAN_CMD true ∧ (pl 1).opens 0 PLAN_CMD true ∧ (pl 5).opens 0 PLAN_CMD true ∧ (pl 5).get PLAN_STATUS_STATE = 5 ∧
      ({ up with plan := some {} } : State).opens 0 PLAN_CMD true ∧ up.plan = none) ∧
    ((pl 1).hostOk 0 = true ∧ (pl 1).enabled 10 = true ∧ (pl 1).isKeeper 0 = true ∧ (pl 1).get PLAN_STATUS_STATE = 1 ∧ up.hostOk 65 = true) ∧
    ((pl 1).load.boot = false ∧ (pl 2).get PLAN_STATUS_STATE = 2) ∧
    (verifyPlan (pl 2) (pl 2).load.words).isOk = false ∧
    (let s : State := { owned.put PLAN_STATUS_STATE 2 with load := { words := signedPlan } }
     s.get PLAN_STATUS_STATE = 2 ∧ (verifyPlan s s.load.words).isOk = true) :=
  ⟨⟨opens_of (by decide +kernel), by decide +kernel⟩, ⟨opens_of (by decide +kernel), opens_of (by decide +kernel), opens_of (by decide +kernel), by decide +kernel, opens_of (by decide +kernel), by decide +kernel⟩,
    by decide +kernel, by decide +kernel, by decide +kernel, by decide +kernel⟩

theorem witness_PlanApplies :
    ((pl 5).get PLAN_STATUS_STATE = 5 ∧ (pl 5).commitWaits = false) ∧
    ((pl 6).get PLAN_STATUS_STATE = 6 ∧ (pl 6).load.frag = none ∧ ∀ n < 16, (pl 6).rimBound n = false ∨ (pl 6).rimSettled n = true) ∧
    (let s : State := { pl 6 with load := { frag := some {} } }
     s.load.frag = some {} ∧ s.moving = [] ∧ ∀ r ∈ ({} : Plan).recs sRIMS, s.rimSettled (recBits r 0 0 4) = true) := by decide +kernel

theorem witness_BasketsAndKeeper :
    ((up.put (BSK_STATUS_STATE 63) 3).opens 0 BSK_CMD true ∧ (up.put (BSK_STATUS_STATE 63) 3).get (BSK_STATUS_STATE 63) = 3 ∧ up.flag FC_STATUS_G_ACTIVE = false ∧
      up.get (BSK_STATUS_STATE 0) ≠ 3) ∧
    (up.opens 0 BSK_KEEPER_CMD false ∧ up.keeper.refuse = false ∧ ({ up with keeper := { up.keeper with refuse := true } } : State).opens 0 BSK_KEEPER_CMD false) ∧
    ((up.put BSK_KEEPER_STATUS_NONCE_VALID 1).opens 0 BSK_KEEPER_CMD false ∧ (up.put BSK_KEEPER_STATUS_NONCE_VALID 1).flag BSK_KEEPER_STATUS_NONCE_VALID = true ∧
      up.get BSK_KEEPER_STATUS_STATE = 1 ∧ up.get PLAN_STATUS_STATE = 0 ∧ (pl 1).opens 0 BSK_KEEPER_CMD false) ∧
    ((up.put BSK_KEEPER_STATUS_STATE 3).get BSK_KEEPER_STATUS_STATE = 3 ∧ signedResp.get BSK_KEEPER_STATUS_STATE = 3 ∧ signedResp.responseOk = true ∧ (up.put BSK_KEEPER_STATUS_STATE 3).responseOk = false) :=
  ⟨⟨opens_of (by decide +kernel), by decide +kernel⟩, ⟨opens_of (by decide +kernel), by decide +kernel, opens_of (by decide +kernel)⟩, ⟨opens_of (by decide +kernel), by decide +kernel, by decide +kernel, by decide +kernel,
    opens_of (by decide +kernel)⟩, by decide +kernel⟩

theorem witness_HostResets :
    (up.host.link = true ∧ (up.put DEV_SB_STATUS_STAGE 2).get DEV_SB_STATUS_STAGE = 2 ∧ ({ up with host := { up.host with perst := false } } : State).host.perst = false ∧ up.cfgOk 0 = true) ∧
    ((vf 64 up).cfgOk 64 = true ∧ (vf 64 up).host.vfs = 64 ∧ up.host.vfs = 0 ∧ up.small = false) ∧
    (let s : State := { up with host := { up.host with flr := [0, 64] } }
     0 ∈ s.host.flr ∧ 64 ∈ s.host.flr) := by decide +kernel

theorem witness_RegisterAccesses :
    (barLoc 0 TAL_DOM_CFG = .reg 0 TAL_DOM_CFG ∧ (regRow? TAL_DOM_CFG).isSome = true ∧ up.fusedOff TAL_DOM_CFG = false ∧ (match regRow? TAL_DOM_CFG with | some (row, _) => rangeOk TAL_DOM_CFG (checkedWord row (up.reg TAL_DOM_CFG) 0x404401#32) | none => false) = true ∧
      devCommand 0 TAL_DOM_CFG 0x404401#32 up = none ∧ regCommand {} true 0 TAL_DOM_CFG 0x404401#32 up = none ∧ up.enabledAt TAL_DOM_CFG = true) ∧
    (barLoc 0 (TAL_DOM_CFG + 0x4000) = .reg 1 TAL_DOM_CFG ∧ barLoc 0 (TAL_DOM_CFG + 0xC000) = .reg 3 TAL_DOM_CFG) ∧
    (up.opens 0 TAL_DOM_CFG false ∧ up.opens 0 DEV_BLK_EN true ∧ up.opens 65 (DEV_IND_ADDR 65) false ∧ up.hostOk 65 = true ∧ up.hostOk 0 = true) ∧
    (let s := up.setReg (DEV_IND_ADDR 0) 0x14FFFFFC#32
     indLoc 0 (s.reg (DEV_IND_ADDR 0)).toNat = .mem 0x14FFFFFC) :=
  ⟨by decide +kernel, by decide +kernel, ⟨opens_of (by decide +kernel), opens_of (by decide +kernel), opens_of (by decide +kernel), by decide +kernel, by decide +kernel⟩, by decide +kernel⟩

theorem witness_MsixAndSnapshots :
    (up.cfgOk 0 = true ∧ (vf 64 up).cfgOk 64 = true) ∧
    (up.opens 0 (DEV_SNAP_CMD 0) false ∧ (vf 64 up).opens 64 (DEV_SNAP_CMD 64) false ∧ up.opens 65 (DEV_SNAP_CMD 65) false) ∧
    (let s : State := { up with snaps := [(0, ⟨[], [⟨none, 0, [], true⟩]⟩)] }
     ((tabGet (fun _ => ({} : Snap)) s.snaps 0).taking).length = 1) :=
  ⟨by decide +kernel, ⟨opens_of (by decide +kernel), opens_of (by decide +kernel), opens_of (by decide +kernel)⟩, by decide +kernel⟩

theorem witness_SidebandAddressing :
    (sd none).vddIoGood = true ∧ (sd none).sb.dyn = none ∧ (sd none).sb.stat = some 0x35 ∧ (sd (some 9)).vddIoGood = true ∧ (sd (some 9)).sb.dyn = some 9 ∧
    (let s : State := { sd none with sb := {}, pwr := { steady := [(2, 100), (3, 100), (4, 100)] } }
     s.vddIoGood = true ∧ s.sb.stat = none ∧ ∀ i < 3, 100 ≤ tabGet (fun _ => 0) s.pwr.steady (2 + i)) := by decide +kernel

theorem witness_SidebandTransfers :
    (sd none).sbAnswers true 0x35 = true ∧ (sd (some 9)).sbAnswers false 9 = true ∧ ([7, 1, 2] : Bytes).take (sd none).sb.mwl = [7, 1, 2] ∧
    (sd (some 9)).vddIoGood = true ∧ (sd (some 9)).sb.dyn = some 9 ∧ min 6 (sd none).sb.mrl % 4 ≠ 0 ∧ min 8 (sd none).sb.mrl % 4 = 0 ∧
    (up.put DEV_SB_WIN_CMD_STATE 1).get DEV_SB_WIN_CMD_STATE = 1 ∧ (up.put DEV_SB_STATUS_STAGE 3).get DEV_SB_STATUS_STAGE = 3 ∧
    (sd none).get DEV_SB_STATUS_STAGE ≠ 3 ∧ (sd none).get DEV_SB_WIN_CMD_STATE ≠ 1 ∧
    ({ up with sb := { up.sb with win := some (0x80000, none) } } : State).sb.win = some (0x80000, none) ∧
    ({ up with sb := { up.sb with win := some (0x80000, some 1) } } : State).sb.win = some (0x80000, some 1) := by decide +kernel

theorem witness_FaultsAndRecovery :
    (kindOf FaultKind.replay.code = some .replay ∧ emits 0x8000 .replay = true ∧ 0x8000 / 4096 ≠ 15 ∧ up.foundBasket 0x8000 .replay 0 0 = some none) ∧
    up.flag FC_STATUS_G_ACTIVE = false ∧ (up.put FC_STATUS_G_ACTIVE 1).flag FC_STATUS_G_ACTIVE = true ∧
    (up.put (BSK_STATUS_STATE 63) 1).get (BSK_STATUS_STATE 63) = 1 ∧ ((up.put (BSK_STATUS_STATE 0) 2).put (BSK_STATUS_RECOV 0) 16).get (BSK_STATUS_RECOV 0) = 16 ∧
    (up.put (BSK_STATUS_STATE 0) 3).get (BSK_STATUS_STATE 0) = 3 ∧ 7 ∈ ({ up with col := { up.col with quiet := [7] } } : State).col.quiet ∧
    ({ up with col := { up.col with causes := [⟨0x3000, .resFault, 0, true, []⟩] } } : State).cause? 0x3000 .resFault 0 = some ⟨0x3000, .resFault, 0, true, []⟩ := by decide +kernel

theorem witness_InjectionAndLog :
    (inj.opens 0 (FC_FORCE_CMD 0) false ∧ up.opens 0 (FC_FORCE_CMD 0) false ∧ up.opens 65 (FC_FORCE_CMD 0) false) ∧
    (inj.forceCheck 0 = .ok (0x3000, .resFault, some 0) ∧ inj.heldCount 0 < 16 ∧ up.forceCheck 0 = .error 1 ∧ FaultKind.resFault.cls true = .b ∧
      inj.cause? 0x3000 .resFault 0 = none ∧ inj.forced 0 = (0x3000, FaultKind.resFault.code, 0) ∧ kindOf FaultKind.resFault.code = some .resFault) ∧
    (let s : State := { inj with col := { inj.col with causes := [⟨0x3000, .resFault, 0, true, [0]⟩], holds := List.replicate 16 (0, 0x3000, .resFault, 0) } }
     s.cause? 0x3000 .resFault 0 = some ⟨0x3000, .resFault, 0, true, [0]⟩ ∧ 16 ≤ s.heldCount 0) ∧ up.opens 0 FC_LOG_TAIL false :=
  ⟨⟨opens_of (by decide +kernel), opens_of (by decide +kernel), opens_of (by decide +kernel)⟩, by decide +kernel, by decide +kernel, opens_of (by decide +kernel)⟩

theorem witness_RailsAndStartUp :
    (up.put DEV_SB_STATUS_STAGE 2).get DEV_SB_STATUS_STAGE = 2 ∧ State.reset.get DEV_SB_STATUS_STAGE < 2 ∧ State.reset.flag ⟨DEV_SB_RAILS, 7, 1⟩ = false ∧
    (rg.get DEV_SB_STATUS_STAGE < 2 ∧ rg.railsGood = true ∧ rg.flag DEV_SB_STRAP_STABLE = true ∧ ∀ j < 8, 100 ≤ tabGet (fun _ => 0) rg.pwr.steady j) ∧
    (let s := up.put DEV_SB_STATUS_STAGE 2
     s.nvmRun = none ∧ s.nvmQueue = [] ∧ s.get PLAN_STATUS_STATE = 0) := by decide +kernel

theorem witness_PaceAndShutdown :
    ((up.put DEV_SB_STATUS_STAGE 3).get DEV_SB_STATUS_STAGE = 3 ∧ ({ up with pwr := { up.pwr with pace := 1 } } : State).pwr.pace ≠ 0) ∧
    (up.opens 0 PWR_PACE_FORCE true ∧ (up.put PWR_STATUS_STAGE 3).opens 0 PWR_CMD true ∧ (up.put PWR_STATUS_STAGE 4).opens 0 PWR_CMD true) ∧
    (let s : State := { up with pwr := { up.pwr with pace := 1 } }
     s.get PWR_STATUS_LEVEL = 0 ∧ s.pwr.pace = 1 ∧ s.get PWR_PACE_FORCE_LEVEL = 0 ∧ s.pwr.since = none) ∧
    ((up.put PWR_STATUS_STAGE 3).get PWR_STATUS_STAGE = 3 ∧ (up.put PWR_STATUS_STAGE 3).get PLAN_STATUS_STATE = 0 ∧ (up.put PWR_STATUS_STAGE 3).flag FC_STATUS_G_ACTIVE = false ∧
      (up.put PWR_STATUS_STAGE 4).get PWR_STATUS_STAGE ≠ 3) ∧
    ((up.put PWR_STATUS_STAGE 4).get PWR_STATUS_STAGE = 4 ∧ up.nvmRun = none ∧ up.nvmQueue = []) :=
  ⟨by decide +kernel, ⟨opens_of (by decide +kernel), opens_of (by decide +kernel), opens_of (by decide +kernel)⟩, by decide +kernel⟩

theorem witness_RepairAndSplices :
    (up.opens 0 BIST_CMD true ∧ up.opens 0 WAL_SPLICE true ∧ (up.setStrand 1023 { bound := true }).opens 0 WAL_SPLICE true) ∧
    (up.put BIST_MAP_STATUS_PENDING 1).flag BIST_MAP_STATUS_PENDING = true ∧ 7 ∈ ({ up with nvmQueue := [6, 7] } : State).nvmQueue ∧ 7 ∉ up.nvmQueue ∧
    ((up.setStrand 1023 { bound := true }).spliceOk 1023 = true ∧ ((up.setStrand 1023 { bound := true }).strand 1023).bound = true ∧ (up.strand 0).bound = false) ∧
    ((sl .waitShadow 0).splice? 63 = some ⟨1023, .waitShadow, 0, 0, false⟩ ∧ (sl .shadow 0).splice? 63 = some ⟨1023, .shadow, 0, 0, false⟩ ∧
      (sl .verify 1).splice? 63 = some ⟨1023, .verify, 1, 0, false⟩ ∧ (sl .verify 2).splice? 63 = some ⟨1023, .verify, 2, 0, false⟩ ∧
      (sl .handover 2).splice? 63 = some ⟨1023, .handover, 2, 0, false⟩) ∧
    ((List.replicate 256 ((5, 5) : Nat × Nat)).length = 256 ∧ (sl .verify 1).pairsPass 63 (List.replicate 256 (5, 5)) = true ∧
      (sl .verify 2).pairsPass 63 (List.replicate 256 (500, 5)) = false) :=
  ⟨⟨opens_of (by decide +kernel), opens_of (by decide +kernel), opens_of (by decide +kernel)⟩, by decide +kernel⟩

theorem witness_LifeCycleState :
    (blow 0 5 up).fusedState = 3 ∧ (lcRefresh (blow 0 5 up)).flag LC_STATUS_GAP = true ∧ (lcRefresh (blow 1 3 up)).flag LC_STATUS_GAP = false ∧ State.reset.fusedState = 0 ∧
    (blow 1 16 up).fusedState = 5 := by decide +kernel

theorem witness_LifeCycleCommands :
    (lf.opens 0 LC_CMD true ∧ lf.opens 0 LC_FUSE_CMD true) ∧
    (lcReason 2 0 0xC3 lf = none ∧ lcReason 2 0 0 lf = some 3 ∧ lcReason 4 0 0 lf = none ∧ lcReason 6 1 0xC3 lf = some 1) ∧
    (let s : State := { fuseAt 8 vendorKey lf with lc := { lf.lc with job := some returnJob } }
     s.lc.job = some returnJob ∧ returnJob.code = 5 ∧ s.verifies 2 (wordBytes returnJob.nonce ++ s.serialBytes ++ [0x52]) returnJob.token = true ∧
     lf.verifies 2 (wordBytes returnJob.nonce ++ lf.serialBytes ++ [0x52]) returnJob.token = false ∧ (lcWrites returnJob).any (fun e => e.1 == 0) = true) ∧
    ((lf.put LC_FUSE_ADDR_WORD 511).opens 0 LC_FUSE_CMD true ∧ (lf.put LC_FUSE_ADDR_WORD 511).get LC_STATUS_STATE = 1 ∧ (lf.put LC_FUSE_ADDR_WORD 511).get LC_FUSE_ADDR_WORD = 511 ∧
      lf.get LC_FUSE_ADDR_WORD < 88) :=
  ⟨⟨opens_of (by decide +kernel), opens_of (by decide +kernel)⟩, by decide +kernel, by decide +kernel, opens_of (by decide +kernel), by decide +kernel, by decide +kernel, by decide +kernel⟩

theorem witness_TestAccess :
    (sd none).vddIoGood = true ∧ (sd none).tap.refuse = false ∧ ({ sd none with tap := { (sd none).tap with refuse := true } } : State).tap.refuse = true ∧
    (let s : State := { fuseAt 56 debugKey (((sd none).put LC_STATUS_STATE 3).put ⟨LC_STATUS, 14, 1⟩ 1) with tap := { (sd none).tap with nonce := some debugNonce } }
     s.vddIoGood = true ∧ s.get LC_STATUS_STATE = 3 ∧ s.flag ⟨LC_STATUS, 13 + 1 % 2, 1⟩ = true ∧ s.tap.nonce = some debugNonce ∧
     s.verifies (1 % 2) (wordBytes debugNonce ++ s.serialBytes ++ [0x44]) debugSig = true) := by decide +kernel

end Sys2Proof.Tests
end

/-! What every command keeps, and with it the canonical form of registers and stores along every step. -/

namespace Sys2Proof.Machine

/-! ## What a command and a step keep -/

/-- Every command answers a next state and keeps what `Keeps` says, each by the lemma of its own meaning. -/
theorem exec_keeps {z s : State} (c : Instr) (h : Keeps z s) : OutKeeps z (exec c s) :=
  match c with
  | .xrefActivityTrip => execXrefActivityTrip_keeps h
  | .xrefActivityReturn => execXrefActivityReturn_keeps h
  | .xrefSettleElapsed => execXrefSettleElapsed_keeps h
  | .warpSourcePresent _ => execWarpSourcePresent_keeps _ h
  | .qualificationWindowElapsed _ => execQualificationWindowElapsed_keeps _ h
  | .coarseFreqGateEnd _ _ => execCoarseFreqGateEnd_keeps _ _ h
  | .fineFreqGateEnd _ _ => execFineFreqGateEnd_keeps _ _ h
  | .phaseHit _ _ _ => execPhaseHit_keeps _ _ _ h
  | .hearthLockDeclare => execHearthLockDeclare_keeps h
  | .hearthUnlock => execHearthUnlock_keeps h
  | .hearthBwStep => execHearthBwStep_keeps h
  | .revertiveWtrElapsed _ => execRevertiveWtrElapsed_keeps _ h
  | .holdoverWindowExpire => execHoldoverWindowExpire_keeps h
  | .waitMaxExpire => execWaitMaxExpire_keeps h
  | .reacquisitionFail => execReacquisitionFail_keeps h
  | .historyValid => execHistoryValid_keeps h
  | .requalifyX _ => execRequalifyX_keeps _ h
  | .clearHistory _ => execClearHistory_keeps _ h
  | .hrtSwitchNow _ => execHrtSwitchNow_keeps _ h
  | .hrtCtrlWrite _ _ => execHrtCtrlWrite_keeps _ _ h
  | .hrtXrefSettleWrite _ _ => execHrtXrefSettleWrite_keeps _ _ h
  | .rimLockDeclare _ _ _ => execRimLockDeclare_keeps _ _ _ h
  | .rimUnlock _ => execRimUnlock_keeps _ h
  | .relockWaitExpire _ => execRelockWaitExpire_keeps _ h
  | .spareRimLock _ _ _ => execSpareRimLock_keeps _ _ _ h
  | .migrationWaleMove _ _ => execMigrationWaleMove_keeps _ _ h
  | .retuneMaxExpire _ => execRetuneMaxExpire_keeps _ h
  | .rimMigrate _ _ => execRimMigrate_keeps _ _ h
  | .syncReceive _ _ => execSyncReceive_keeps _ _ h
  | .delayReqSend _ _ _ => execDelayReqSend_keeps _ _ _ h
  | .delayReqReceive _ _ _ _ => execDelayReqReceive_keeps _ _ _ _ h
  | .delayRespReceive _ _ _ _ => execDelayRespReceive_keeps _ _ _ _ h
  | .delayRespTimeout _ _ => execDelayRespTimeout_keeps _ _ h
  | .domainTimeout _ => execDomainTimeout_keeps _ h
  | .tallyTrackEnter => execTallyTrackEnter_keeps h
  | .tallySlewDone => execTallySlewDone_keeps h
  | .domainRevert => execDomainRevert_keeps h
  | .beatMarkerSend _ _ => execBeatMarkerSend_keeps _ _ h
  | .talStep _ => execTalStep_keeps _ h
  | .talSlew _ => execTalSlew_keeps _ h
  | .talSwitchNow _ => execTalSwitchNow_keeps _ h
  | .restartDlcal _ => execRestartDlcal_keeps _ h
  | .talAsymWrite _ _ _ => execTalAsymWrite_keeps _ _ _ h
  | .talNow0Read _ => execTalNow0Read_keeps _ h
  | .hopArm _ => execHopArm_keeps _ h
  | .hopCommit _ => execHopCommit_keeps _ h
  | .hopSquash _ => execHopSquash_keeps _ h
  | .hopRetune _ => execHopRetune_keeps _ h
  | .strandStart _ => execStrandStart_keeps _ h
  | .strandStop _ => execStrandStop_keeps _ h
  | .nopCmd _ => execNopCmd_keeps _ h
  | .invalidOp _ => execInvalidOp_keeps _ h
  | .reedMeasure _ => execReedMeasure_keeps _ h
  | .measureStop _ => execMeasureStop_keeps _ h
  | .calStrand _ => execCalStrand_keeps _ h
  | .calReed _ => execCalReed_keeps _ h
  | .calRim _ => execCalRim_keeps _ h
  | .calLane _ => execCalLane_keeps _ h
  | .calStore _ => execCalStore_keeps _ h
  | .hopGrant _ => execHopGrant_keeps _ h
  | .profileFetchDone _ => execProfileFetchDone_keeps _ h
  | .hopTakeEffect _ _ _ _ => execHopTakeEffect_keeps _ _ _ _ h
  | .holdMaxExpire _ => execHoldMaxExpire_keeps _ h
  | .fireLeadReached _ => execFireLeadReached_keeps _ h
  | .timedMissed _ => execTimedMissed_keeps _ h
  | .specTimeout _ => execSpecTimeout_keeps _ h
  | .rampStep _ _ => execRampStep_keeps _ _ h
  | .strandBaseMove _ _ _ _ => execStrandBaseMove_keeps _ _ _ _ h
  | .residualVisitEnd _ _ _ _ => execResidualVisitEnd_keeps _ _ _ _ h
  | .residualRetryVisit _ _ _ => execResidualRetryVisit_keeps _ _ _ h
  | .slotClear _ _ _ _ => execSlotClear_keeps _ _ _ _ h
  | .recheck _ _ => execRecheck_keeps _ _ h
  | .strAcc0Read _ _ => execStrAcc0Read_keeps _ _ h
  | .spkCfgWrite _ _ _ => execSpkCfgWrite_keeps _ _ _ h
  | .lowPointApply _ => execLowPointApply_keeps _ h
  | .spkForcePark _ _ _ => execSpkForcePark_keeps _ _ _ h
  | .spkForceRelease _ _ _ => execSpkForceRelease_keeps _ _ _ h
  | .spokeRelease _ => execSpokeRelease_keeps _ h
  | .reedRun _ _ => execReedRun_keeps _ _ h
  | .reedStop _ _ _ => execReedStop_keeps _ _ _ h
  | .histClear _ _ => execHistClear_keeps _ _ h
  | .reedRunStart _ => execReedRunStart_keeps _ h
  | .reedRunComplete _ _ => execReedRunComplete_keeps _ _ h
  | .reedRunMaxExpire _ _ => execReedRunMaxExpire_keeps _ _ h
  | .reedResTailWrite _ _ _ => execReedResTailWrite_keeps _ _ _ h
  | .reedCfgWrite _ _ _ => execReedCfgWrite_keeps _ _ _ h
  | .calTdcStageEnd _ _ => execCalTdcStageEnd_keeps _ _ h
  | .calCellSweepEnd _ _ => execCalCellSweepEnd_keeps _ _ h
  | .calCellHandover _ => execCalCellHandover_keeps _ h
  | .calReedStageEnd _ _ _ _ => execCalReedStageEnd_keeps _ _ _ _ h
  | .calRimSweepEnd _ => execCalRimSweepEnd_keeps _ h
  | .calRimMarginEnd _ _ => execCalRimMarginEnd_keeps _ _ h
  | .calLaneStepEnd _ _ _ _ => execCalLaneStepEnd_keeps _ _ _ _ h
  | .calPauseTimeout _ => execCalPauseTimeout_keeps _ h
  | .optimeMinute => execOptimeMinute_keeps h
  | .calConditionChange _ _ => execCalConditionChange_keeps _ _ h
  | .nvmWriteComplete => execNvmWriteComplete_keeps h
  | .ringDoorbell _ _ => execRingDoorbell_keeps _ _ h
  | .creditSend _ _ => execCreditSend_keeps _ _ h
  | .capacityMeasure _ => execCapacityMeasure_keeps _ h
  | .reservationRestore => execReservationRestore_keeps h
  | .armPeakWrite _ _ => execArmPeakWrite_keeps _ _ h
  | .laneDetect _ _ _ => execLaneDetect_keeps _ _ _ h
  | .bondWaitExpire _ => execBondWaitExpire_keeps _ h
  | .trainReady _ => execTrainReady_keeps _ h
  | .trainMaxExpire _ => execTrainMaxExpire_keeps _ h
  | .alignComplete _ _ _ _ _ => execAlignComplete_keeps _ _ _ _ _ h
  | .capReceive _ _ _ => execCapReceive_keeps _ _ _ h
  | .agreedEcho _ => execAgreedEcho_keeps _ h
  | .enumEcho _ => execEnumEcho_keeps _ h
  | .retReceive _ _ => execRetReceive_keeps _ _ h
  | .retireComplete _ => execRetireComplete_keeps _ h
  | .refusalHoldExpire _ => execRefusalHoldExpire_keeps _ h
  | .ackReceive _ _ _ _ => execAckReceive_keeps _ _ _ _ h
  | .frameError _ _ => execFrameError_keeps _ _ h
  | .replayTimeout _ _ => execReplayTimeout_keeps _ _ h
  | .ackSend _ _ => execAckSend_keeps _ _ h
  | .replayExhaust _ => execReplayExhaust_keeps _ h
  | .blockLockLoss _ => execBlockLockLoss_keeps _ h
  | .chainUpstreamFrame _ _ => execChainUpstreamFrame_keeps _ _ h
  | .retrain _ _ => execRetrain_keeps _ _ h
  | .laneRetire _ _ => execLaneRetire_keeps _ _ h
  | .substitute _ _ => execSubstitute_keeps _ _ h
  | .pctlSend _ _ => execPctlSend_keeps _ _ h
  | .pctlAckReceive _ _ => execPctlAckReceive_keeps _ _ h
  | .pctlRx _ _ _ => execPctlRx_keeps _ _ _ h
  | .pctlTimeout _ => execPctlTimeout_keeps _ h
  | .pctlBusyEnd _ => execPctlBusyEnd_keeps _ h
  | .pctlRxRelease _ => execPctlRxRelease_keeps _ h
  | .planOpen _ => execPlanOpen_keeps _ h
  | .planVerify _ => execPlanVerify_keeps _ h
  | .planCommit _ => execPlanCommit_keeps _ h
  | .planAbort _ => execPlanAbort_keeps _ h
  | .storeBoot _ => execStoreBoot_keeps _ h
  | .setMinSeq _ => execSetMinSeq_keeps _ h
  | .planStagingWrite _ _ _ => execPlanStagingWrite_keeps _ _ _ h
  | .stageTimeout => execStageTimeout_keeps h
  | .planVerifyDone => execPlanVerifyDone_keeps h
  | .commitWaitEnd => execCommitWaitEnd_keeps h
  | .fullReweaveApplied => execFullReweaveApplied_keeps h
  | .partialReweaveApplied => execPartialReweaveApplied_keeps h
  | .clearFaulted _ _ => execClearFaulted_keeps _ _ h
  | .clearRecov _ _ => execClearRecov_keeps _ _ h
  | .clearViol _ => execClearViol_keeps _ h
  | .challenge _ => execChallenge_keeps _ h
  | .respond _ _ => execRespond_keeps _ _ h
  | .keeperDetach _ => execKeeperDetach_keeps _ h
  | .keeperVerifyDone => execKeeperVerifyDone_keeps h
  | .keeperNonceExpire => execKeeperNonceExpire_keeps h
  | .challengeRefusalEnd => execChallengeRefusalEnd_keeps h
  | .perstNAssert => execPerstNAssert_keeps h
  | .perstNRelease => execPerstNRelease_keeps h
  | .hotReset => execHotReset_keeps h
  | .flrPf => execFlrPf_keeps h
  | .flrVf _ => execFlrVf_keeps _ h
  | .vfEnableClear _ => execVfEnableClear_keeps _ h
  | .registerWrite _ _ _ _ _ => execRegisterWrite_keeps _ _ _ _ _ h
  | .aliasWrite _ _ _ => execAliasWrite_keeps _ _ _ h
  | .blkEnWrite _ _ => execBlkEnWrite_keeps _ _ h
  | .indDataAccess _ _ _ _ _ => execIndDataAccess_keeps _ _ _ _ _ h
  | .indAddrWrite _ _ => execIndAddrWrite_keeps _ _ h
  | .storeWindowAccess _ _ _ _ => execStoreWindowAccess_keeps _ _ _ _ h
  | .msixConditionEnd _ _ => execMsixConditionEnd_keeps _ _ h
  | .snapTake _ _ => execSnapTake_keeps _ _ h
  | .snapRelease _ => execSnapRelease_keeps _ h
  | .snapCopyDone _ => execSnapCopyDone_keeps _ h
  | .sbPrivateWrite _ _ _ => execSbPrivateWrite_keeps _ _ _ h
  | .sbPrivateRead _ _ _ => execSbPrivateRead_keeps _ _ _ h
  | .entdaa _ => execEntdaa_keeps _ h
  | .setdasa _ _ => execSetdasa_keeps _ _ h
  | .setnewda _ _ => execSetnewda_keeps _ _ h
  | .rstdaa => execRstdaa_keeps h
  | .enec _ _ => execEnec_keeps _ _ h
  | .disec _ _ => execDisec_keeps _ _ h
  | .setmwl _ _ => execSetmwl_keeps _ _ h
  | .setmrl _ _ => execSetmrl_keeps _ _ h
  | .getpid _ => execGetpid_keeps _ h
  | .getbcr _ => execGetbcr_keeps _ h
  | .getdcr _ => execGetdcr_keeps _ h
  | .getstatus _ => execGetstatus_keeps _ h
  | .getmwl _ => execGetmwl_keeps _ h
  | .getmrl _ => execGetmrl_keeps _ h
  | .sbWinRead _ => execSbWinRead_keeps _ h
  | .sbWinWrite _ => execSbWinWrite_keeps _ h
  | .sbWinDone => execSbWinDone_keeps h
  | .strapSample _ => execStrapSample_keeps _ h
  | .faultMessage _ _ _ _ => execFaultMessage_keeps _ _ _ _ h
  | .quietPeriodEnd _ => execQuietPeriodEnd_keeps _ h
  | .recoveryAgeOut _ => execRecoveryAgeOut_keeps _ h
  | .faultPulse _ => execFaultPulse_keeps _ h
  | .faultHold _ => execFaultHold_keeps _ h
  | .fcRelease _ => execFcRelease_keeps _ h
  | .fcLogTailWrite _ _ => execFcLogTailWrite_keeps _ _ h
  | .supplyTrip _ _ => execSupplyTrip_keeps _ _ h
  | .thermalTrip _ _ => execThermalTrip_keeps _ _ h
  | .thermalWarn _ _ => execThermalWarn_keeps _ _ h
  | .railGood _ => execRailGood_keeps _ h
  | .railDrop _ => execRailDrop_keeps _ h
  | .brownOut _ => execBrownOut_keeps _ h
  | .resetRelease _ _ => execResetRelease_keeps _ _ h
  | .planReady _ _ => execPlanReady_keeps _ _ h
  | .droopCrossing _ _ _ => execDroopCrossing_keeps _ _ _ h
  | .paceStepDown => execPaceStepDown_keeps h
  | .pwrPaceForceWrite _ _ => execPwrPaceForceWrite_keeps _ _ h
  | .shutdown _ _ => execShutdown_keeps _ _ h
  | .shutdownHalt => execShutdownHalt_keeps h
  | .clearPeak _ => execClearPeak_keeps _ h
  | .fullNext _ => execFullNext_keeps _ h
  | .cancelFull _ => execCancelFull_keeps _ h
  | .storeMap _ => execStoreMap_keeps _ h
  | .repairMapWriteStart => execRepairMapWriteStart_keeps h
  | .walSpliceGo _ _ => execWalSpliceGo_keeps _ _ h
  | .spliceShadowStart _ => execSpliceShadowStart_keeps _ h
  | .spliceAlignEnd _ _ => execSpliceAlignEnd_keeps _ _ h
  | .spliceVerifyEnd _ _ => execSpliceVerifyEnd_keeps _ _ h
  | .spliceHandover _ => execSpliceHandover_keeps _ h
  | .enterFactory _ _ => execEnterFactory_keeps _ _ h
  | .provision _ _ => execProvision_keeps _ _ h
  | .enterField _ _ => execEnterField_keeps _ _ h
  | .retNonce _ _ => execRetNonce_keeps _ _ h
  | .lcReturn _ _ => execLcReturn_keeps _ _ h
  | .lcRetire _ _ => execLcRetire_keeps _ _ h
  | .lcRevoke _ _ => execLcRevoke_keeps _ _ h
  | .returnNonceExpire => execReturnNonceExpire_keeps h
  | .fuseRead _ => execFuseRead_keeps _ h
  | .fuseProgram _ _ => execFuseProgram_keeps _ _ h
  | .idcode => execIdcode_keeps h
  | .samplePreload _ => execSamplePreload_keeps _ h
  | .extest _ => execExtest_keeps _ h
  | .jtagClamp => execJtagClamp_keeps h
  | .highz => execHighz_keeps h
  | .extestPulse _ => execExtestPulse_keeps _ h
  | .extestTrain _ => execExtestTrain_keeps _ h
  | .dbgChal => execDbgChal_keeps h
  | .dbgResp _ _ => execDbgResp_keeps _ _ h
  | .dbgStatus => execDbgStatus_keeps h
  | .scanNs => execScanNs_keeps h
  | .scanSec => execScanSec_keeps h
  | .jtagBypass => execJtagBypass_keeps h
  | .testLogicReset => execTestLogicReset_keeps h
  | .dbgNonceExpire => execDbgNonceExpire_keeps h
  | .dbgRefusalEnd => execDbgRefusalEnd_keeps h
  | .slewStep _ => execSlewStep_keeps _ h
  | .wideValueRead _ _ => execWideValueRead_keeps _ _ h
  | .vfEnableSet _ => execVfEnableSet_keeps _ h
  | .msixConditionBegin _ _ => execMsixConditionBegin_keeps _ _ h
  | .flrComplete _ => execFlrComplete_keeps _ h
  | .pcieLinkL0 => execPcieLinkL0_keeps h
  | .lcCommandDone _ => execLcCommandDone_keeps _ h
  | .tokenRefusalEnd => execTokenRefusalEnd_keeps h

/-- A step keeps what `Keeps` says of the state without the command that it takes; with no command waiting that is the state itself. -/
theorem step_keeps (s : State) : OutKeeps { s with pending := s.pending.tail } (step s) := by
  obtain hq | ⟨c, r, hq⟩ : s.pending = [] ∨ ∃ c r, s.pending = c :: r := by
    cases s.pending <;> simp
  · have hs : { s with pending := s.pending.tail } = s := by rw [hq, List.tail_nil, ← hq]
    rw [hs]
    simp only [step, hq]
    exact next_keeps (tick_keeps (Keeps.refl s))
  · simp only [step, hq, List.tail_cons]
    exact exec_keeps c (Keeps.refl _)

/-- What a step answers as its next state keeps what `Keeps` says. -/
theorem keeps_of_step {s t : State} (h : step s = .next t) : Keeps { s with pending := s.pending.tail } t := by
  obtain ⟨u, hu, hk⟩ := step_keeps s
  rw [h] at hu
  exact Host.Outcome.next.inj hu ▸ hk

/-! ## The canonical form -/

/-- What `Keeps` relates to a state in canonical form is in canonical form. -/
theorem Keeps.canon {z t : State} (h : Keeps z t) (hz : z.canon) : t.canon := ⟨h.regs hz.1, h.mem hz.2⟩

/-- The canonical form speaks of registers and stores alone, not of the queue. -/
theorem canon_pending (s : State) (l : List Instr) : State.canon { s with pending := l } ↔ s.canon := Iff.rfl

theorem reset_canon : State.reset.canon := ⟨rfl, rfl⟩

/-- Settles O6: the step's next state keeps the canonical form by `Keeps`, which every command's meaning and the empty queue's cycle satisfy. -/
theorem stepKeepsCanon : Obligations.StepKeepsCanon := by
  unfold Obligations.StepKeepsCanon
  intro s t hs hstep
  exact (keeps_of_step hstep).canon ((canon_pending s s.pending.tail).2 hs)

/-- Settles O5: after reset both tables are empty. -/
theorem resetCanonical : Obligations.ResetCanonical := by
  unfold Obligations.ResetCanonical
  exact ⟨reset_canon, fun l => (canon_pending State.reset l).2 reset_canon⟩

end Sys2Proof.Machine

/-! What a cold reset leaves. -/

namespace Sys2Proof.Machine

/-! ## After a cold reset nothing is listed, so every register and byte reads what an unlisted one does -/

@[simp] theorem reset_reg (a : Nat) : State.reset.reg a = regReset a := rfl

@[simp] theorem reset_byte (a : Nat) : State.reset.byte a = memDefault a := rfl

@[simp] theorem reset_get (f : Fld) : State.reset.get f = bitsAt (regReset f.reg) f.lo f.w := rfl

/-- Every basket's STATE is UNUSED in its table. -/
theorem reset_baskets_unused : ∀ b < 64, State.reset.get (BSK_STATUS_STATE b) = 0 := by
  simp only [reset_get]
  decide +kernel

/-- Every spoke's STATE is PARKED in its table. -/
theorem reset_spokes_parked : ∀ n < 256, State.reset.get (SPK_STATUS_STATE n) = 0 := by
  simp only [reset_get]
  decide +kernel

/-- The reset value of a lane's ROLE (R31). -/
theorem reset_lane_role : ∀ p < 108, State.reset.get (LANE_STATUS_ROLE p) = (if p < 2 then 2 else if p < 4 then 3 else if p % 13 = 3 then 1 else 0) := by
  simp only [reset_get]
  decide +kernel

/-- Vector 0 of each function's MSI-X table is masked. -/
theorem reset_msix_masked : ∀ f < 65, State.reset.flag ⟨msixCtrl f 0, 0, 1⟩ = true := by
  simp only [flag_eq, reset_get]
  decide +kernel

/-- The hearth's control registers, and its status: ACQUIRE with no source selected. -/
theorem reset_hearth :
    State.reset.reg HRT_CTRL = 0x0A370000#32 ∧ State.reset.reg HRT_STATUS = 0x30#32 ∧ State.reset.reg HRT_HOLD_CFG = 0x05DC0000#32 ∧
      State.reset.reg HRT_MON_CFG = 0x2832#32 ∧ State.reset.reg HRT_FOFF_A = 0x80000000#32 := by
  simp only [reset_reg]
  decide +kernel

/-- The tally is FREE, and no plan is in force and no load runs. -/
theorem reset_tally_and_plan :
    State.reset.get TAL_STATUS_STATE = 0 ∧ State.reset.flag PLAN_STATUS_IN_FORCE = false ∧ State.reset.get PLAN_STATUS_STATE = 0 := by
  simp only [flag_eq, reset_get]
  decide +kernel

/-- Settles O3, from the reset values of the tables. -/
theorem resetLeaves : Obligations.ResetLeaves := by
  unfold Obligations.ResetLeaves
  obtain ⟨hCtrl, hStatus, hHold, hMon, hOff⟩ := reset_hearth
  obtain ⟨hTal, hForce, hLoad⟩ := reset_tally_and_plan
  exact ⟨reset_reg, reset_byte, rfl, hCtrl, hStatus, hHold, hMon, hOff, rfl, hTal, hForce, hLoad, rfl,
    reset_baskets_unused, reset_spokes_parked, reset_lane_role, reset_msix_masked⟩

end Sys2Proof.Machine

/-! What the accesses to registers and to the stores do. -/

namespace Sys2Proof.Machine

theorem settled_eq (s t : State) : settled s t = .next (deliver s (settleAll t)) := rfl

theorem done_eq (s t : State) : done s t = .next (deliver s t) := rfl

/-! ## The conditions of an access -/

/-- Whether the host reaches a function does not depend on a register. -/
@[simp] theorem hostOk_setReg (s : State) (a : Nat) (v : Word) (m : Nat) : (s.setReg a v).hostOk m = s.hostOk m := rfl

/-- With no wide write of the master under way there is none to drop. -/
theorem dropBuf_of_opens {s : State} {m a : Nat} {kp : Bool} (h : s.opens m a kp) : dropBuf m s = s := by
  simp only [dropBuf, h.buf]

/-- Address `a` lies in none of the ranges of which an LXG1024-H lacks a part (R3). -/
def neverFused (a : Nat) : Bool := !fusedUnits.any fun u => pastUnits u.1 u.2.1 u.2.2.1 u.2.2.2 a

theorem fusedOff_of_neverFused {a : Nat} (h : neverFused a = true) (s : State) : s.fusedOff a = false := by
  rw [neverFused, Bool.not_eq_true'] at h
  rw [State.fusedOff, h, Bool.and_false]

/-- Where the register is not fused off, its reserved bits are kept in an access that the host may make to an enabled block. -/
theorem storeRsvl_of_not_fusedOff {s : State} {a : Nat} (h : s.fusedOff a = false) (m : Nat) (v : Word) :
    storeRsvl m a v s = if s.hostOk m = true ∧ s.enabledAt a = true then keepRsvl m a v s else s := by
  simp only [storeRsvl, h, Bool.not_false, and_true]

/-! ## Register writes -/

/-- A write at the own offset of a register that is not fused off: the command of the DEV page or of its block, else a plain write. -/
theorem registerWrite_of_reg {s : State} {m off a : Nat} {row : RegRow} {x : Nat × Nat} (hm : m ≤ 64) (hl : barLoc m off = .reg 0 a)
    (hr : regRow? a = some (row, x)) (hf : s.fusedOff a = false) (v : Word) (r : SelfTest) (ok : Bool) :
    exec (.registerWrite m off v r ok) s =
      (devCommand m a v s).getD ((regCommand r ok m a v s).getD (.next (deliver s (settleAll (plainWrite m a off false v s))))) := by
  simp [exec, execRegisterWrite, hm, barWrite, hl, hr, writeLoc, hf, settled_eq]

/-- The PF has a register that is never fused off at offset `a` of its BAR0, where the register's own address is `a`. -/
def pfRegister (a : Nat) : Bool := barLoc 0 a == .reg 0 a && (regRow? a).isSome && neverFused a

/-- `registerWrite_of_reg` for the PF and a register that has one copy. -/
theorem registerWrite_of_pfRegister {a : Nat} (ha : pfRegister a = true) (s : State) (v : Word) (r : SelfTest) (ok : Bool) :
    exec (.registerWrite 0 a v r ok) s =
      (devCommand 0 a v s).getD ((regCommand r ok 0 a v s).getD (.next (deliver s (settleAll (plainWrite 0 a a false v s))))) := by
  simp only [pfRegister, Bool.and_eq_true, beq_iff_eq, Option.isSome_iff_exists] at ha
  obtain ⟨⟨hl, ⟨row, x⟩, hr⟩, hn⟩ := ha
  exact registerWrite_of_reg (Nat.zero_le _) hl hr (fusedOff_of_neverFused hn s) v r ok

/-- A PF's write that its block takes as command `c`, with the reserved bits kept first, is that command. -/
theorem registerWrite_of_regCommand {a : Nat} (ha : pfRegister a = true) {s : State} {v : Word} {r : SelfTest} {ok : Bool} {c : Instr}
    (hd : devCommand 0 a v s = none) (hc : regCommand r ok 0 a v s = some (exec c (storeRsvl 0 a v s))) :
    exec (.registerWrite 0 a v r ok) s = exec c (if s.hostOk 0 = true ∧ s.enabledAt a = true then keepRsvl 0 a v s else s) := by
  have hn : neverFused a = true := by
    rw [pfRegister, Bool.and_eq_true] at ha
    exact ha.2
  rw [registerWrite_of_pfRegister ha, hd, hc, storeRsvl_of_not_fusedOff (fusedOff_of_neverFused hn s)]
  rfl

theorem registerWrite_blkEn (s : State) (v : Word) (r : SelfTest) (ok : Bool) :
    exec (.registerWrite 0 DEV_BLK_EN v r ok) s = exec (.blkEnWrite 0 v) s :=
  registerWrite_of_pfRegister (by decide +kernel) s v r ok

theorem registerWrite_ringDb (s : State) (v : Word) (r : SelfTest) (ok : Bool) :
    exec (.registerWrite 0 RING_DB v r ok) s = exec (.ringDoorbell 0 v) s :=
  registerWrite_of_pfRegister (by decide +kernel) s v r ok

/-- A write of a register that is no command is a plain write. -/
theorem registerWrite_of_plain {s : State} {m off a : Nat} {v : Word} {row : RegRow} {x : Nat × Nat} {r : SelfTest} {ok : Bool} (hm : m ≤ 64)
    (hl : barLoc m off = .reg 0 a) (hr : regRow? a = some (row, x)) (hd : devCommand m a v s = none) (hc : regCommand r ok m a v s = none)
    (hf : s.fusedOff a = false) :
    exec (.registerWrite m off v r ok) s = .next (deliver s (settleAll (plainWrite m a off false v s))) := by
  rw [registerWrite_of_reg hm hl hr hf, hd, hc]
  rfl

theorem aliasOld_of_enabled {s : State} {a : Nat} (h : s.enabledAt a = true) : s.aliasOld a = s.reg a := by
  rw [State.aliasOld, if_pos h]

/-- A write at a SET, CLEAR or TOGGLE offset of a register with RW bits, where the word that it makes is no command, is a plain write of that word. -/
theorem aliasWrite_of_plain {s : State} {m off op a : Nat} {v : Word} {row : RegRow} {x : Nat × Nat} (hm : m ≤ 64) (ho : 0x4000 ≤ off % 0x10000)
    (hl : barLoc m off = .reg op a) (hop : op ≠ 0) (hr : regRow? a = some (row, x)) (hrw : row.rw ≠ 0) (he : s.enabledAt a = true)
    (hd : devCommand m a (aliasWord op row (s.reg a) v) s = none) (hc : regCommand {} true m a (aliasWord op row (s.reg a) v) s = none)
    (hf : s.fusedOff a = false) :
    exec (.aliasWrite m off v) s = .next (deliver s (settleAll (plainWrite m a off false (aliasWord op row (s.reg a) v) s))) := by
  have hz : ¬(row.rw ||| row.rws = 0) := fun h => hrw (Nat.or_eq_zero_iff.1 h).1
  simp only [exec, execAliasWrite, hm, ho, and_self, if_true, barWrite, hl, hr, hop, if_false, ne_eq, hrw, not_false_eq_true, or_true, hd, Option.getD_none,
    writeLoc, hf, Bool.false_eq_true, aliasOld_of_enabled he, hz, hc, settled_eq]

/-- A plain write that goes through, in range, to a register outside the wide field stores its writable bits and its operand. -/
theorem plainWrite_of_opens {s : State} {m a at_ : Nat} {ind : Bool} {v : Word} {row : RegRow} {x : Nat × Nat} (h : s.opens m a false)
    (hr : regRow? a = some (row, x)) (hv : rangeOk a (checkedWord row (s.reg a) v) = true)
    (h0 : a ≠ LANE_PCTL_TX0 (copyOf m)) (h1 : a ≠ LANE_PCTL_TX1 (copyOf m)) :
    plainWrite m a at_ ind v s = storeOpnd m a v row (storeAt m a at_ ind v s) := by
  have hp : plainWrite m a at_ ind v s = plainStore m a at_ ind v s := by
    simp [plainWrite, h.host, h0, h1, dropBuf_of_opens h]
  have hreach : ¬s.reach m a = 0#32 := h.reach
  simp [hp, plainStore, hr, h.fused, h.block, hreach, hv]

/-! ## DEV_BLK_EN and the indirect window -/

theorem blkEnWrite_of_opens {s : State} {m : Nat} (h : s.opens m DEV_BLK_EN true) (v : Word) :
    exec (.blkEnWrite m v) s = .next (deliver s (settleAll (blkEnWrite v s))) := by
  simp only [exec, execBlkEnWrite, gateWrite_of_opens h, settled_eq]

theorem indAddrWrite_of_opens {s : State} {m : Nat} (h : s.opens m (DEV_IND_ADDR m) false) (v : Word) :
    exec (.indAddrWrite m v) s = .next (deliver s (s.setReg (DEV_IND_ADDR m) (v &&& ~~~3))) := by
  simp only [exec, execIndAddrWrite, gateWrite_of_opens h, done_eq]

/-- A read of the window's data moves the window on and returns its location. -/
theorem indDataAccess_read {s : State} {m op : Nat} (hop : op < 4) (h : s.hostOk m = true) (r : SelfTest) (ok : Bool) :
    exec (.indDataAccess m op none r ok) s =
      let x := readLoc m (indLoc m (s.reg (DEV_IND_ADDR m)).toNat) (indAdvance m s)
      .next (deliver s (settleAll (x.2.emit (reply m x.1)))) := by
  simp only [exec, execIndDataAccess, hop, if_true, indAccess, h, settled_eq]

/-- A write of the window's data moves the window on; a word of a store takes the bytes. -/
theorem indDataAccess_write_mem {s : State} {m op b : Nat} (hop : op < 4) (h : s.hostOk m = true)
    (hl : indLoc m (s.reg (DEV_IND_ADDR m)).toNat = .mem b) (v : Word) (r : SelfTest) (ok : Bool) :
    exec (.indDataAccess m op (some v) r ok) s =
      let t := indAdvance m s
      .next (deliver t (settleAll (storeBytes m b (bytesOf (aliasStore op (t.memWord b) v)) (dropBuf m t)))) := by
  have ht : (indAdvance m s).hostOk m = true := by rw [indAdvance, hostOk_setReg, h]
  simp only [exec, execIndDataAccess, hop, if_true, indAccess, h, hl, writeLoc, ht, settled_eq]

/-! ## Store windows, and reads of registers -/

theorem storeWindowAccess_write {s : State} {m : Nat} (hm : m ≤ 64) (h : s.hostOk m = true) (off : Nat) {bs : List (Option Nat)} (hb : bs.length ≤ 512) :
    exec (.storeWindowAccess m off 0 (some bs)) s = .next (deliver s (settleAll (windowWrite m off bs (dropBuf m s)))) := by
  simp only [exec, execStoreWindowAccess, hm, h, and_self, if_true, hb, settled_eq]

theorem storeWindowAccess_read {s : State} {m : Nat} (hm : m ≤ 64) (h : s.hostOk m = true) (off : Nat) {len : Nat} (hl : len ≤ 512) :
    exec (.storeWindowAccess m off len none) s = .next (deliver s (settleAll (windowRead m off len s))) := by
  simp only [exec, execStoreWindowAccess, hm, h, and_self, if_true, hl, settled_eq]

theorem wideValueRead_aligned {s : State} {m off : Nat} (hm : m ≤ 64) (h : s.hostOk m = true) (ho : off % 4 = 0) :
    exec (.wideValueRead m off) s =
      let x := barRead m off s
      .next (deliver s (settleAll (x.2.emit (reply m x.1)))) := by
  simp only [exec, execWideValueRead, Nat.not_lt.2 hm, if_false, h, ho, and_self, if_true, settled_eq]

/-- A function that the host reaches answers a read that the hub cannot serve. -/
theorem unserved_of_hostOk {s : State} {m : Nat} (hm : m ≤ 64) (h : s.hostOk m = true) : unserved m s = .next (deliver s (s.emit (.unsupported m))) := by
  have hne : (m == 65) = false := by
    rw [beq_eq_false_iff_ne]
    omega
  simp only [State.hostOk, hne, Bool.false_or, Bool.and_eq_true] at h
  obtain ⟨⟨⟨⟨hready, hlink⟩, hfn⟩, -⟩, hd3⟩ := h
  rw [unserved, if_pos ⟨hm, hready, hlink, hfn, hd3⟩, done_eq]

theorem wideValueRead_unaligned {s : State} {m off : Nat} (hm : m ≤ 64) (h : s.hostOk m = true) (ho : off % 4 ≠ 0) :
    exec (.wideValueRead m off) s = .next (deliver s (s.emit (.unsupported m))) := by
  simp only [exec, execWideValueRead, Nat.not_lt.2 hm, if_false, ho, and_false, unserved_of_hostOk hm h]

/-- Settles O48, one lemma for each kind of access.
Which command a word of the list is, `regCommand` decides by evaluation: the register and the word are literals. -/
theorem registerAccesses : Obligations.RegisterAccesses := by
  unfold Obligations.RegisterAccesses
  intro s r ok
  refine ⟨fun a w c h => ?_, fun v => ⟨registerWrite_blkEn s v r ok, registerWrite_ringDb s v r ok⟩, ?_, ?_, ?_, ?_, ?_, ?_, ?_⟩
  · simp only [List.mem_cons, Prod.mk.injEq, List.not_mem_nil, or_false] at h
    obtain ⟨rfl, rfl, rfl⟩ | ⟨rfl, rfl, rfl⟩ | ⟨rfl, rfl, rfl⟩ | ⟨rfl, rfl, rfl⟩ | ⟨rfl, rfl, rfl⟩ | ⟨rfl, rfl, rfl⟩ | ⟨rfl, rfl, rfl⟩ | ⟨rfl, rfl, rfl⟩ |
      ⟨rfl, rfl, rfl⟩ | ⟨rfl, rfl, rfl⟩ | ⟨rfl, rfl, rfl⟩ | ⟨rfl, rfl, rfl⟩ := h
    all_goals exact registerWrite_of_regCommand (by decide +kernel) rfl rfl
  · exact fun m off a v row x hm hl hr hd hc hf => registerWrite_of_plain hm hl hr hd hc hf
  · exact fun m off op a v row x hm ho hl hop hr hrw he hd hc hf => aliasWrite_of_plain hm ho hl hop hr hrw he hd hc hf
  · exact fun m a at_ ind v row x h hr _ hv h0 h1 => plainWrite_of_opens h hr hv h0 h1
  · exact fun m v h => blkEnWrite_of_opens h v
  · exact fun m v h => indAddrWrite_of_opens h v
  · exact fun m op hop h => ⟨indDataAccess_read hop h r ok, fun v b hl => indDataAccess_write_mem hop h hl v r ok⟩
  · exact fun m off hm h => ⟨fun bs hb => storeWindowAccess_write hm h off hb, fun len hl => storeWindowAccess_read hm h off hl,
      wideValueRead_aligned hm h, wideValueRead_unaligned hm h⟩

end Sys2Proof.Machine

/-! What a write to a keeper's register by another master does. -/

namespace Sys2Proof.Machine

/-! ## The gate towards a master that is not the keeper -/

/-- Register `a` lies in a block other than DEV, and every variant of the hub has it: a violation there is counted whoever the master is (R3, R39, R327). -/
def countedAt (a : Nat) : Bool := neverFused a && decide (pageOf a ≠ 0)

/-- A violation counts once in KP_WR, which stays at its highest value, and sets the master's bit (R326). -/
theorem countKp_eq (m : Nat) (s : State) :
    countKp m s = (s.put (BSK_VIOL_KP_WR m) (min (s.get (BSK_VIOL_KP_WR m) + 1) 65535)).put (mapBit BSK_VIOL_EVT m) 1 := by
  have hsat : ∀ n : Nat, (if n + 1 < 2 ^ 16 then n + 1 else 2 ^ 16 - 1) = min (n + 1) 65535 := by
    intro n
    split <;> omega
  rw [countKp, countViol, raise_eq_put, State.incSat, BSK_VIOL_KP_WR, hsat]

/-- A write of the keeper's field by another master counts a violation, and its effect `k` is none (R326, R327). -/
theorem gateWrite_of_not_keeper {s : State} {m a : Nat} (hhost : s.hostOk m = true) (hbuf : (s.bufs.find? fun e => e.1 == m) = none)
    (hblock : s.enabledAt a = true) (hkeeper : s.isKeeper m = false) (ha : countedAt a = true) (k : State → State) :
    gateWrite m a true k s = countKp m s := by
  simp only [countedAt, Bool.and_eq_true, decide_eq_true_eq] at ha
  obtain ⟨hfused, hpage⟩ := ha
  have hdrop : dropBuf m s = s := by simp only [dropBuf, hbuf]
  simp [gateWrite, hhost, hdrop, hblock, fusedOff_of_neverFused hfused s, hkeeper, hpage]

/-- Command `e.1` is an effect behind the gate of the keeper's register `e.2`, after which its meaning ends by `finish`. -/
def BehindGate (finish : State → State → Out) (m : Nat) (s : State) (e : Instr × Nat) : Prop :=
  countedAt e.2 = true ∧ ∃ k, exec e.1 s = finish s (gateWrite m e.2 true k s)

theorem behindGate {finish : State → State → Out} {m a : Nat} {s : State} {c : Instr} {k : State → State}
    (h : exec c s = finish s (gateWrite m a true k s)) (ha : countedAt a = true := by decide) : BehindGate finish m s (c, a) := ⟨ha, k, h⟩

/-- Settles O10: every listed command is an effect behind the gate of its register, and the gate counts the write and drops the effect. -/
theorem keeperGate : Obligations.KeeperGate := by
  unfold Obligations.KeeperGate
  intro s m a hhost hbuf hblock hkeeper t
  have hcount : ∀ {finish : State → State → Out} {c : Instr}, BehindGate finish m s (c, a) → exec c s = finish s t := by
    rintro finish c ⟨ha, k, hk⟩
    rw [hk, gateWrite_of_not_keeper hhost hbuf hblock hkeeper ha, countKp_eq]
  constructor
  · intro v b n all hb hn c hc
    refine hcount (finish := done) (List.forall_iff_forall_mem.1 ?_ (c, a) hc)
    exact ⟨behindGate rfl, behindGate rfl, behindGate rfl, behindGate rfl, behindGate rfl, behindGate rfl, behindGate rfl, behindGate rfl, behindGate rfl,
      behindGate (if_pos hn), behindGate (if_pos hn), behindGate rfl, behindGate rfl, behindGate rfl, behindGate rfl, behindGate rfl,
      behindGate (if_pos hb), behindGate rfl, behindGate rfl, behindGate rfl, behindGate rfl, behindGate rfl⟩
  · intro v b p r ok hb c hc
    refine hcount (finish := settled) (List.forall_iff_forall_mem.1 ?_ (c, a) hc)
    exact ⟨behindGate rfl, behindGate rfl, behindGate rfl, behindGate rfl, behindGate rfl, behindGate rfl, behindGate rfl,
      behindGate (if_pos hb), behindGate rfl, behindGate rfl, behindGate rfl, behindGate rfl, behindGate rfl, behindGate rfl, behindGate rfl,
      behindGate rfl, behindGate rfl, behindGate rfl, behindGate rfl⟩

end Sys2Proof.Machine

/-! What becomes of a command when it is parsed. -/

namespace Sys2Proof.Machine

/-! ## The commands of R141 are one command each for its OP -/

/-- The operations that become hops. -/
def hopCommands (c : CmdIn) : List (Instr × Nat) :=
  [(.hopArm c, 1), (.hopRetune c, 4), (.strandStart c, 5), (.strandStop c, 6), (.reedMeasure c, 8), (.measureStop c, 9),
    (.calStrand c, 10), (.calReed c, 11), (.calRim c, 12), (.calLane c, 13), (.calStore c, 14)]

/-- The operations of R141 that the checks of R144 let pass: all but NOP. -/
def checkedCommands (c : CmdIn) : List (Instr × Nat) :=
  [(.hopArm c, 1), (.hopCommit c, 2), (.hopSquash c, 3), (.hopRetune c, 4), (.strandStart c, 5), (.strandStop c, 6), (.reedMeasure c, 8),
    (.measureStop c, 9), (.calStrand c, 10), (.calReed c, 11), (.calRim c, 12), (.calLane c, 13), (.calStore c, 14)]

theorem mem_checkedCommands_of_mem_hopCommands {c : CmdIn} {e : Instr × Nat} (h : e ∈ hopCommands c) : e ∈ checkedCommands c := by
  simp only [hopCommands, checkedCommands, List.mem_cons, List.not_mem_nil, or_false] at h ⊢
  tauto

theorem op_le_of_mem_checkedCommands {c : CmdIn} {i : Instr} {o : Nat} (h : (i, o) ∈ checkedCommands c) : o ≤ 14 :=
  (by decide : ∀ o ∈ [1, 2, 3, 4, 5, 6, 8, 9, 10, 11, 12, 13, 14], o ≤ 14) o (List.mem_map_of_mem (f := Prod.snd) h)

theorem op_of_mem_hopCommands {c : CmdIn} {i : Instr} {o : Nat} (h : (i, o) ∈ hopCommands c) : o ≠ 2 ∧ o ≠ 3 :=
  (by decide : ∀ o ∈ [1, 4, 5, 6, 8, 9, 10, 11, 12, 13, 14], o ≠ 2 ∧ o ≠ 3) o (List.mem_map_of_mem (f := Prod.snd) h)

theorem exec_of_mem_checkedCommands {c : CmdIn} {i : Instr} {o : Nat} (h : (i, o) ∈ checkedCommands c) (s : State) :
    exec i s = command (· == o) c s := by
  have hall : ∀ e ∈ checkedCommands c, exec e.1 s = command (· == e.2) c s :=
    List.forall_iff_forall_mem.1 ⟨rfl, rfl, rfl, rfl, rfl, rfl, rfl, rfl, rfl, rfl, rfl, rfl, rfl⟩
  exact hall (i, o) h

/-- A command that comes, under an OP that the row takes, is received. -/
theorem command_of_incoming {ops : Nat → Bool} {c : CmdIn} {s : State} {p : Parsed} (h : s.incoming c = some p) (hop : ops (cmdOp p.w0) = true) :
    command ops c s = .next (deliver s (receive p s)) := by
  have hop' : ops p.op = true := hop
  simp only [command, h, hop', if_true, done_eq]

theorem exec_of_incoming {c : CmdIn} {s : State} {p : Parsed} {i : Instr} {o : Nat} (h : s.incoming c = some p) (hi : (i, o) ∈ checkedCommands c)
    (ho : cmdOp p.w0 = o) : exec i s = .next (deliver s (receive p s)) := by
  rw [exec_of_mem_checkedCommands hi]
  exact command_of_incoming h (beq_iff_eq.2 ho)

/-! ## Where a command received goes -/

theorem receive_nop {p : Parsed} (h : cmdOp p.w0 = 15) (s : State) : receive p s = forward p (consume p s) := if_pos h

theorem receive_not_addressed {p : Parsed} {s : State} (ho : cmdOp p.w0 ≠ 15) (h : s.addressed p = false) : receive p s = forward p s := by
  have ho' : p.op ≠ 15 := ho
  simp only [receive, ho', if_false, h, Bool.false_eq_true]

/-- What the parse of a command for this hub leaves: the command forwarded, or, where the parse answers nothing, waiting. -/
def acted (p : Parsed) (s : State) (o : Option State) : State := o.elim (stall p s) (forward p)

theorem receive_addressed {p : Parsed} {s : State} (ho : cmdOp p.w0 ≠ 15) (h : s.addressed p = true) : receive p s = acted p s (parse p s) := by
  have ho' : p.op ≠ 15 := ho
  simp only [receive, ho', if_false, h, if_true]
  cases parse p s <;> rfl

/-! ## What the parse answers -/

theorem parse_of_failed_check {p : Parsed} {s : State} {code d : Nat} (h : s.parseCheck p = some (code, d)) : parse p s = answerOr p code d s := by
  simp only [parse, h]

theorem parse_of_abortsAll {p : Parsed} {s : State} (h : s.parseCheck p = none) (ha : s.abortsAll = true) : parse p s = answerOr p cABORTED 0 s := by
  simp only [parse, h, ha, if_true]

theorem parse_enters {p : Parsed} {s : State} (h : s.parseCheck p = none) (ha : s.abortsAll = false) (h2 : cmdOp p.w0 ≠ 2) (h3 : cmdOp p.w0 ≠ 3) :
    parse p s = enterRing p s := by
  have h2' : p.op ≠ 2 := h2
  have h3' : p.op ≠ 3 := h3
  simp only [parse, h, ha, h2', h3', if_false, Bool.false_eq_true]

/-- The two unused values of OP fail the first check, whatever the source (R144). -/
theorem parseCheck_of_unused_op {p : Parsed} (h : cmdOp p.w0 = 0 ∨ cmdOp p.w0 = 7) (s : State) : s.parseCheck p = some (cBAD_CMD, 1) := by
  simp only [State.parseCheck, State.badCmd, h, if_true]

theorem enterRing_of_host {p : Parsed} {s : State} {r : Nat} (hsrc : p.src = .host r) (h : s.canReserve p.basket = true) :
    enterRing p s = some (newHop p none r true (s.setReserved p.basket (s.reservedOf p.basket + 1))) := by
  simp only [enterRing, hsrc, h, if_true]

/-- Ring `r` with the command's words stored at PROD and PROD moved on, and the credit in place `j` used (R236, R241). -/
def storedInRing (p : Parsed) (r j : Nat) (s : State) : State :=
  ((storeEntry (s.ringEntry r (s.get (RING_PROD_IDX r))) [p.w0, p.w1, p.w2, p.w3] s).put (RING_PROD_IDX r) (s.get (RING_PROD_IDX r) + 1)).put
    (RING_SRC_OUT_HELD r j) (s.get (RING_SRC_OUT_HELD r j) - 1)

/-- An entry is four words (R236). -/
theorem storeEntry_eq (a : Nat) (ws : List Word) (s : State) : storeEntry a ws s =
    (((s.setMemWord (a + 0) (ws.getD 0 0)).setMemWord (a + 4) (ws.getD 1 0)).setMemWord (a + 8) (ws.getD 2 0)).setMemWord (a + 12) (ws.getD 3 0) := by
  simp [storeEntry, eachDo, List.range_succ]

@[simp] theorem storeEntry_hops (a : Nat) (ws : List Word) (s : State) : (storeEntry a ws s).hops = s.hops := by simp only [storeEntry_eq, setMemWord_hops]
@[simp] theorem storeEntry_nextId (a : Nat) (ws : List Word) (s : State) : (storeEntry a ws s).nextId = s.nextId := by
  simp only [storeEntry_eq, setMemWord_nextId]
@[simp] theorem storeEntry_tal (a : Nat) (ws : List Word) (s : State) : (storeEntry a ws s).tal = s.tal := by simp only [storeEntry_eq, setMemWord_tal]

theorem newHop_storedInRing (p : Parsed) (feed : Option Nat) (ring r j : Nat) (reserved : Bool) (s : State) :
    newHop p feed ring reserved (storedInRing p r j s) =
      { storedInRing p r j s with hops := (newHop p feed ring reserved s).hops, nextId := s.nextId + 1 } := by
  simp [newHop, storedInRing, State.tally]

theorem enterRing_of_lane {p : Parsed} {s : State} {l r j : Nat} (hsrc : p.src = .lane l) (h : s.creditOf l p = some (r, j)) :
    enterRing p s = some (newHop p (some (s.feedOf l)) r false (storedInRing p r j s)) := by
  simp only [enterRing, hsrc, h, storedInRing]

theorem forward_of_host {p : Parsed} {r : Nat} (hsrc : p.src = .host r) (s : State) : forward p s = s := by
  simp only [forward, hsrc]

/-- A command that passes its checks, under an OP that becomes a hop, enters its ring. -/
theorem exec_hopCommand {c : CmdIn} {s : State} {p : Parsed} {i : Instr} {o : Nat} (h : s.incoming c = some p) (haddr : s.addressed p = true)
    (hcheck : s.parseCheck p = none) (habort : s.abortsAll = false) (hi : (i, o) ∈ hopCommands c) (ho : cmdOp p.w0 = o) :
    exec i s = .next (deliver s (acted p s (enterRing p s))) := by
  have hm := mem_checkedCommands_of_mem_hopCommands hi
  have hle := op_le_of_mem_checkedCommands hm
  obtain ⟨h2, h3⟩ := op_of_mem_hopCommands hi
  rw [exec_of_incoming h hm ho, receive_addressed (by omega) haddr, parse_enters hcheck habort (ho ▸ h2) (ho ▸ h3)]

/-- Settles O21: a host's command and a lane's enter their rings by `enterRing_of_host` and `enterRing_of_lane`. -/
theorem commandsEnterRings : Obligations.CommandsEnterRings := by
  unfold Obligations.CommandsEnterRings
  intro s c p h haddr hcheck habort fire hop i o hi ho
  rw [exec_hopCommand h haddr hcheck habort hi ho]
  constructor
  · intro r hsrc hroom
    rw [enterRing_of_host hsrc hroom, acted, Option.elim_some, forward_of_host hsrc]
    rfl
  · intro l r j hsrc hcredit t u
    rw [enterRing_of_lane hsrc hcredit, acted, Option.elim_some, newHop_storedInRing]
    rfl

/-- Settles O22: each case of the parse that ends a command there. -/
theorem commandsActedOnAtParse : Obligations.CommandsActedOnAtParse := by
  unfold Obligations.CommandsActedOnAtParse
  intro s c p h ans
  have hans : ∀ code d, Host.Outcome.next (deliver s (acted p s (answerOr p code d s))) = ans code d := by
    intro code d
    simp only [ans, acted]
    cases answerOr p code d s <;> rfl
  refine ⟨fun hop => ?_, fun haddr hop => ?_, fun i o hi ho => ?_, fun l hsrc => ?_⟩
  · rw [← receive_nop hop]
    exact command_of_incoming (ops := (· == 0xF)) h (beq_iff_eq.2 hop)
  · have hops : (cmdOp p.w0 == 0 || cmdOp p.w0 == 7) = true := by simpa using hop
    refine (command_of_incoming (ops := fun o => o == 0 || o == 7) h hops).trans ?_
    rw [receive_addressed (by omega) haddr, parse_of_failed_check (parseCheck_of_unused_op hop s)]
    exact hans _ _
  · have hne : cmdOp p.w0 ≠ 15 := by
      have := op_le_of_mem_checkedCommands hi
      omega
    rw [exec_of_incoming h hi ho]
    refine ⟨fun haddr => by rw [receive_not_addressed hne haddr], fun haddr code d hcheck => ?_, fun haddr hcheck habort => ?_⟩
    · rw [receive_addressed hne haddr, parse_of_failed_check hcheck, hans]
    · rw [receive_addressed hne haddr, parse_of_abortsAll hcheck habort]
      exact hans _ _
  · simp only [stall, hsrc]

end Sys2Proof.Machine

/-! What the hub does with a SYNC message. -/

namespace Sys2Proof.Machine

/-! ## The path of a message -/

section
variable {s : State} {x : Nat} {m : SyncMsg} (hx : x < 2) (hl : s.laneActive x = true)
include hx hl

theorem syncReceive_replaying (hr : s.flag (LANE_STATUS_REPLAY x) = true) :
    exec (.syncReceive x m) s = .next (deliver s (s.incSat (refused x))) := by
  simp only [exec, execSyncReceive, hx, hl, and_self, if_true, hr, done_eq]

variable (hr : s.flag (LANE_STATUS_REPLAY x) = false)
include hr

theorem syncReceive_wrongDomain (hdom : (m.dom = 1 ∨ m.dom = 2) ∧ m.dom ≠ x + 1) :
    exec (.syncReceive x m) s = .next (deliver s (raiseFault (srcTally (1 + x)) .talWire none 0
      (((forwardSync x m (noteSeq x m s)).incSat (refused x)).put TAL_EVENT_WIRE_ERR 1))) := by
  have hwrong : ((m.dom = 1 ∨ m.dom = 2) ∧ m.dom ≠ x + 1) ∨ m.hops ≠ s.get TAL_STATUS_CHAIN_POS := .inl hdom
  simp only [exec, execSyncReceive, hx, hl, and_self, if_true, hr, Bool.false_eq_true, if_false, hwrong, if_pos hdom, done_eq, raise_eq_put]

theorem syncReceive_wrongHops (hdom : ¬((m.dom = 1 ∨ m.dom = 2) ∧ m.dom ≠ x + 1)) (hhops : m.hops ≠ s.get TAL_STATUS_CHAIN_POS) :
    exec (.syncReceive x m) s = .next (deliver s (raiseFault (srcTally (1 + x)) .talWire none 1
      (((forwardSync x m (noteSeq x m s)).incSat (refused x)).put TAL_EVENT_WIRE_ERR 1))) := by
  simp only [exec, execSyncReceive, hx, hl, and_self, if_true, hr, Bool.false_eq_true, if_false, hdom, hhops, not_false_eq_true, or_true, ne_eq, done_eq,
    raise_eq_put]

theorem syncReceive_refused (hdom : ¬((m.dom = 1 ∨ m.dom = 2) ∧ m.dom ≠ x + 1)) (hhops : m.hops = s.get TAL_STATUS_CHAIN_POS)
    (hbad : m.dom ≠ x + 1 ∨ 12 < m.logInt ∨ m.flags % 2 = 0) :
    exec (.syncReceive x m) s = .next (deliver s ((forwardSync x m (noteSeq x m s)).incSat (refused x))) := by
  have hwrong : ¬(((m.dom = 1 ∨ m.dom = 2) ∧ m.dom ≠ x + 1) ∨ m.hops ≠ s.get TAL_STATUS_CHAIN_POS) := not_or.2 ⟨hdom, not_not.2 hhops⟩
  simp only [exec, execSyncReceive, hx, hl, and_self, if_true, hr, Bool.false_eq_true, if_false, hwrong, hbad, done_eq]

theorem syncReceive_accepted (hdom : m.dom = x + 1) (hhops : m.hops = s.get TAL_STATUS_CHAIN_POS) (hint : m.logInt ≤ 12) (hflag : m.flags % 2 = 1) :
    exec (.syncReceive x m) s = .next (deliver s (acceptSync x m (forwardSync x m (noteSeq x m s)))) := by
  have hwrong : ¬(((m.dom = 1 ∨ m.dom = 2) ∧ m.dom ≠ x + 1) ∨ m.hops ≠ s.get TAL_STATUS_CHAIN_POS) :=
    not_or.2 ⟨fun h => h.2 hdom, not_not.2 hhops⟩
  have hgood : ¬(m.dom ≠ x + 1 ∨ 12 < m.logInt ∨ m.flags % 2 = 0) := by omega
  simp only [exec, execSyncReceive, hx, hl, and_self, if_true, hr, Bool.false_eq_true, if_false, hwrong, hgood, done_eq]

end

/-! ## Forwarding, and the sequence number -/

theorem forwardSync_of_closed {s : State} {x : Nat} (h : s.laneActive (2 + x) = false ∨ (s.link (2 + x)).episode.isSome = true) (m : SyncMsg) :
    forwardSync x m s = s := by
  refine if_pos ?_
  rcases h with h | h <;> simp [h]

theorem forwardSync_of_open {s : State} {x : Nat} (hl : s.laneActive (2 + x) = true) (he : (s.link (2 + x)).episode = none) (m : SyncMsg) :
    forwardSync x m s = { s with sent := .sync (2 + x) { m with
      correction := m.correction + dIn x s + roundAway (((m.tOut : Int) - m.tIn) * 1000000000) (2 ^ 32), hops := (m.hops + 1) % 8 } :: s.sent } :=
  if_neg (by simp [hl, he])

/-- The domains stand in the tally, so an update that leaves it alone leaves them alone. -/
theorem dom_congr {s t : State} (h : t.tal = s.tal) (x : Nat) : t.dom x = s.dom x := by
  simp only [State.dom, h]

theorem noteSeq_of_gap {s : State} {x q g : Nat} {m : SyncMsg} (hq : (s.dom x).seq = some q) (hlt : q < 65536) (hm : m.seq = (q + 1 + g) % 65536)
    (hpos : 0 < g) (hg : g < 65536) :
    noteSeq x m s = (((s.addSat (gaps x) g).put TAL_EVENT_SEQ_GAP 1).setDom x { s.dom x with seq := some m.seq }) := by
  have hsize : (m.seq + 2 * 65536 - q - 1) % 65536 = g := by omega
  have hseq : m.seq % 65536 = m.seq := by omega
  have hdom : ((s.addSat (gaps x) g).put TAL_EVENT_SEQ_GAP 1).dom x = s.dom x := dom_congr (by rw [put_tal, addSat_tal]) x
  simp only [noteSeq, hq, hsize, hpos.ne', if_false, raise_eq_put, hdom, hseq]

/-! ## Acceptance -/

/-- The offset that a message tells: its ingress stamp less the master's time, as its origin and its corrections give it (R85). -/
def syncOffset (x : Nat) (m : SyncMsg) (s : State) : Int := (m.tIn : Int) - ((m.origin : Int) + roundAway ((m.correction + dIn x s) * 2 ^ 32) 1000000000)

/-- The latest accepted message of domain `x` came within DOM_TMO (R94). -/
def syncNear (x : Nat) (s : State) : Bool :=
  match (s.dom x).last with
  | some t => decide (s.elapsed ≤ t + s.get TAL_DOM_CFG_DOM_TMO * 2 ^ 48 / 10000)
  | none => false

/-- The offset published and kept, with `j` rates in a row beyond JUMP_THR. -/
def publishSync (x : Nat) (m : SyncMsg) (j : Nat) (s : State) : State :=
  (s.setReg (TAL_OFF_A + 4 * x) (offFs (syncOffset x m s))).setDom x
    { s.dom x with off := syncOffset x m s, last := some s.elapsed, close := syncNear x s, jumps := j }

/-- An accepted message counted: its domain, where INVALID, is CHECKING, and becomes VALID where it meets the conditions (R94). -/
def countSync (x : Nat) (m : SyncMsg) (s : State) : State :=
  let t := (publishSync x m 0 s).incMod (accepted x)
  tryValid x (if t.domState x = 0 then t.put (domFld x) 1 else t)

/-- A rate beyond JUMP_THR refuses the message, and the third in a row ends the domain (R95). -/
theorem acceptSync_of_far {x : Nat} {m : SyncMsg} {s : State} (hv : s.domState x ≠ 0) (hfar : 100000 * s.get TAL_DOM_CFG_JUMP_THR < m.dev.natAbs) :
    acceptSync x m s =
      let t := (publishSync x m ((s.dom x).jumps + 1) s).incSat (refused x)
      if 3 ≤ (s.dom x).jumps + 1 then domainInvalid x t else t := by
  have hf : (s.domState x != dINVALID && decide (100000 * s.get TAL_DOM_CFG_JUMP_THR < m.dev.natAbs)) = true := by
    simp [dINVALID, hv, hfar]
  simp only [acceptSync, hf, if_true]
  rfl

/-- What a counted message does beside: where it steers the tally, the rate is set. -/
def steerSync (x : Nat) (m : SyncMsg) (s u : State) : State :=
  if u.get TAL_STATUS_SEL = x ∧ (u.get TAL_STATUS_STATE = tACQUIRE ∨ u.get TAL_STATUS_STATE = tTRACKING) then
    let v := { u with freeCtr := u.freeCtr + 2 }
    setRate (Config.freeInt u.freeCtr) (if v.flag TAL_STATUS_SLEWING then v.slewPart (syncOffset x m s) (Config.freeNat (u.freeCtr + 1)) else 0) v
  else u

theorem acceptSync_of_near {x : Nat} {m : SyncMsg} {s : State} (h : s.domState x = 0 ∨ m.dev.natAbs ≤ 100000 * s.get TAL_DOM_CFG_JUMP_THR) :
    acceptSync x m s = steerSync x m s (countSync x m s) := by
  have hf : (s.domState x != dINVALID && decide (100000 * s.get TAL_DOM_CFG_JUMP_THR < m.dev.natAbs)) = false := by
    rcases h with h | h <;> simp [dINVALID, h]
  simp only [acceptSync, hf, if_false, Bool.false_eq_true]
  rfl

theorem steerSync_of_not_steering {x : Nat} {m : SyncMsg} {s u : State}
    (h : u.get TAL_STATUS_STATE = 0 ∨ u.get TAL_STATUS_STATE = 3 ∨ u.get TAL_STATUS_SEL ≠ x) : steerSync x m s u = u := by
  refine if_neg ?_
  simp only [tACQUIRE, tTRACKING]
  omega

/-- The slew that removes an offset is within its limit (R97). -/
theorem slewPart_natAbs_le (s : State) (off : Int) (k : Nat) : (s.slewPart off k).natAbs ≤ s.slewLimit := by
  simp only [State.slewPart]
  split
  · omega
  · split <;> omega

theorem steerSync_of_steering {x : Nat} {m : SyncMsg} {s u : State} (hst : u.get TAL_STATUS_STATE = 1 ∨ u.get TAL_STATUS_STATE = 2)
    (hsel : u.get TAL_STATUS_SEL = x) :
    ∃ w : Int, w.natAbs ≤ u.slewLimit ∧ steerSync x m s u = setRate (Config.freeInt u.freeCtr) w { u with freeCtr := u.freeCtr + 2 } := by
  refine ⟨_, ?_, if_pos ⟨hsel, hst⟩⟩
  split
  · exact slewPart_natAbs_le _ _ _
  · exact Nat.zero_le _

/-- Settles O18: the path of the message, and what acceptance does, case by case. -/
theorem syncMessages : Obligations.SyncMessages := by
  unfold Obligations.SyncMessages
  intro s x m hx hl
  refine ⟨syncReceive_replaying hx hl, fun hr => ?_, fun h => forwardSync_of_closed h m, fun ha he => forwardSync_of_open ha he m,
    fun q g hq hlt hm hpos hg => noteSeq_of_gap hq hlt hm hpos hg, ?_⟩
  · have hsrc : srcTally (1 + x) = 0x9001 + x := by
      rw [srcTally, ← Nat.add_assoc]
    refine ⟨fun hdom => ?_, fun hdom hhops => ?_, fun hdom hhops hbad => syncReceive_refused hx hl hr hdom hhops hbad,
      fun hdom hhops hint hflag => syncReceive_accepted hx hl hr hdom hhops hint hflag⟩
    · rw [syncReceive_wrongDomain hx hl hr hdom, hsrc]
    · rw [syncReceive_wrongHops hx hl hr hdom hhops, hsrc]
  · refine ⟨acceptSync_of_far, fun hnear => ?_⟩
    rw [acceptSync_of_near hnear]
    exact ⟨steerSync_of_not_steering, steerSync_of_steering⟩

end Sys2Proof.Machine

/-! What the hub does while no command waits. -/

namespace Sys2Proof.Machine

theorem nominalInc_eq : nominalInc = 176848577040768611 := by decide

theorem slewOn_of_not_moving {s : State} (h : s.hrt.moving = false) : slewOn s = s := by
  simp only [slewOn, h, Bool.false_eq_true, if_false]

/-- While the frequency moves, a free value tells whether it still does, and another whether the SLEW limit holds its rate (R57). -/
theorem slewOn_of_moving {s : State} (h : s.hrt.moving = true) :
    slewOn s = ({ s with freeCtr := s.freeCtr + 2, hrt := { s.hrt with moving := Config.freeBit s.freeCtr } } : State).put HRT_STATUS_SLEWING
      (if s.get HRT_CTRL_SLEW ≠ 0 ∧ Config.freeBit s.freeCtr = true ∧ Config.freeBit (s.freeCtr + 1) = true then 1 else 0) := by
  simp only [slewOn, h, if_true, putFlag_eq_put, Bool.and_eq_true, bne_iff_ne, and_assoc]
  rfl

@[simp] theorem slewOn_tal (s : State) : (slewOn s).tal = s.tal := by
  rw [slewOn]
  split <;> rfl

@[simp] theorem slewOn_fine (s : State) : (slewOn s).fine = s.fine := by
  rw [slewOn]
  split <;> rfl

theorem tick_eq (s : State) :
    tick s = { slewOn s with tal := { s.tal with count := (s.tal.count + s.increment) % 2 ^ 136 }, fine := s.fine + s.increment,
                             elapsed := (s.fine + s.increment) / 2 ^ 40 } := by
  simp only [tick, slewOn_tal, slewOn_fine]

theorem step_of_empty {s : State} (h : s.pending = []) : step s = .next (tick s) := by
  simp only [step, h]

theorem increment_of_free {s : State} (h : s.get TAL_STATUS_STATE = 0 ∨ s.hrt.everLocked = false) : s.increment = 176848577040768611 := by
  have hc : s.get TAL_STATUS_STATE = 0 ∨ (!s.hrt.everLocked) = true := by simpa using h
  rw [State.increment, if_pos hc, nominalInc_eq]

theorem increment_of_steered {s : State} (h : s.get TAL_STATUS_STATE ≠ 0) (hl : s.hrt.everLocked = true) :
    s.increment = ((176848577040768611 : Int) + 176848577040768611 * signed 32 (s.get TAL_RATE_RATE) / 10000000000).toNat := by
  have hc : ¬(s.get TAL_STATUS_STATE = 0 ∨ (!s.hrt.everLocked) = true) := by simp [h, hl]
  rw [State.increment, if_neg hc, nominalInc_eq, State.rate]
  rfl

/-- Settles O2: a step on an empty queue is a tick, and that moves the clocks on by the increment word. -/
theorem emptyQueueTicks : Obligations.EmptyQueueTicks := by
  unfold Obligations.EmptyQueueTicks
  refine ⟨fun s hs u hu => ?_, fun s => slewOn_of_moving, fun s => increment_of_free, fun s => increment_of_steered⟩
  have hslew : u = slewOn s := by
    rw [hu]
    split
    · rfl
    · next h => rw [slewOn_of_not_moving (Bool.not_eq_true _ ▸ h)]
  rw [step_of_empty hs, tick_eq, hslew, slewOn_tal]

end Sys2Proof.Machine

/-! What the hearth's sources and their monitors do. -/

namespace Sys2Proof.Machine

/-! ## Fields and outcomes -/

theorem get_lt (s : State) (f : Fld) : s.get f < 2 ^ f.w := Nat.mod_lt _ (Nat.two_pow_pos _)

theorem bitsAt_zero (v : Word) (w : Nat) : bitsAt v 0 w = v.toNat % 2 ^ w := by
  rw [bitsAt, Nat.pow_zero, Nat.div_one]

theorem done_ite (c : Prop) [Decidable c] (s a b : State) : (if c then done s a else done s b) = .next (deliver s (if c then a else b)) :=
  (apply_ite (fun t => Host.Outcome.next (deliver s t)) c a b).symm

theorem settled_ite (c : Prop) [Decidable c] (s a b : State) :
    (if c then settled s a else settled s b) = .next (deliver s (settleAll (if c then a else b))) :=
  (apply_ite (fun t => Host.Outcome.next (deliver s (settleAll t))) c a b).symm

theorem done_congr {s a b : State} (h : a = b) : (.next (deliver s a) : Out) = .next (deliver s b) := by rw [h]

theorem settled_congr {s a b : State} (h : a = b) : (.next (deliver s (settleAll a)) : Out) = .next (deliver s (settleAll b)) := by rw [h]

/-! ## The monitors of the sources -/

/-- A source from CHECKING on is CHECKING or QUALIFIED: there is no further state (R45). -/
theorem qstate_of_two_le {s : State} {x : Nat} (h : 2 ≤ s.get (HRT_SRC_STATUS_QSTATE x)) : s.qstate x = qCHECKING ∨ s.qstate x = qQUALIFIED := by
  have hlt : s.get (HRT_SRC_STATUS_QSTATE x) < 4 := get_lt s _
  simp only [State.qstate, qCHECKING, qQUALIFIED]
  omega

/-- A settle delay that counts from now on counts from the moment of any state that has the same hearth and the same time. -/
theorem settleFrom_congr {s t : State} (hh : t.hrt = s.hrt) (he : t.elapsed = s.elapsed) :
    ({ t with hrt := { t.hrt with settleFrom := t.elapsed } } : State) = { t with hrt := { s.hrt with settleFrom := s.elapsed } } := by
  rw [hh, he]

theorem xrefActivityReturn_of_absent {s : State} (hp : s.flag HRT_SRC_STATUS_XREF_PRESENT = true) (hq : s.get (HRT_SRC_STATUS_QSTATE 2) = 0) :
    exec .xrefActivityReturn s = .next (deliver s
      { (s.put (HRT_SRC_STATUS_QSTATE 2) 1).put (HRT_SRC_STATUS_ACT 2) 1 with hrt := { s.hrt with settleFrom := s.elapsed } }) :=
  (if_pos ⟨hp, hq⟩).trans (done_congr
    (settleFrom_congr ((put_hrt ..).trans (put_hrt ..)) ((put_elapsed ..).trans (put_elapsed ..))))

theorem coarseFreqGateEnd_of_checked {s : State} {x : Nat} (hx : x < 3) (off : Int) (hq : 2 ≤ s.get (HRT_SRC_STATUS_QSTATE x)) :
    exec (.coarseFreqGateEnd x off) s =
      let t := if s.hearthTimebase then s else s.setReg (HRT_FOFF_A + 4 * x) (BitVec.ofInt 32 off)
      .next (deliver s (if off.natAbs ≤ 2000000 then t.put (HRT_SRC_STATUS_COARSE_OK x) 1
        else monitorTrip x 2 2 (t.put (HRT_SRC_STATUS_COARSE_OK x) 0))) :=
  (if_pos ⟨hx, qstate_of_two_le hq⟩).trans (done_ite _ _ _ _)

theorem fineFreqGateEnd_of_unselected {s : State} {x : Nat} (hx : x < 3) (off : Int) (hq : s.get (HRT_SRC_STATUS_QSTATE x) ≠ 0)
    (hsel : s.get HRT_STATUS_SEL ≠ x) (ht : s.hearthTimebase = true) :
    exec (.fineFreqGateEnd x off) s =
      let t := s.setReg (HRT_FOFF_A + 4 * x) (BitVec.ofInt 32 off)
      .next (deliver s (if off.natAbs ≤ 1000 * s.get HRT_MON_CFG_FWIN then t.put (HRT_SRC_STATUS_FINE_OK x) 1
        else monitorTrip x 3 (min (s.get (HRT_SRC_STATUS_QSTATE x)) 2) (t.put (HRT_SRC_STATUS_FINE_OK x) 0))) :=
  (if_pos ⟨hx, hsel, ht, hq⟩).trans (done_ite _ _ _ _)

/-- Settles O11: each monitor's command where its conditions hold. -/
theorem sourceMonitors : Obligations.SourceMonitors := by
  unfold Obligations.SourceMonitors
  intro s
  refine ⟨fun hp ha => if_pos ⟨hp, ha⟩, fun hp hq => xrefActivityReturn_of_absent hp hq, fun hq => if_pos hq, fun x hx hq => if_pos ⟨hx, hq⟩,
    fun x hx off hq => coarseFreqGateEnd_of_checked hx off hq, fun x hx off hq hsel ht => ?_,
    fun x hx mv ph hq hx' hmv => if_pos ⟨hx, hx', qstate_of_two_le hq, hmv⟩⟩
  have hmin : min (s.get (HRT_SRC_STATUS_QSTATE x)) 2 = if s.get (HRT_SRC_STATUS_QSTATE x) = 1 then 1 else 2 := by
    split <;> omega
  rw [fineFreqGateEnd_of_unselected hx off hq hsel ht, hmin]
  rfl

end Sys2Proof.Machine

/-! What the hearth does when sources qualify or are lost. -/

namespace Sys2Proof.Machine

/-! ## The choice of a source -/

section
variable {s : State} (x : Nat)

theorem takeSource_of_locked (h : s.get HRT_STATUS_STATE = 1) : takeSource x s = if x = s.get HRT_STATUS_SEL then s else switchTo x s := if_pos h

theorem takeSource_of_holdover (h : s.get HRT_STATUS_STATE = 2) : takeSource x s = leaveHoldover x s := by
  simp [takeSource, State.hearth, h, hLOCKED, hHOLDOVER]

theorem takeSource_of_acquiring (h : s.get HRT_STATUS_STATE = 0 ∨ s.get HRT_STATUS_STATE = 3) : takeSource x s = s.put HRT_STATUS_SEL x := by
  rcases h with h | h <;> simp [takeSource, State.hearth, h, hLOCKED, hHOLDOVER, hACQUIRE, hWAIT]

theorem takeSource_of_lost (h : 4 ≤ s.get HRT_STATUS_STATE) : takeSource x s = s := by
  have hlocked : ¬s.get HRT_STATUS_STATE = 1 := by omega
  have hholdover : ¬s.get HRT_STATUS_STATE = 2 := by omega
  have hacquiring : ¬(s.get HRT_STATUS_STATE = 0 ∨ s.get HRT_STATUS_STATE = 3) := by omega
  exact (if_neg hlocked).trans ((if_neg hholdover).trans (if_neg hacquiring))

end

section
variable {s : State}

theorem reselect_of_not_acquire (h : s.get HRT_STATUS_STATE ≠ 0) : reselect s = s := if_neg h

theorem reselect_forced (h : s.get HRT_STATUS_STATE = 0)
    (hf : s.get HRT_CTRL_MODE = 1 ∧ s.get (HRT_SRC_STATUS_QSTATE (s.get HRT_CTRL_FORCE_SRC)) = 3) :
    reselect s = s.put HRT_STATUS_SEL (s.get HRT_CTRL_FORCE_SRC) := (if_pos h).trans (if_pos hf)

theorem reselect_auto (h : s.get HRT_STATUS_STATE = 0)
    (hf : ¬(s.get HRT_CTRL_MODE = 1 ∧ s.get (HRT_SRC_STATUS_QSTATE (s.get HRT_CTRL_FORCE_SRC)) = 3)) :
    reselect s = s.put HRT_STATUS_SEL (s.bestSource.getD 3) := (if_pos h).trans (if_neg hf)

end

/-! ## Sources that become QUALIFIED together -/

/-- The sources of `xs` that become QUALIFIED: those CHECKING (R45). -/
def State.ripe (s : State) (xs : List Nat) : List Nat := xs.filter fun x => decide (x < 3 ∧ s.get (HRT_SRC_STATUS_QSTATE x) = 2)

theorem qualificationWindowElapsed_eq {s : State} {xs : List Nat} (h : ∃ x ∈ xs, x < 3 ∧ s.get (HRT_SRC_STATUS_QSTATE x) = 2) :
    exec (.qualificationWindowElapsed xs) s = .next (deliver s (sourcesQualified (s.ripe xs) s)) := by
  have hripe : (xs.filter fun x => decide (x < 3) && s.qstate x == qCHECKING) = s.ripe xs :=
    List.filter_congr fun x _ => (Bool.decide_and ..).symm
  have hne : s.ripe xs ≠ [] := by
    obtain ⟨x, hx, hq⟩ := h
    exact List.ne_nil_of_mem (List.mem_filter.2 ⟨hx, decide_eq_true hq⟩)
  rw [exec, execQualificationWindowElapsed, hripe]
  cases hys : s.ripe xs with
  | nil => exact absurd hys hne
  | cons y ys => rfl

section
variable {s t : State} {ys : List Nat} (ht : eachDo ys qualify s = t)
include ht

theorem sourcesQualified_reselect (h : ¬(t.get HRT_STATUS_STATE = 2 ∨ t.get HRT_STATUS_STATE = 3 ∧ t.get HRT_STATUS_SEL = 3)) :
    sourcesQualified ys s = reselect t := ht ▸ if_neg (ht.symm ▸ h)

theorem sourcesQualified_take {x : Nat} (h : t.get HRT_STATUS_STATE = 2 ∨ t.get HRT_STATUS_STATE = 3 ∧ t.get HRT_STATUS_SEL = 3)
    (hx : (prioOrder (t.get HRT_CTRL_PRIO)).find? (fun y => ys.contains y) = some x) : sourcesQualified ys s = takeSource x t := by
  subst ht
  refine (if_pos h).trans ?_
  rw [hx]

end

/-! ## The loss of the selected source -/

section
variable {s : State}

theorem afterLoss_of_kept (h : s.get HRT_STATUS_SEL = 3 ∨ s.get (HRT_SRC_STATUS_QSTATE (s.get HRT_STATUS_SEL)) = 3) : afterLoss s = s := by
  refine if_neg ?_
  rintro ⟨hsel, hq⟩
  have hlt : s.get HRT_STATUS_SEL < 3 := hsel
  rcases h with h | h
  · omega
  · exact hq h

variable (hsel : s.get HRT_STATUS_SEL ≠ 3) (hq : s.get (HRT_SRC_STATUS_QSTATE (s.get HRT_STATUS_SEL)) ≠ 3)
include hsel hq

theorem selected_lost : s.sel < 3 ∧ s.qstate s.sel ≠ qQUALIFIED := by
  have hlt : s.get HRT_STATUS_SEL < 4 := get_lt s _
  exact ⟨show s.get HRT_STATUS_SEL < 3 by omega, hq⟩

theorem afterLoss_of_locked (h : s.get HRT_STATUS_STATE = 1) : afterLoss s = selectedLost s :=
  (if_pos (selected_lost hsel hq)).trans (if_pos h)

theorem afterLoss_of_acquiring (h : s.get HRT_STATUS_STATE = 0 ∨ s.get HRT_STATUS_STATE = 3) :
    afterLoss s = s.put HRT_STATUS_SEL (s.bestSource.getD 3) := by
  have hne : ¬s.get HRT_STATUS_STATE = 1 := by omega
  exact (if_pos (selected_lost hsel hq)).trans ((if_neg hne).trans (if_pos h))

end

theorem selectedLost_of_best {s : State} {y : Nat} (h : s.bestSource = some y) : selectedLost s = switchTo y s := by
  simp only [selectedLost, h]

theorem selectedLost_of_history {s : State} (h : s.bestSource = none) (hw : s.get HRT_HOLD_CFG_HOLD_WIN ≠ 0)
    (hh : s.flag HRT_STATUS_HIST_VALID = true) : selectedLost s = enterHoldover s := by
  simp only [selectedLost, h, ne_eq, hw, not_false_eq_true, hh, and_self, if_true]

theorem selectedLost_of_no_history {s : State} (h : s.bestSource = none)
    (hn : s.get HRT_HOLD_CFG_HOLD_WIN = 0 ∨ s.flag HRT_STATUS_HIST_VALID = false) : selectedLost s = enterWait 0 (s.put HRT_STATUS_SEL 3) := by
  have hc : ¬(s.get HRT_HOLD_CFG_HOLD_WIN ≠ 0 ∧ s.flag HRT_STATUS_HIST_VALID = true) := by
    rcases hn with hn | hn <;> simp [hn]
  simp only [selectedLost, h, if_neg hc]

/-- Settles O12: the qualification of sources by `sourcesQualified`, and a loss by `afterLoss`, case by case. -/
theorem sourceSelection : Obligations.SourceSelection := by
  unfold Obligations.SourceSelection
  intro s
  refine ⟨fun xs hxs => ?_, fun x q => rfl, afterLoss_of_kept, fun hsel hq => ⟨fun hst => ?_, afterLoss_of_acquiring hsel hq⟩,
    fun x hx hst hmode hrev hq hrank => if_pos ⟨hx, hst, hmode, hrev, hq, hrank⟩⟩
  · intro ys t o
    have ho : o = .next (deliver s (sourcesQualified ys s)) := qualificationWindowElapsed_eq hxs
    have ht : eachDo ys qualify s = t := rfl
    have hre : ∀ _ : ¬(t.get HRT_STATUS_STATE = 2 ∨ t.get HRT_STATUS_STATE = 3 ∧ t.get HRT_STATUS_SEL = 3),
        o = .next (deliver s (reselect t)) := fun hn => by rw [ho, sourcesQualified_reselect ht hn]
    refine ⟨fun hst hf => ?_, fun hst hf => ?_, fun x hx => ⟨fun hst => ?_, fun hst hsel => ?_⟩, fun hst => ?_⟩
    · rw [hre (by omega), reselect_forced hst hf]
    · rw [hre (by omega), reselect_auto hst hf]
    · rw [ho, sourcesQualified_take ht (.inl hst) hx, takeSource_of_holdover x hst]
      rfl
    · rw [ho, sourcesQualified_take ht (.inr ⟨hst, hsel⟩) hx, takeSource_of_acquiring x (.inr hst)]
    · rw [hre (by omega), reselect_of_not_acquire (by omega)]
  · rw [afterLoss_of_locked hsel hq hst]
    exact ⟨fun y => selectedLost_of_best, selectedLost_of_history, selectedLost_of_no_history⟩

end Sys2Proof.Machine

/-! How the hearth locks, unlocks and is lost. -/

namespace Sys2Proof.Machine

theorem msec_second : msec 1000 = 2 ^ 48 := by decide

theorem holdTuning_eq (v : Int) (s : State) :
    holdTuning v s = ({ s with hrt := { s.hrt with frozen := true, tune := v, moving := false } } : State).put HRT_STATUS_SLEWING 0 := rfl

/-- Holding the tuning changes of the registers only SLEWING. -/
theorem get_holdTuning (v : Int) (s : State) (f : Fld) (h : fieldsApart HRT_STATUS_SLEWING f = true) : (holdTuning v s).get f = s.get f := by
  rw [holdTuning_eq, get_put_apart _ _ _ _ h]
  rfl

/-- The tuning word depends on the hearth and the moment only. -/
theorem tuningNow_congr {s t : State} (hh : t.hrt = s.hrt) (hf : t.fine = s.fine) : t.tuningNow = s.tuningNow := by
  rw [State.tuningNow, hh, hf, State.tuningNow]

@[simp] theorem loseHistory_hrt (s : State) : (loseHistory s).hrt = s.hrt := by
  rw [loseHistory]
  split
  · rw [raise_eq_put, lower_eq_put, put_hrt, put_hrt]
  · rfl

/-! ## WAIT -/

/-- The hearth's registers and tuning as it enters WAIT, before the spokes park (R62). -/
def hearthWaiting (v : Int) (window : Nat) (s : State) : State :=
  (holdTuning v ((s.put HRT_STATUS_STATE 3).put HRT_STATUS_LEFT window)).put HRT_EVENT_WAIT_ENTER 1

theorem hearthWaiting_state (v : Int) (window : Nat) (s : State) : (hearthWaiting v window s).get HRT_STATUS_STATE = 3 := by
  rw [hearthWaiting, get_put_apart _ _ _ _ (by decide), get_holdTuning _ _ _ (by decide), get_put_apart _ _ _ _ (by decide),
    get_put_self _ _ _ (by decide)]
  rfl

theorem hearthWaiting_sel (v : Int) (window : Nat) (s : State) : (hearthWaiting v window s).get HRT_STATUS_SEL = s.get HRT_STATUS_SEL := by
  rw [hearthWaiting, get_put_apart _ _ _ _ (by decide), get_holdTuning _ _ _ (by decide), get_put_apart _ _ _ _ (by decide),
    get_put_apart _ _ _ _ (by decide)]

/-- What entering WAIT does beside: every spoke parks, each basket with a bound strand has a class B fault, and the calibrations that need a LOCKED
hearth end (R62, R223). -/
def waitEffects (why : Nat) (t : State) : State :=
  let u := parkSpokes SPK_STATUS_C_HEARTH allSpokes { t with hrt := { t.hrt with leftFrom := t.elapsed } }
  abandonCalHearth (eachDo u.boundBaskets (fun b => raiseFault 0x1000 .hearthWait (some b) why) u)

theorem enterWait_eq (why : Nat) (s : State) : enterWait why s = waitEffects why (hearthWaiting s.tuningNow (s.get HRT_HOLD_CFG_WAIT_MAX) s) := rfl

theorem hearthUnlock_of_locked {s : State} (h : s.get HRT_STATUS_STATE = 1) :
    exec .hearthUnlock s =
      .next (deliver s (waitEffects 1 (hearthWaiting s.tuningNow (s.get HRT_HOLD_CFG_WAIT_MAX) (s.put HRT_EVENT_UNLOCK 1)))) := by
  have htune : (s.put HRT_EVENT_UNLOCK 1).tuningNow = s.tuningNow := tuningNow_congr (put_hrt ..) (put_fine ..)
  have hwin : (s.put HRT_EVENT_UNLOCK 1).get HRT_HOLD_CFG_WAIT_MAX = s.get HRT_HOLD_CFG_WAIT_MAX := get_put_ne _ _ _ _ (by decide)
  refine (if_pos h).trans ?_
  rw [raise_eq_put, enterWait_eq, htune, hwin, done_eq]

/-! ## A lock declared -/

/-- LOCKED, with no time left (R52). -/
def hearthLocked (s : State) : State := (s.put HRT_STATUS_STATE 1).put HRT_STATUS_LEFT 0

/-- The hearth has locked since reset (R82). -/
def noteEverLocked (s : State) : State := { s with hrt := { s.hrt with everLocked := true } }

/-- The bandwidth of the staircase's start, and a tuning that is no longer held (R54). -/
def startStaircase (s : State) : State := { s with hrt := { s.hrt with bwNow := 12, frozen := false } }

/-- At the first lock since reset the tally moves to the hearth (R82). -/
def handoverOnce (s : State) : State := if s.hrt.everLocked then s else tallyHandover (noteEverLocked s)

@[simp] theorem hearthLocked_hrt (s : State) : (hearthLocked s).hrt = s.hrt := (put_hrt ..).trans (put_hrt ..)

theorem handoverOnce_hearthLocked (s : State) :
    handoverOnce (hearthLocked s) = if s.hrt.everLocked then hearthLocked s else tallyHandover (noteEverLocked (hearthLocked s)) := by
  rw [handoverOnce, hearthLocked_hrt]

theorem hearthLocked_state (s : State) : (hearthLocked s).get HRT_STATUS_STATE = 1 := by
  rw [hearthLocked, get_put_apart _ _ _ _ (by decide), get_put_self _ _ _ (by decide)]
  rfl

theorem hearthLocked_sel (s : State) : (hearthLocked s).get HRT_STATUS_SEL = s.get HRT_STATUS_SEL := by
  rw [hearthLocked, get_put_apart _ _ _ _ (by decide), get_put_apart _ _ _ _ (by decide)]

theorem startStaircase_get (s : State) (f : Fld) : (startStaircase s).get f = s.get f := get_congr rfl f

/-- A lock from WAIT keeps the count of failed reacquisitions (R64). -/
theorem lockFromWait_fails (s : State) : ((loseHistory (startStaircase (hearthLocked s))).put HRT_EVENT_WAIT_EXIT 1).hrt.fails = s.hrt.fails := by
  have hfails : (startStaircase (hearthLocked s)).hrt.fails = (hearthLocked s).hrt.fails := rfl
  rw [put_hrt, loseHistory_hrt, hfails, hearthLocked_hrt]

section
variable {s : State} (hsel : s.get HRT_STATUS_SEL < 3) (hq : s.get (HRT_SRC_STATUS_QSTATE (s.get HRT_STATUS_SEL)) = 3)
include hsel hq

theorem hearthLockDeclare_of_acquire (h : s.get HRT_STATUS_STATE = 0) :
    exec .hearthLockDeclare s = .next (deliver s (settleAll (startStaircase (handoverOnce (hearthLocked s))))) := by
  have hw : ¬(s.get HRT_STATUS_STATE == 3) = true := by simp [h]
  exact (if_pos ⟨.inl h, hsel, hq⟩).trans (if_neg hw)

theorem hearthLockDeclare_of_wait (h : s.get HRT_STATUS_STATE = 3) :
    exec .hearthLockDeclare s = .next (deliver s (settleAll (eachDo (List.range 64) (clearCause 0x1000 .hearthWait)
      (unparkSpokes SPK_STATUS_C_HEARTH allSpokes ((loseHistory (startStaircase (handoverOnce (hearthLocked s)))).put HRT_EVENT_WAIT_EXIT 1))))) := by
  have hw : (s.get HRT_STATUS_STATE == 3) = true := by simp [h]
  exact (if_pos ⟨.inr h, hsel, hq⟩).trans (if_pos hw)

end

/-! ## LOST -/

theorem enterLost_eq (s : State) :
    enterLost s = raiseFault 0x1000 .hearthLost none 0 (parkSpokes SPK_STATUS_C_HEARTH allSpokes
      (holdTuning s.tuningNow ((((s.put HRT_STATUS_STATE 4).put HRT_STATUS_LEFT 0).put HRT_EVENT_LOST 1).put HRT_STATUS_SEL 3))) := rfl

/-- The moments of the failed reacquisitions that count now: this one, and those of the last second (R64). -/
def State.recentFails (s : State) : List Nat := s.elapsed :: s.hrt.fails.filter fun x => decide (s.elapsed < x + 2 ^ 48)

def noteFails (f : List Nat) (s : State) : State := { s with hrt := { s.hrt with fails := f } }

theorem noteFails_tuningNow (f : List Nat) (s : State) : (noteFails f s).tuningNow = s.tuningNow := rfl

theorem reacquisitionFail_of_wait {s : State} (h : s.get HRT_STATUS_STATE = 3) (hsel : s.get HRT_STATUS_SEL < 3) :
    exec .reacquisitionFail s = .next (deliver s (settleAll
      (if 3 ≤ s.recentFails.length then enterLost (noteFails s.recentFails s) else noteFails s.recentFails s))) := by
  have hf : (s.elapsed :: s.hrt.fails.filter fun x => decide (s.elapsed < x + msec 1000)) = s.recentFails := by
    rw [msec_second, State.recentFails]
  refine (if_pos ⟨h, hsel⟩).trans ?_
  rw [hf]
  exact settled_ite _ _ _ _

/-! ## The obligations -/

/-- Settles O13: the unlock enters WAIT by `hearthWaiting`, a lock leaves it by `hearthLocked`, and three recent failures enter LOST. -/
theorem unlockAndReacquisition : Obligations.UnlockAndReacquisition := by
  unfold Obligations.UnlockAndReacquisition
  intro s
  refine ⟨fun h => ⟨hearthWaiting_state _ _ _, (hearthWaiting_sel _ _ _).trans (get_put_ne _ _ _ _ (by decide)), hearthUnlock_of_locked h⟩,
    fun h hsel hq hever => ⟨(startStaircase_get _ _).trans (hearthLocked_state s),
      (startStaircase_get _ _).trans (hearthLocked_sel s), lockFromWait_fails s, ?_⟩, fun h hsel => ?_⟩
  · rw [hearthLockDeclare_of_wait hsel hq h, handoverOnce_hearthLocked, if_pos hever]
    rfl
  · rw [reacquisitionFail_of_wait h hsel, enterLost_eq, noteFails_tuningNow]
    rfl

/-- Settles O14: the lock from ACQUIRE, the steps of the staircase, and the ways into LOST and HOLDOVER. -/
theorem hearthLockAndLoss : Obligations.HearthLockAndLoss := by
  unfold Obligations.HearthLockAndLoss
  intro s
  refine ⟨fun h hsel hq => ?_, fun h => ⟨if_pos h, if_pos h⟩, ⟨fun h => ?_, fun h => ?_⟩, fun v => holdTuning_eq v s, rfl⟩
  · rw [hearthLockDeclare_of_acquire hsel hq h, handoverOnce_hearthLocked]
    rfl
  · exact (if_pos h).trans (by rw [enterLost_eq, settled_eq])
  · exact (if_pos h).trans (by rw [enterLost_eq, settled_eq])

end Sys2Proof.Machine

/-! What the keeper's writes to the hearth's registers do. -/

namespace Sys2Proof.Machine

section
variable {s : State} {m : Nat} (h : s.opens m HRT_CMD true)
include h

theorem requalifyX_of_present (hp : s.flag HRT_SRC_STATUS_XREF_PRESENT = true) :
    exec (.requalifyX m) s =
      let t : State := { s with hrt := { s.hrt with settleFrom := s.elapsed } }
      .next (deliver s (if s.get (HRT_SRC_STATUS_QSTATE 2) = 0 then t else afterLoss (dropSource 2 1 t))) := by
  simp only [exec, execRequalifyX, gateWrite_of_opens h, hp, if_true, done_eq]
  rfl

theorem requalifyX_of_missing (hp : s.flag HRT_SRC_STATUS_XREF_PRESENT = false) : exec (.requalifyX m) s = .next (deliver s s) := by
  simp only [exec, execRequalifyX, gateWrite_of_opens h, hp, Bool.false_eq_true, if_false, done_eq]

theorem clearHistory_of_opens : exec (.clearHistory m) s = .next (deliver s (loseHistory s)) := by
  simp only [exec, execClearHistory, gateWrite_of_opens h, done_eq]

theorem hrtSwitchNow_forced (hm : s.get HRT_CTRL_MODE = 1) : exec (.hrtSwitchNow m) s = .next (deliver s (s.put HRT_EVENT_VAL_REJ 1)) := by
  simp only [exec, execHrtSwitchNow, gateWrite_of_opens h, hm, if_true, raise_eq_put, done_eq]

theorem hrtSwitchNow_auto (hm : s.get HRT_CTRL_MODE ≠ 1) :
    exec (.hrtSwitchNow m) s = .next (deliver s (s.bestSource.elim s (takeSource · s))) := by
  simp only [exec, execHrtSwitchNow, gateWrite_of_opens h, hm, if_false, done_eq]
  cases s.bestSource <;> rfl

end

/-- The values of HRT_CTRL that are refused, field by field (R56). -/
theorem hrtCtrlBad_iff (v : Word) :
    hrtCtrlBad v = true ↔ 1 < v.toNat % 4 ∨ v.toNat / 4 % 4 = 3 ∨ 5 < v.toNat / 32 % 8 ∨ 12 < v.toNat / 65536 % 16 ∨ 5 < v.toNat / 1048576 % 16 := by
  simp only [hrtCtrlBad, Bool.or_eq_true, decide_eq_true_eq, beq_iff_eq, or_assoc, bitsAt_zero]
  rfl

/-- HRT_CTRL as an accepted write leaves it: stored whole, and with SLEW 0 no slew is limited (R57). -/
def storeCtrl (v : Word) (s : State) : State :=
  if v.toNat / 1048576 % 16 = 0 then (s.setReg HRT_CTRL v).put HRT_STATUS_SLEWING 0 else s.setReg HRT_CTRL v

section
variable {s : State} {m : Nat} (h : s.opens m HRT_CTRL true) {v : Word}
include h

theorem hrtCtrlWrite_bad (hb : hrtCtrlBad v = true) : exec (.hrtCtrlWrite m v) s = .next (deliver s (s.put HRT_EVENT_VAL_REJ 1)) := by
  simp only [exec, execHrtCtrlWrite, gateWrite_of_opens h, hb, if_true, raise_eq_put, done_eq]

variable (hb : ¬hrtCtrlBad v = true)
include hb

theorem hrtCtrlWrite_unqualified (hm : v.toNat % 4 = 1) (hq : s.get (HRT_SRC_STATUS_QSTATE (v.toNat / 4 % 4)) ≠ 3) :
    exec (.hrtCtrlWrite m v) s = .next (deliver s (s.put HRT_EVENT_FORCE_REJ 1)) := by
  have hc : bitsAt v 0 2 = 1 ∧ s.qstate (bitsAt v 2 2) ≠ qQUALIFIED := ⟨(bitsAt_zero v 2).trans hm, hq⟩
  simp only [exec, execHrtCtrlWrite, gateWrite_of_opens h, if_neg hb, if_pos hc, raise_eq_put, done_eq]

theorem hrtCtrlWrite_accepted (hq : v.toNat % 4 = 1 → s.get (HRT_SRC_STATUS_QSTATE (v.toNat / 4 % 4)) = 3) :
    exec (.hrtCtrlWrite m v) s =
      .next (deliver s (if v.toNat % 4 = 1 then takeSource (v.toNat / 4 % 4) (storeCtrl v s) else reselect (storeCtrl v s))) := by
  have hmode : bitsAt v 0 2 = v.toNat % 4 := bitsAt_zero v 2
  have hc : ¬(v.toNat % 4 = 1 ∧ s.qstate (bitsAt v 2 2) ≠ qQUALIFIED) := fun hn => hn.2 (hq hn.1)
  simp only [exec, execHrtCtrlWrite, gateWrite_of_opens h, if_neg hb, hmode, if_neg hc, lower_eq_put, done_eq]
  rfl

end

section
variable {s : State} {m : Nat} (h : s.opens m HRT_XREF_SETTLE true) {v : Word}
include h

theorem hrtXrefSettleWrite_bad (hx : v.toNat % 16384 = 0 ∨ 10000 < v.toNat % 16384) :
    exec (.hrtXrefSettleWrite m v) s = .next (deliver s (s.put HRT_EVENT_VAL_REJ 1)) := by
  have hbits : bitsAt v 0 14 = v.toNat % 16384 := bitsAt_zero v 14
  simp only [exec, execHrtXrefSettleWrite, gateWrite_of_opens h, hbits, if_pos hx, raise_eq_put, done_eq]

theorem hrtXrefSettleWrite_accepted (h0 : v.toNat % 16384 ≠ 0) (h1 : v.toNat % 16384 ≤ 10000) :
    exec (.hrtXrefSettleWrite m v) s = .next (deliver s
      (if s.get (HRT_SRC_STATUS_QSTATE 2) = 1 ∧ s.hrt.settleFrom + v.toNat % 16384 * 2 ^ 48 / 10000 ≤ s.elapsed then
        (s.setReg HRT_XREF_SETTLE v).put (HRT_SRC_STATUS_QSTATE 2) 2 else s.setReg HRT_XREF_SETTLE v)) := by
  have hbits : bitsAt v 0 14 = v.toNat % 16384 := bitsAt_zero v 14
  have hx : ¬(v.toNat % 16384 = 0 ∨ 10000 < v.toNat % 16384) := by omega
  simp only [exec, execHrtXrefSettleWrite, gateWrite_of_opens h, hbits, if_neg hx, done_eq]
  rfl

end

/-- Settles O15: each write through the keeper's gate, and what taking a source means in each state of the hearth. -/
theorem hearthCommands : Obligations.HearthCommands := by
  unfold Obligations.HearthCommands
  intro s m
  refine ⟨fun h => ⟨requalifyX_of_present h, requalifyX_of_missing h, clearHistory_of_opens h, hrtSwitchNow_forced h, fun hm => ?_⟩,
    fun y => ⟨takeSource_of_locked y, takeSource_of_holdover y, takeSource_of_acquiring y, takeSource_of_lost y⟩, fun h v => ?_,
    fun h v => ⟨hrtXrefSettleWrite_bad h, hrtXrefSettleWrite_accepted h⟩⟩
  · rw [hrtSwitchNow_auto h hm]
    exact ⟨fun y hy => by rw [hy, Option.elim_some], fun hn => by rw [hn, Option.elim_none]⟩
  · intro mode src bad t
    have hbad : hrtCtrlBad v = true ↔ bad := hrtCtrlBad_iff v
    rw [← hbad]
    refine ⟨hrtCtrlWrite_bad h, hrtCtrlWrite_unqualified h, fun hb hm hq => ?_, fun hb hm hst hmode => ?_, fun hb hm hst => ?_⟩
    · rw [hrtCtrlWrite_accepted h hb fun _ => hq]
      exact done_congr (if_pos hm)
    all_goals
      have hforce : ¬v.toNat % 4 = 1 := fun hn => absurd (hn.symm.trans hm) (by decide)
      rw [hrtCtrlWrite_accepted h hb fun hn => absurd hn hforce, if_neg hforce]
    · exact done_congr (reselect_auto hst fun hn => absurd (hn.1.symm.trans hmode) (by decide))
    · exact done_congr (reselect_of_not_acquire hst)

end Sys2Proof.Machine

/-! How a rim locks and unlocks, and how its waits end. -/

namespace Sys2Proof.Machine

/-! ## Locks -/

section
variable {s : State} {n : Nat} (hn : n < 16) (code band : Nat)
include hn

theorem rimLockDeclare_of_locking (h : s.get (RIM_STATUS_STATE n) = 1) :
    exec (.rimLockDeclare n code band) s = .next (deliver s (settleAll
      (settleRim n (rimReady n ((noteLock n (s.get (RIM_STATUS_PHYS n)) code band s).put (RIM_STATUS_STATE n) 2))))) := by
  simp [exec, execRimLockDeclare, hn, h, rLOCKING, rRETUNE, rUNLOCKED, rLOCKED, settled_eq]

theorem rimLockDeclare_of_retune (h : s.get (RIM_STATUS_STATE n) = 3) :
    exec (.rimLockDeclare n code band) s = .next (deliver s (settleAll
      (settleRim n (retuneDone n (noteLock n (s.get (RIM_STATUS_PHYS n)) code band s))))) := by
  simp [exec, execRimLockDeclare, hn, h, rLOCKING, rRETUNE, settled_eq]

theorem rimLockDeclare_of_unlocked (h : s.get (RIM_STATUS_STATE n) = 4) :
    exec (.rimLockDeclare n code band) s = .next (deliver s (settleAll
      (settleRim n (rimRelocked n (noteLock n (s.get (RIM_STATUS_PHYS n)) code band s))))) := by
  simp [exec, execRimLockDeclare, hn, h, rLOCKING, rRETUNE, rUNLOCKED, settled_eq]

end

/-! ## Unlocks -/

section
variable {s : State} {n p : Nat}

theorem rimUnlock_of_locked (hp : s.logicalRim p = some n) (h : s.get (RIM_STATUS_STATE n) = 2) :
    exec (.rimUnlock p) s = .next (deliver s (settleAll (rimUnlocked n false s))) := by
  rw [State.logicalRim] at hp
  simp only [exec, execRimUnlock, hp, h, rLOCKED, if_true, settled_eq]

theorem rimUnlock_of_old {g : Migration} (hp : s.logicalRim p = some n) (h : s.get (RIM_STATUS_STATE n) = 5) (hg : (s.rim n).mig = some g)
    (hh : g.hitless = true) : exec (.rimUnlock p) s = .next (deliver s (settleAll (oldRimUnlocked n g s))) := by
  rw [State.logicalRim] at hp
  simp [exec, execRimUnlock, hp, h, rLOCKED, rMIGRATING, hg, hh, settled_eq]

theorem rimUnlock_of_spare {g : Migration} (hp : s.logicalRim p = none) (hs : s.spareOf p = some n) (hg : (s.rim n).mig = some g) :
    exec (.rimUnlock p) s = .next (deliver s (settleAll (if g.hitless then migrationAbandon n g s else spareLost n g s))) := by
  rw [State.logicalRim] at hp
  simp only [exec, execRimUnlock, hp, hs, hg, settled_ite]

end

/-! ## The ends of the waits -/

theorem relockWaitExpire_of_unlocked {s : State} {n : Nat} (hn : n < 16) (h : s.get (RIM_STATUS_STATE n) = 4) (hr : (s.rim n).relockRun = true) :
    exec (.relockWaitExpire n) s =
      let t := s.setRim n { s.rim n with relockRun := false }
      .next (deliver s (settleAll (if s.flag RIM_POLICY_AUTO_MIGRATE then unlockMigrate n t else t.setRim n { t.rim n with waitRelock := true }))) :=
  (if_pos ⟨hn, h, hr⟩).trans (settled_ite _ _ _ _)

/-- The rim as the end of RETUNE_MAX leaves it: the hop has ended, and the rim is handled as unlocked (R69). -/
def retuneFailed (n : Nat) (s : State) : State :=
  let t := endRetuneHop n 9 s (s.put (RIM_EVENT_RETUNE_TIMEOUT n) 1)
  endRetunePark n (rimUnlocked n true (t.modRim n fun r => { r with retuneHop := none, deferred := none }))

theorem retuneMaxExpire_of_running {s : State} {n : Nat} (hn : n < 16)
    (h : s.get (RIM_STATUS_STATE n) = 3 ∨ (s.get (RIM_STATUS_STATE n) = 1 ∧ s.hrt.everLocked = true)) :
    exec (.retuneMaxExpire n) s = .next (deliver s (settleAll
      (let u := retuneFailed n s
       if (s.rim n).deferred.isSome then unlockMigrate n (u.modRim n fun r => { r with relockRun := false }) else u))) := by
  refine (if_pos ⟨hn, h⟩).trans ?_
  cases (s.rim n).deferred <;> rfl

/-- Settles O16: a lock and an unlock by the rim's state and the migration under way, and the ends of the two waits. -/
theorem rimLockAndUnlock : Obligations.RimLockAndUnlock := by
  unfold Obligations.RimLockAndUnlock
  intro s
  exact ⟨fun n hn code band =>
      ⟨rimLockDeclare_of_locking hn code band, rimLockDeclare_of_retune hn code band, rimLockDeclare_of_unlocked hn code band⟩,
    fun n p => rimUnlock_of_locked, fun n p g => rimUnlock_of_old, fun n p g => rimUnlock_of_spare, fun n late => rfl,
    fun n hn => relockWaitExpire_of_unlocked hn, fun n hn => retuneMaxExpire_of_running hn⟩

end Sys2Proof.Machine

/-! When a rim's migration starts, and how it goes on. -/

namespace Sys2Proof.Machine

/-! ## RIM_MIGRATE -/

/-- GO, the top bit of RIM_MIGRATE, is set in the words from 2^31 on. -/
theorem bitsAt_top_iff (v : Word) : bitsAt v 31 1 = 1 ↔ 2 ^ 31 ≤ v.toNat := by
  have hlt := v.isLt
  simp only [bitsAt]
  omega

/-- The spare that TARGET `p` names: 0x1F the lowest free one (RIM_MIGRATE). -/
def State.migTarget (s : State) (p : Nat) : Option Nat := if p = 31 then s.lowestFreeRim else if s.rimFree p then some p else none

section
variable {s : State} {m : Nat} (h : s.opens m RIM_MIGRATE true) {v : Word}
include h

theorem rimMigrate_without_go (hv : v.toNat < 2 ^ 31) : exec (.rimMigrate m v) s = .next (deliver s (settleAll (keepRsvl m RIM_MIGRATE v s))) := by
  have hgo : ¬bitsAt v 31 1 = 1 := by
    rw [bitsAt_top_iff]
    omega
  simp only [exec, execRimMigrate, gateWrite_of_opens h, if_neg hgo, settled_eq]

theorem rimMigrate_go (hv : 2 ^ 31 ≤ v.toNat) :
    exec (.rimMigrate m v) s = .next (deliver s (settleAll (migrateGo (v.toNat % 16) (v.toNat / 16 % 32) (keepRsvl m RIM_MIGRATE v s)))) := by
  have hn : bitsAt v 0 4 = v.toNat % 16 := bitsAt_zero v 4
  have hp : bitsAt v 4 5 = v.toNat / 16 % 32 := rfl
  simp only [exec, execRimMigrate, gateWrite_of_opens h, if_pos ((bitsAt_top_iff v).2 hv), hn, hp, settled_eq]

end

section
variable {s : State} {n p : Nat}

theorem migrateGo_of_no_target (ht : s.migTarget p = none) : migrateGo n p s = s.put (RIM_EVENT_MIG_REJ n) 1 := by
  rw [State.migTarget] at ht
  simp only [migrateGo, ht, raise_eq_put]

theorem migrateGo_of_target {q : Nat} (ht : s.migTarget p = some q) :
    migrateGo n p s =
      if s.anyMigration then s.put (RIM_EVENT_MIG_REJ n) 1
      else if s.get (RIM_STATUS_STATE n) = 3 then s.setRim n { s.rim n with deferred := some p }
      else if s.get (RIM_STATUS_STATE n) ≠ 2 then s.put (RIM_EVENT_MIG_REJ n) 1
      else if s.rimSplicing n || s.loadIncludesRim n then s.setRim n { s.rim n with deferred := some p }
      else beginMigration n q true (abandonCalRim n s) := by
  rw [State.migTarget] at ht
  simp only [migrateGo, ht]
  rfl

theorem migrateGo_rejected (h : s.migTarget p = none ∨ s.anyMigration = true) : migrateGo n p s = s.put (RIM_EVENT_MIG_REJ n) 1 := by
  rcases ht : s.migTarget p with _ | q
  · exact migrateGo_of_no_target ht
  · have ha : s.anyMigration = true := h.resolve_left (by simp [ht])
    rw [migrateGo_of_target ht, if_pos ha]

variable (ha : s.anyMigration = false)
include ha

theorem migrateGo_of_wrong_state (ht : s.migTarget p ≠ none) (h2 : s.get (RIM_STATUS_STATE n) ≠ 2) (h3 : s.get (RIM_STATUS_STATE n) ≠ 3) :
    migrateGo n p s = s.put (RIM_EVENT_MIG_REJ n) 1 := by
  obtain ⟨q, hq⟩ := Option.ne_none_iff_exists'.1 ht
  simp [migrateGo_of_target hq, ha, h2, h3]

theorem migrateGo_deferred (ht : s.migTarget p ≠ none)
    (hst : s.get (RIM_STATUS_STATE n) = 3 ∨ s.get (RIM_STATUS_STATE n) = 2 ∧ (s.rimSplicing n = true ∨ s.loadIncludesRim n = true)) :
    migrateGo n p s = s.setRim n { s.rim n with deferred := some p } := by
  obtain ⟨q, hq⟩ := Option.ne_none_iff_exists'.1 ht
  rcases hst with h3 | ⟨h2, hbusy⟩
  · simp [migrateGo_of_target hq, ha, h3]
  · simp [migrateGo_of_target hq, ha, h2, hbusy]

theorem migrateGo_begins {q : Nat} (ht : s.migTarget p = some q) (h2 : s.get (RIM_STATUS_STATE n) = 2) (hs : s.rimSplicing n = false)
    (hl : s.loadIncludesRim n = false) : migrateGo n p s = beginMigration n q true (abandonCalRim n s) := by
  simp [migrateGo_of_target ht, ha, h2, hs, hl]

end

/-! ## The steps of a migration -/

section
variable {s : State} {n : Nat} {g : Migration} (hg : (s.rim n).mig = some g)
include hg

theorem spareRimLock_of_unlock_driven (hl : g.locked = false) (hh : g.hitless = false) (code band : Nat) :
    exec (.spareRimLock n code band) s = .next (deliver s (settleAll (spareTakesOver n code band g s))) := by
  simp only [exec, execSpareRimLock, hg, hl, hh, Bool.false_eq_true, if_false, settled_eq]

theorem spareRimLock_of_hitless (hl : g.locked = false) (hh : g.hitless = true) (code band : Nat) :
    exec (.spareRimLock n code band) s =
      let x := lockBand n g.spare band s
      let h := { g with locked := true, code := code, band := x.1.1, stored := x.1.2 }
      let t := x.2.setRim n { x.2.rim n with mig := some h }
      .next (deliver s (settleAll (finishIfMoved n (if s.get RIM_MIG_STATUS_LOGICAL = n then showMig n h t else t)))) := by
  simp only [exec, execSpareRimLock, hg, hl, hh, Bool.false_eq_true, if_false, if_true, settled_eq, State.modRim]

variable (hh : g.hitless = true) (hl : g.locked = true)
include hh hl

theorem migrationWaleMove_of_next {w : Nat} {rest : List Nat} (hm : g.toMove = w :: rest) (delta : Int) :
    exec (.migrationWaleMove n delta) s =
      let t := eachDo (s.waleStrands w) (shiftStrand false delta) s
      let h := { g with toMove := rest, moved := (w, delta) :: g.moved }
      let u := t.setRim n { t.rim n with mig := some h }
      .next (deliver s (settleAll (finishIfMoved n (if s.get RIM_MIG_STATUS_LOGICAL = n then showMig n h u else u)))) := by
  simp only [exec, execMigrationWaleMove, hg, hh, hl, Bool.and_self, hm, settled_eq, State.modRim]

theorem finishIfMoved_of_moved (hm : g.toMove = []) : finishIfMoved n s = migrationComplete n g s := by
  simp only [finishIfMoved, hg, hh, hl, hm, List.isEmpty_nil, Bool.and_self, if_true]

end

/-- Settles O17: RIM_MIGRATE by what its GO finds, and the lock of the spare, the moves and the end by the migration under way. -/
theorem rimMigrations : Obligations.RimMigrations := by
  unfold Obligations.RimMigrations
  intro s
  refine ⟨fun m v h => ?_,
    fun n code band g hg hl => ⟨fun hh => spareRimLock_of_unlock_driven hg hl hh code band, fun hh => spareRimLock_of_hitless hg hl hh code band⟩,
    fun n delta g w rest hg hh hl hm => migrationWaleMove_of_next hg hh hl hm delta, fun n g => finishIfMoved_of_moved, fun n g => rfl⟩
  intro n p k target o rej
  have ho : ∀ t, 2 ^ 31 ≤ v.toNat → migrateGo n p k = t → o = .next (deliver s (settleAll t)) :=
    fun t hv ht => (rimMigrate_go h hv).trans (settled_congr ht)
  exact ⟨rimMigrate_without_go h, fun hv hc => ho _ hv (migrateGo_rejected hc),
    fun hv ht ha h2 h3 => ho _ hv (migrateGo_of_wrong_state ha ht h2 h3), fun hv ht ha hst => ho _ hv (migrateGo_deferred ha ht hst),
    fun q hv ht ha h2 hs hl => ho _ hv (migrateGo_begins ha ht h2 hs hl)⟩

end Sys2Proof.Machine

/-! What a residual visit shows, and what its failures and passes mean. -/

namespace Sys2Proof.Machine

/-! ## When a visit passes -/

theorem visitPasses_iff (s : State) (k : Nat) (l : List Int) :
    let per := l.length * 2 ^ 23 * 1750000000 * s.waleWord (waleOf k)
    s.visitPasses k l = true ↔ l.sum.natAbs * (10 ^ 15 * 2 ^ 32) ≤ 10 * s.get WAL_CHECK_CFG_MEAN_LIM * per ∧
      (l.length * (l.map fun x => x * x).sum - l.sum * l.sum) * (10 ^ 15 * 2 ^ 32) ^ 2 ≤
        ((10 * s.get WAL_CHECK_CFG_RMS_LIM * per : Nat) : Int) ^ 2 := by
  simp only [State.visitPasses, meanWithin, rmsWithin, Bool.and_eq_true, decide_eq_true_eq]
  rfl

/-! ## A visit of a strand and of the spare -/

section
variable {w pos k : Nat} {l : List Int} {s : State}

theorem visitStrand_passed (hp : s.visitPasses k l = true) : visitStrand w pos k l s = visitNext w pos (visitPassed k (noteVisit k l s)) := if_pos hp

/-- A failed visit noted, and counted in the strand's run of failures (R131). -/
def visitFailed (k : Nat) (l : List Int) (s : State) : State :=
  let t := noteVisit k l s
  t.setStrand k { t.strand k with failRun := (t.strand k).failRun + 1 }

variable (hp : s.visitPasses k l = false)
include hp

theorem visitStrand_failed :
    visitStrand w pos k l s =
      let u := visitFailed k l s
      if u.get WAL_POLICY_FAILS + 1 ≤ (u.strand k).failRun then visitNext w pos (residualFault k u) else u.put (WAL_CHECK_NEXT w) pos :=
  if_neg (hp ▸ Bool.false_ne_true)

theorem visitSpare_failed :
    visitSpare w k l s =
      let t := s.incMod (WAL_CHECK_VISITS w)
      visitNext w 16 (spliceFail w (raiseW (0x3000 + k) .resVisit (t.strandBasket k) (unsigned 32 (meanFs (s.waleWord w) l))
        (t.put (WAL_EVENT_RES_FAIL w) 1))) := by
  simp only [visitSpare, hp, Bool.false_eq_true, if_false, raise_eq_put, srcStrand]

end

section
variable {s : State} {w pos j : Nat} {bins : List Nat}

theorem residualVisitEnd_of_not_visitable (h : s.posVisitable w pos = false) : exec (.residualVisitEnd w pos j bins) s = .next s := by
  simp only [exec, execResidualVisitEnd, h, Bool.false_eq_true, and_false, if_false]

variable (he : s.enabled 5 = true) (hw : w < 64) (hpos : pos < 17) (hnext : pos = s.posFrom w (s.get (WAL_CHECK_NEXT w)))
  (hv : s.posVisitable w pos = true)
include he hw hpos hnext hv

theorem residualVisitEnd_of_empty {k : Nat} (hk : s.visited w pos = some k) (hl : s.residuals k j bins = []) :
    exec (.residualVisitEnd w pos j bins) s = .next s := by
  refine (if_pos ⟨hw, hpos, he, hnext, hv⟩).trans ?_
  rw [hk]
  exact if_pos hl

theorem residualVisitEnd_of_strand {k : Nat} (hk : s.visited w pos = some k) (hl : s.residuals k j bins ≠ []) :
    exec (.residualVisitEnd w pos j bins) s = .next (deliver s (settleAll (visitStrand w pos k (s.residuals k j bins) s))) := by
  refine (if_pos ⟨hw, hpos, he, hnext, hv⟩).trans ?_
  rw [hk]
  exact if_neg hl

theorem residualVisitEnd_of_spare {k : Nat} (hn : s.visited w pos = none) (hk : s.shadowed w = some k) (hl : s.residuals k j bins ≠ []) :
    exec (.residualVisitEnd w pos j bins) s = .next (deliver s (settleAll (visitSpare w k (s.residuals k j bins) s))) := by
  refine (if_pos ⟨hw, hpos, he, hnext, hv⟩).trans ?_
  rw [hn, hk]
  exact if_neg hl

end

/-! ## A retry -/

section
variable {s : State} {k : Nat} (he : s.enabled 5 = true) (hk : k < 1024) (hres : s.flag (STR_STATUS_NR_RES k) = true)
  (hrun : s.flag (STR_STATUS_RUN k) = true) (hstale : s.flag (STR_STATUS_STALE k) = false) (hcal : s.underCal k = false) (j : Nat) (bins : List Nat)
include he hk hres hrun hstale hcal

theorem residualRetryVisit_eq :
    exec (.residualRetryVisit k j bins) s =
      let l := s.residuals k j bins
      let t := noteVisit k l s
      if l = [] then .next s
      else .next (deliver s (settleAll
        (if s.visitPasses k l then settleStrand k (setReason STR_STATUS_NR_RES false k (visitPassed k t)) else t))) := by
  have hstale' : (!s.flag (STR_STATUS_STALE k)) = true := by rw [hstale]; rfl
  have hcal' : (!s.underCal k) = true := by rw [hcal]; rfl
  refine (if_pos ⟨hk, hres, hrun, hstale', hcal', he⟩).trans ?_
  simp only [settled_ite]

end

/-! ## A pass and a fault -/

/-- What every pass ends: the run of failures, C_RES, and the class B cause of the residual (R131, R174). -/
def passClears (k : Nat) (s : State) : State :=
  let t := s.setStrand k { s.strand k with failRun := 0, awaitVisit := false }
  let u := unparkSpokes SPK_STATUS_C_RES (t.strandSpokes k) t
  match u.strandBasket k with | some b => clearCause (0x3000 + k) .resFault b u | none => u

theorem visitPassed_not_waiting {k : Nat} {s : State} (h : (s.strand k).awaitVisit = false) : visitPassed k s = passClears k s :=
  if_neg (h ▸ Bool.false_ne_true)

theorem visitPassed_waiting {k : Nat} {s : State} (h : (s.strand k).awaitVisit = true) :
    let x := setReason STR_STATUS_NR_RIM false k (passClears k s)
    visitPassed k s = match x.waleRim (waleOf k) with | some n => rimChecksDone n (settleStrand k x) | none => x := if_pos h

theorem residualFault_eq (k : Nat) (s : State) :
    let t := setReason STR_STATUS_NR_RES true k s
    let u := parkSpokes SPK_STATUS_C_RES (t.strandSpokes k) t
    let v := raiseFault (0x3000 + k) .resFault (u.strandBasket k) (u.get (STR_STATUS_PHYS k)) (u.put (WAL_EVENT_NOT_READY (waleOf k)) 1)
    residualFault k s = if v.splicing k then spliceParked k v else if v.flag WAL_POLICY_AUTO_SPLICE then spliceIfFree k v else v := rfl

/-- Settles O30: a visit by what it is of and whether it passes, a retry, and the two ends that a run of failures has. -/
theorem residualVisits : Obligations.ResidualVisits := by
  unfold Obligations.ResidualVisits
  intro s he
  refine ⟨visitPasses_iff s, fun w hw pos hpos hnext hv j bins =>
      ⟨fun k hk => ⟨residualVisitEnd_of_empty he hw hpos hnext hv hk, fun hl hp => ?_, fun hl hp => ⟨fun hf => ?_, fun hf => ?_⟩⟩,
        fun k hn hk => ⟨fun hl hp => ?_, fun hl hp => ?_⟩⟩,
    fun w pos j bins => residualVisitEnd_of_not_visitable, fun k hk hres hrun hstale hcal j bins => ?_,
    fun k => ⟨visitPassed_not_waiting, visitPassed_waiting⟩, fun k => residualFault_eq k s⟩
  · rw [residualVisitEnd_of_strand he hw hpos hnext hv hk hl, visitStrand_passed hp]
    rfl
  · rw [residualVisitEnd_of_strand he hw hpos hnext hv hk hl, visitStrand_failed hp]
    exact settled_congr (if_pos hf)
  · rw [residualVisitEnd_of_strand he hw hpos hnext hv hk hl, visitStrand_failed hp]
    exact settled_congr (if_neg (Nat.not_le.2 hf))
  · rw [residualVisitEnd_of_spare he hw hpos hnext hv hn hk hl]
    exact settled_congr (if_pos hp)
  · rw [residualVisitEnd_of_spare he hw hpos hnext hv hn hk hl, visitSpare_failed hp]
    rfl
  · rw [residualRetryVisit_eq he hk hres hrun hstale hcal j bins]
    exact ⟨fun hl => if_pos hl, fun hl hp => (if_neg hl).trans (settled_congr (if_neg (hp ▸ Bool.false_ne_true))),
      fun hl hp => (if_neg hl).trans (settled_congr (if_pos hp))⟩

end Sys2Proof.Machine

/-! How a lane acknowledges, replays and loses block lock. -/

namespace Sys2Proof.Machine

/-! ## What passes on a lane -/

theorem laneCarries_iff (s : State) (p : Nat) : s.laneCarries p = true ↔ s.get (LANE_STATUS_PHASE p) = 5 ∨ s.get (LANE_STATUS_PHASE p) = 6 := by
  simp only [State.laneCarries, Bool.or_eq_true, beq_iff_eq]
  rfl

theorem parses_iff (s : State) (p : Nat) : s.parses p = true ↔ s.laneCarries p = true ∧ (s.link (s.linkOf p)).stalled = none := by
  simp only [State.parses, Bool.and_eq_true, Option.isNone_iff_eq_none]

section
variable {s : State} {p : Nat} (hp : p < 108)
include hp

/-! ## Acknowledgements -/

theorem ackReceive_of_parses (h : s.parses p = true) (seq : Nat) (nak far : Bool) :
    exec (.ackReceive p seq nak far) s =
      let l := s.linkOf p
      let t := farClean l far (acknowledge l seq s)
      .next (deliver s (settleAll (drain l (closeEpisode l (if nak then attempt l t else t))))) := if_pos ⟨hp, h⟩

theorem ackSend_of_owed (h : s.laneCarries p = true) (ho : (s.link (s.linkOf p)).owed ≠ 0) (hf : s.chainFull (s.linkOf p) = false) (far : Bool) :
    exec (.ackSend p far) s =
      let l := s.linkOf p
      .next (deliver s (settleAll (drain l (closeEpisode l (farClean l far (sendAck l false s)))))) := by
  have hf' : (!s.chainFull (s.linkOf p)) = true := by rw [hf]; rfl
  exact if_pos ⟨hp, h, ho, hf'⟩

/-! ## Errors of the receiver -/

theorem frameError_discarded {e : LineError} (he : e = .block ∨ e = .crc) :
    exec (.frameError p e) s = .next (deliver s
      (let t := s.incSat (LANE_CNT1_BAD_BLK p)
       if s.laneCarries p then sendAck (s.linkOf p) true (openEpisode (s.linkOf p) t) else t)) := by
  rcases he with rfl | rfl <;> exact if_pos hp

theorem frameError_gap (h : s.parses p = true) :
    exec (.frameError p .gap) s = .next (deliver s (sendAck (s.linkOf p) true (openEpisode (s.linkOf p) s))) := (if_pos hp).trans (if_pos h)

theorem frameError_resent (h : s.parses p = true) :
    exec (.frameError p .resent) s =
      let l := s.linkOf p
      let t := openEpisode l s
      .next (deliver s (t.setLink l { (t.link l) with episode := (t.link l).episode.map fun e => { e with attempts := e.attempts + 1 } })) :=
  (if_pos hp).trans (if_pos h)

theorem frameError_relock (h : s.laneCarries p = true) (hl : (s.lane p).lost = true) :
    exec (.frameError p .relock) s = .next (deliver s (sendAck (s.linkOf p) true (s.setLane p { (s.lane p) with lost := false }))) :=
  (if_pos hp).trans (if_pos ⟨h, hl⟩)

theorem frameError_corrected (h : s.flag (LANE_STATUS_FEC p) = true) :
    exec (.frameError p .corrected) s = .next (deliver s (s.incSat (LANE_CNT1_FEC_CORR p))) := (if_pos hp).trans (if_pos h)

theorem frameError_uncorrectable (h : s.flag (LANE_STATUS_FEC p) = true) :
    exec (.frameError p .uncorrectable) s =
      let l := s.linkOf p
      let t := (s.incSat (LANE_CNT1_FEC_UNCORR p)).addSat (LANE_CNT1_BAD_BLK p) 2
      .next (deliver s (settleAll (raiseFault (srcLane l) .fecUncorr (s.linkBasket l) 0
        (if s.laneCarries p then sendAck l true (openEpisode l t) else t)))) := (if_pos hp).trans (if_pos h)

/-! ## Time-outs and the end of an episode -/

theorem replayTimeout_of_sender (h : s.laneCarries p = true) (hu : (s.link (s.linkOf p)).unacked ≠ []) :
    exec (.replayTimeout p true) s = .next (deliver s (attempt (s.linkOf p) s)) := (if_pos ⟨hp, h⟩).trans (if_neg hu)

theorem replayTimeout_of_receiver (h : s.laneCarries p = true) (hn : (s.link (s.linkOf p)).nakked = true) :
    exec (.replayTimeout p false) s =
      let l := s.linkOf p
      let t := sendAck l true s
      .next (deliver s (t.setLink l { (t.link l) with nakked := false })) := (if_pos ⟨hp, h⟩).trans (if_pos hn)

theorem replayExhaust_of_exhausted {e : Episode} (he : (s.link (s.linkOf p)).episode = some e)
    (hx : 8 ≤ e.attempts ∨ e.opened + usec 2 ≤ s.elapsed) :
    exec (.replayExhaust p) s =
      let l := s.linkOf p
      let h := s.get (LANE_STATUS_HANDLE l)
      let t := s.incSat (LANE_CNT0_EXHAUST l)
      .next (deliver s (settleAll (linkDown true l (raiseFault (srcLane l) .exhaust (s.linkBasket l) (if h < 96 then h else 0x7F)
        (if h < 96 then t.incSat (LANE_PTN_CNT_SURPRISE h) else t))))) := by
  have hexh : s.exhausted (s.linkOf p) = true := by simpa only [State.exhausted, he, Bool.or_eq_true, decide_eq_true_eq] using hx
  exact if_pos ⟨hp, hexh⟩

/-! ## Block lock lost -/

/-- What lost block lock means for a warp lane: its source is lost (R45). -/
def warpSilent (p : Nat) (s : State) : State := if p < 2 then warpLost p s else s

theorem blockLockLoss_of_carries (h : s.laneCarries p = true) :
    exec (.blockLockLoss p) s =
      let u := openEpisode (s.linkOf p) ((warpSilent p s).incSat (LANE_CNT1_BAD_BLK p))
      .next (deliver s (settleAll (u.setLane p { (u.lane p) with lost := true }))) := by
  have hoff : s.get (LANE_STATUS_PHASE p) ≠ 7 := by
    have := (laneCarries_iff s p).1 h
    omega
  exact (if_pos ⟨hp, hoff⟩).trans (if_pos h)

theorem blockLockLoss_of_le (h : s.get (LANE_STATUS_PHASE p) ≤ 4) :
    exec (.blockLockLoss p) s =
      let t := warpSilent p s
      if s.get (LANE_STATUS_PHASE p) = 1 then settled s t
      else if s.get (LANE_STATUS_PHASE p) = 0 then settled s (t.setLane p { (t.lane p) with id16 := none, heard := none })
      else settled s (linkDown false (s.linkOf p) t) := by
  have hoff : s.get (LANE_STATUS_PHASE p) ≠ 7 := by omega
  have hc : ¬s.laneCarries p = true := by
    rw [laneCarries_iff]
    omega
  exact (if_pos ⟨hp, hoff⟩).trans (if_neg hc)

end

/-! ## The forwarding buffer of a warp lane -/

theorem chainFull_of_room {s : State} {l : Nat} (h : 2 ≤ l ∨ (s.link (2 + l)).unacked.length + (s.link (2 + l)).waiting.length < 256) :
    s.chainFull l = false := by
  simp only [State.chainFull, Bool.and_eq_false_iff, decide_eq_false_iff_not]
  omega

theorem ackSend_of_chainFull {s : State} {p : Nat} (far : Bool) (hl : s.linkOf p < 2)
    (h : 256 ≤ (s.link (2 + s.linkOf p)).unacked.length + (s.link (2 + s.linkOf p)).waiting.length) : exec (.ackSend p far) s = .next s := by
  have hfull : (!s.chainFull (s.linkOf p)) = false := by simp [State.chainFull, hl, h]
  refine if_neg fun hc => ?_
  obtain ⟨-, -, -, hroom⟩ := hc
  exact absurd hroom (hfull ▸ Bool.false_ne_true)

/-! ## While the ingress waits -/

section
variable {s : State} {p : Nat} (hp : p < 108) (h : s.parses p = false)
include h

theorem ackReceive_of_waiting (seq : Nat) (nak far : Bool) : exec (.ackReceive p seq nak far) s = .next s :=
  if_neg fun hc => absurd hc.2 (h ▸ Bool.false_ne_true)

include hp

theorem frameError_of_waiting {e : LineError} (he : e = .gap ∨ e = .resent) : exec (.frameError p e) s = .next s := by
  rcases he with rfl | rfl <;> exact (if_pos hp).trans (if_neg (h ▸ Bool.false_ne_true))

end

/-- The frame that a downstream hub's frame becomes on the warp lane (R282). -/
def mergedFrame : UpFrame → Frame
  | .cpl c ws => .cpl c ws
  | .credit n c b q => .credit n c b q

theorem chainUpstreamFrame_of_parses {s : State} {q : Nat} (hq : q = 2 ∨ q = 3) (h : s.parses q = true) (f : UpFrame) :
    exec (.chainUpstreamFrame q f) s =
      let t := s.setLink q { (s.link q) with rxNext := ((s.link q).rxNext + 1) % 4096, owed := (s.link q).owed + 1, nakked := false }
      .next (deliver s (if s.laneCarries (q - 2) then sendFrame (q - 2) (mergedFrame f) t else t)) := by
  refine (if_pos ⟨hq, h⟩).trans ?_
  cases f <;> rfl

/-- Settles O40: each event of a lane where it carries frames, where its ingress waits, and where it does neither. -/
theorem laneReplay : Obligations.LaneReplay := by
  unfold Obligations.LaneReplay
  intro s p hp l
  refine ⟨laneCarries_iff s p, parses_iff s p, fun h => ⟨ackReceive_of_parses hp h, frameError_gap hp h, frameError_resent hp h⟩,
    fun h => ⟨frameError_of_waiting hp h (.inl rfl), frameError_of_waiting hp h (.inr rfl), ackReceive_of_waiting h⟩,
    fun h => ⟨fun e he => ?_, frameError_relock hp h, replayTimeout_of_sender hp h, replayTimeout_of_receiver hp h,
      fun far ho => ⟨fun hroom => ackSend_of_owed hp h ho (chainFull_of_room hroom) far, ackSend_of_chainFull far⟩, blockLockLoss_of_carries hp h⟩,
    fun h e he => ?_, fun h => ⟨frameError_corrected hp h, frameError_uncorrectable hp h⟩, fun e => replayExhaust_of_exhausted hp, ?_,
    fun hq h f => ?_⟩
  · exact (frameError_discarded hp he).trans (done_congr (if_pos h))
  · exact (frameError_discarded hp he).trans (done_congr (if_neg (h ▸ Bool.false_ne_true)))
  · exact ⟨fun h => (blockLockLoss_of_le hp (by omega)).trans ((if_neg (by omega)).trans (if_pos h)),
      fun h => (blockLockLoss_of_le hp (by omega)).trans (if_pos h),
      fun h2 h4 => (blockLockLoss_of_le hp h4).trans ((if_neg (by omega)).trans (if_neg (by omega)))⟩
  · rw [chainUpstreamFrame_of_parses hq h]
    cases f <;> rfl

end Sys2Proof.Machine

/-! What the delay exchanges and the beat markers of a lane do. -/

namespace Sys2Proof.Machine

/-! ## Requests and responses -/

theorem delayReqSend_of_requester {s : State} {p : Nat} (h : s.requester p = true) (seq t1 : Nat) :
    exec (.delayReqSend p seq t1) s =
      .next (deliver s { s with tal := { s.tal with reqs := (p, seq, t1) :: s.tal.reqs }, sent := .delayReq p seq :: s.sent }) := if_pos h

theorem delayReqReceive_of_chainPort {s : State} {p : Nat} (hp : p = 2 ∨ p = 3) (h : s.laneActive p = true) (seq t2 t3 : Nat) :
    exec (.delayReqReceive p seq t2 t3) s = .next (deliver s { s with sent := .delayResp p seq (t3 - t2) :: s.sent }) := if_pos ⟨hp, h⟩

/-- The requests kept but for number `seq` on lane `p`. -/
def forgetRequest (p seq : Nat) (s : State) : State :=
  { s with tal := { s.tal with reqs := s.tal.reqs.filter fun q => !(q.1 == p && q.2.1 == seq) } }

theorem delayRespTimeout_eq (p seq : Nat) (s : State) : exec (.delayRespTimeout p seq) s = .next (deliver s (forgetRequest p seq s)) := rfl

/-- A response to a request kept forgets the request, and its exchange enters the lane's average (R90, R93). -/
theorem delayRespReceive_of_kept {s : State} {p seq t1 : Nat} (hf : (s.tal.reqs.find? fun r => r.1 == p && r.2.1 == seq) = some (p, seq, t1))
    (h : s.requester p = true) (turn t4 : Nat) :
    exec (.delayRespReceive p seq turn t4) s =
      .next (deliver s (publishDelay p (setAvg p ((((t4 : Int) - t1 - turn) :: s.avgOf p).take 4096) (forgetRequest p seq s)))) := by
  simp only [exec, execDelayRespReceive, hf, h, if_true, done_eq]
  rfl

theorem publishDelay_of_beat {p : Nat} (hp : 2 ≤ p) (s : State) :
    publishDelay p s =
      let h := s.get (LANE_STATUS_HANDLE p)
      s.setReg (TAL_BEAT_DLY h) (BitVec.ofInt 32 (delayFs (s.avgOf p) (signed 32 (s.reg (TAL_BEAT_ASYM h)).toNat))) := if_neg (Nat.not_lt.2 hp)

/-! ## Averages that restart -/

@[simp] theorem avgOf_setAvg_self (p : Nat) (l : List Int) (s : State) : (setAvg p l s).avgOf p = l := tabGet_tabSet_self ..

theorem restartDlcal_of_opens {s : State} {m : Nat} (h : s.opens m TAL_CMD true) :
    exec (.restartDlcal m) s = .next (deliver s (restartAvg 1 (restartAvg 0 s))) := by
  simp only [exec, execRestartDlcal, gateWrite_of_opens h, done_eq]

theorem talAsymWrite_of_opens {s : State} {m x : Nat} (hx : x < 2) (h : s.opens m (TAL_ASYM_A + 4 * x) true) (v : Word) :
    exec (.talAsymWrite m x v) s = .next (deliver s (restartAvg x (s.setReg (TAL_ASYM_A + 4 * x) v))) := by
  simp only [exec, execTalAsymWrite, hx, if_true, gateWrite_of_opens h, done_eq]

/-- The restarted average of warp lane 0 counts no exchange and publishes zero (R93). -/
theorem restartAvg_zero (s : State) :
    restartAvg 0 s = (((setAvg 0 [] s).put TAL_DLCAL_STATUS_COUNT_A 0).put TAL_DLCAL_STATUS_DONE_A 0).setReg TAL_DLY_A 0 := by
  simp [restartAvg, showCount]

/-! ## Beat markers -/

theorem beatMarkerSend_of_timed {s : State} {h : Nat} (hh : h < 96) (hpres : s.flag (LANE_PTN_STATUS_PRESENT h) = true)
    (htime : s.flag (LANE_PTN_STATUS_TIME h) = true) (hact : s.laneActive (s.get (LANE_PTN_STATUS_FIRST h)) = true)
    (hrep : s.flag (LANE_STATUS_REPLAY (s.get (LANE_PTN_STATUS_FIRST h))) = false) (stamp : Nat) :
    exec (.beatMarkerSend h stamp) s =
      let q := tabGet (fun _ => 0) s.tal.beats h
      .next (deliver s { s with
        tal := { s.tal with beats := tabSet (fun _ => 0) s.tal.beats h ((q + 1) % 256) },
        sent := .beat (s.get (LANE_PTN_STATUS_FIRST h)) q (s.get TAL_STATUS_STATE) (s.get TAL_CTRL_BEAT_EXP - 10)
          (((stamp : Int) + roundAway ((s.reg (TAL_BEAT_DLY h)).toNat * 2 ^ 48) (10 ^ 15)) % (2 ^ 96 : Int)).toNat :: s.sent }) := by
  have hquiet : (!s.flag (LANE_STATUS_REPLAY (s.get (LANE_PTN_STATUS_FIRST h)))) = true := by rw [hrep]; rfl
  exact if_pos ⟨hh, hpres, htime, hact, hquiet⟩

/-- Settles O19: each message of an exchange where its conditions hold, the averages that restart, and the marker of a timed partner. -/
theorem delayExchanges : Obligations.DelayExchanges := by
  unfold Obligations.DelayExchanges
  intro s
  exact ⟨fun p seq t1 h => delayReqSend_of_requester h seq t1, fun p seq t2 t3 hp h => delayReqReceive_of_chainPort hp h seq t2 t3,
    fun p seq => delayRespTimeout_eq p seq s, fun p seq turn t4 t1 hf h => delayRespReceive_of_kept hf h turn t4, fun p hp => publishDelay_of_beat hp s,
    fun m => restartDlcal_of_opens, fun m x v hx h => talAsymWrite_of_opens hx h v, restartAvg_zero s,
    fun h stamp hh hpres htime hact hrep => beatMarkerSend_of_timed hh hpres htime hact hrep stamp⟩

end Sys2Proof.Machine

/-! How the tally's domains come and go, what that makes of its states, and its commands. -/

namespace Sys2Proof.Machine

/-! ## Switches and HOLDOVER -/

/-- The selection moved to domain `y` and reported; in HOLDOVER no slew starts (R96, R97, R99). -/
theorem domainSwitch_eq (y : Nat) (s : State) :
    domainSwitch y s =
      let t := raiseFault 0x9000 .talSwitch none y ((s.put TAL_STATUS_SEL y).put TAL_EVENT_SWITCH 1)
      if s.get TAL_STATUS_STATE = 3 then t else ({ t with tal := { t.tal with acqSlew := false } } : State).put TAL_STATUS_SLEWING 1 := rfl

theorem enterTallyHoldover_eq (s : State) :
    enterTallyHoldover s =
      let v := ((((setRate (meanRate s.elapsed s.tal.rates) 0 s).put TAL_STATUS_STATE 3).put TAL_STATUS_SEL 3).put TAL_STATUS_SLEWING 0).put
        TAL_EVENT_HOLD_ENTER 1
      raiseFault 0x9000 .talHoldover none 0 { v with tal := { v.tal with holdSince := v.elapsed } } := by
  simp only [enterTallyHoldover, raise_eq_put, lower_eq_put, put_tal, put_elapsed, srcTally, tHOLDOVER]

/-! ## A domain that times out -/

/-- Domain `x` INVALID, with its event, and what it had gathered gone (R94). -/
def droppedDomain (x : Nat) (s : State) : State :=
  let t := (s.put (domFld x) 0).put ⟨TAL_EVENT, 7 + x, 1⟩ 1
  t.setDom x { t.dom x with last := none, close := false, jumps := 0 }

/-- What the loss of the selected domain `x` means: the other domain, HOLDOVER, or no selection (R96, R98). -/
def selectedDomainLost (x : Nat) (u : State) : State :=
  if u.get TAL_STATUS_STATE = tACQUIRE ∨ u.get TAL_STATUS_STATE = tTRACKING then
    if u.domState (1 - x) = dVALID then domainSwitch (1 - x) u else enterTallyHoldover u
  else if u.domState (1 - x) = dVALID then domainSwitch (1 - x) u
  else (u.put TAL_STATUS_SEL 3).put TAL_STATUS_MISMATCH 0

theorem domainInvalid_of_not_invalid {x : Nat} {s : State} (h : s.domState x ≠ 0) :
    domainInvalid x s = if (droppedDomain x s).get TAL_STATUS_SEL = x then selectedDomainLost x (droppedDomain x s) else droppedDomain x s := if_neg h

theorem selectedDomainLost_of_other_valid {x : Nat} {u : State} (h : u.domState (1 - x) = 2) : selectedDomainLost x u = domainSwitch (1 - x) u := by
  have hv : u.domState (1 - x) = dVALID := h
  simp only [selectedDomainLost, hv, if_true, ite_self]

theorem selectedDomainLost_of_steering {x : Nat} {u : State} (hst : u.get TAL_STATUS_STATE = 1 ∨ u.get TAL_STATUS_STATE = 2)
    (h : u.domState (1 - x) ≠ 2) : selectedDomainLost x u = enterTallyHoldover u := (if_pos hst).trans (if_neg h)

theorem selectedDomainLost_of_idle {x : Nat} {u : State} (hst : u.get TAL_STATUS_STATE = 0 ∨ u.get TAL_STATUS_STATE = 3)
    (h : u.domState (1 - x) ≠ 2) : selectedDomainLost x u = (u.put TAL_STATUS_SEL 3).put TAL_STATUS_MISMATCH 0 := by
  have hnot : ¬(u.get TAL_STATUS_STATE = tACQUIRE ∨ u.get TAL_STATUS_STATE = tTRACKING) := by
    simp only [tACQUIRE, tTRACKING]
    omega
  exact (if_neg hnot).trans (if_neg h)

section
variable {s : State} {x : Nat} (hx : x < 2) (hv : s.domState x ≠ 0)
include hx hv

theorem domainTimeout_of_unselected (h : (droppedDomain x s).get TAL_STATUS_SEL ≠ x) :
    exec (.domainTimeout x) s = .next (deliver s (droppedDomain x s)) :=
  (if_pos hx).trans (done_congr ((domainInvalid_of_not_invalid hv).trans (if_neg h)))

theorem domainTimeout_of_selected (h : (droppedDomain x s).get TAL_STATUS_SEL = x) :
    exec (.domainTimeout x) s = .next (deliver s (selectedDomainLost x (droppedDomain x s))) :=
  (if_pos hx).trans (done_congr ((domainInvalid_of_not_invalid hv).trans (if_pos h)))

end

/-! ## A domain that becomes VALID -/

/-- Domain `x` VALID, with its event (R94). -/
def validDomain (x : Nat) (s : State) : State := (s.put (domFld x) 2).put ⟨TAL_EVENT, 9 + x, 1⟩ 1

theorem domainValid_of_free {x : Nat} {s : State} (h : (validDomain x s).get TAL_STATUS_STATE = 0) :
    domainValid x s = enterAcquire x (tallyStep x (validDomain x s)) := if_pos h

theorem domainValid_of_holdover {x : Nat} {s : State} (h : (validDomain x s).get TAL_STATUS_STATE = 3)
    (hnear : ((validDomain x s).dom x).off.natAbs ≤ usec ((validDomain x s).get TAL_DOM_CFG_STEP_THR)) :
    domainValid x s = beginSlew true (enterAcquire x (validDomain x s)) := by
  have hfree : (validDomain x s).get TAL_STATUS_STATE ≠ tFREE := by
    rw [h]
    decide
  exact (if_neg hfree).trans ((if_pos h).trans (if_pos hnear))

/-! ## What ends of itself -/

theorem tallyTrackEnter_of_acquire {s : State} (h : s.get TAL_STATUS_STATE = 1) :
    exec .tallyTrackEnter s = .next (deliver s ((s.put TAL_STATUS_STATE 2).put TAL_EVENT_TRACK 1)) := if_pos h

theorem tallySlewDone_of_slewing {s : State} (h : s.flag TAL_STATUS_SLEWING = true) :
    exec .tallySlewDone s = .next (deliver s (setRate s.tal.servo 0 (s.put TAL_STATUS_SLEWING 0))) := if_pos h

theorem domainRevert_of_revertive {s : State} {x : Nat} {r : List Nat} (ho : domOrder s = x :: r) (hrev : s.flag TAL_CTRL_REVERTIVE = true)
    (hv : s.domState x = 2) (hne : s.get TAL_STATUS_SEL ≠ x) (hsel : s.get TAL_STATUS_SEL < 2) (hst : s.get TAL_STATUS_STATE ≠ 0) :
    exec .domainRevert s = .next (deliver s (domainSwitch x s)) := by
  simp only [exec, execDomainRevert, ho]
  exact if_pos ⟨hrev, hv, hne, hsel, hst⟩

/-! ## TAL_CMD and TAL_NOW0 -/

section
variable {s : State} {m : Nat} (h : s.opens m TAL_CMD true)
include h

theorem talStep_of_none (hd : cmdDomain s = none) : exec (.talStep m) s = .next (deliver s (s.put TAL_EVENT_VAL_REJ 1)) := by
  simp only [exec, execTalStep, gateWrite_of_opens h, hd, raise_eq_put, done_eq]

theorem talSlew_of_none (hd : cmdDomain s = none) : exec (.talSlew m) s = .next (deliver s (s.put TAL_EVENT_VAL_REJ 1)) := by
  simp only [exec, execTalSlew, gateWrite_of_opens h, hd, raise_eq_put, done_eq]

theorem talStep_of_some {x : Nat} (hd : cmdDomain s = some x) : exec (.talStep m) s = .next (deliver s (enterAcquire x (tallyStep x s))) := by
  simp only [exec, execTalStep, gateWrite_of_opens h, hd, done_eq]

theorem talSlew_of_some {x : Nat} (hd : cmdDomain s = some x) :
    exec (.talSlew m) s = .next (deliver s (if s.get TAL_STATUS_STATE = 0 then s else beginSlew true (enterAcquire x s))) := by
  simp only [exec, execTalSlew, gateWrite_of_opens h, hd, done_eq]
  rfl

theorem talSwitchNow_of_other {x : Nat} (hf : firstValid s = some x) (hne : s.get TAL_STATUS_SEL ≠ x) (hst : s.get TAL_STATUS_STATE ≠ 0) :
    exec (.talSwitchNow m) s = .next (deliver s (domainSwitch x s)) := by
  have hgo : s.get TAL_STATUS_SEL ≠ x ∧ s.get TAL_STATUS_STATE ≠ tFREE := ⟨hne, hst⟩
  simp only [exec, execTalSwitchNow, gateWrite_of_opens h, hf, if_pos hgo, done_eq]

theorem talSwitchNow_of_none (hf : firstValid s = none) : exec (.talSwitchNow m) s = .next (deliver s s) := by
  simp only [exec, execTalSwitchNow, gateWrite_of_opens h, hf, done_eq]

end

theorem talNow0Read_of_opens {s : State} {m : Nat} (h : s.opens m TAL_NOW0 false) :
    exec (.talNow0Read m) s =
      .next (deliver s (((s.setReg TAL_NOW0 (BitVec.ofNat 32 s.tally)).setReg TAL_NOW1 (BitVec.ofNat 32 (s.tally / 2 ^ 32))).setReg
        TAL_NOW2 (BitVec.ofNat 32 (s.tally / 2 ^ 64)))) := by
  simp only [exec, execTalNow0Read, gateRead_of_opens h, done_eq]

/-- Settles O20: the loss of a domain by what was selected and what the other one is, the ways out of FREE and HOLDOVER, and each command by the
domain that it finds. -/
theorem tallyStates : Obligations.TallyStates := by
  unfold Obligations.TallyStates
  intro s
  refine ⟨fun x hx hv => ⟨domainTimeout_of_unselected hx hv, fun hsel ho => ?_, fun hsel hst ho => ?_, fun hsel hst ho => ?_⟩,
    fun y => domainSwitch_eq y s, fun x _ => ⟨domainValid_of_free, domainValid_of_holdover⟩, tallyTrackEnter_of_acquire, tallySlewDone_of_slewing,
    fun x r ho hrev hv hne hsel hst => domainRevert_of_revertive ho hrev hv hne hsel hst, fun m h => ?_, fun m h => talNow0Read_of_opens h⟩
  · exact (domainTimeout_of_selected hx hv hsel).trans (done_congr (selectedDomainLost_of_other_valid ho))
  · exact (domainTimeout_of_selected hx hv hsel).trans (done_congr ((selectedDomainLost_of_steering hst ho).trans (enterTallyHoldover_eq _)))
  · exact (domainTimeout_of_selected hx hv hsel).trans (done_congr (selectedDomainLost_of_idle hst ho))
  · exact ⟨fun hd => ⟨talStep_of_none h hd, talSlew_of_none h hd⟩, fun x hd => ⟨talStep_of_some h hd, talSlew_of_some h hd⟩,
      fun x => talSwitchNow_of_other h, talSwitchNow_of_none h⟩

end Sys2Proof.Machine

/-! How a lane comes up, from DETECT to ACTIVE. -/

namespace Sys2Proof.Machine

/-! ## Phases, copies and offers -/

theorem laneActive_iff (s : State) (p : Nat) : s.laneActive p = true ↔ s.get (LANE_STATUS_PHASE p) = 5 := beq_iff_eq

theorem heard_iff (s : State) (p : Nat) (f : Repeated) : s.heard p f = true ↔ (s.lane p).heard = some f := beq_iff_eq

theorem enterTrain_of_commonRate {s : State} {p c : Nat} (h : s.commonRate p (s.lane p).rates (s.lane p).limit = some c) :
    enterTrain p s = sendTs p false ((s.put (LANE_STATUS_PHASE p) 1).put (LANE_STATUS_RATE p) c) := by
  simp only [enterTrain, h, lTRAIN]

/-- The lanes whose training BOND_WAIT's end starts: the offer's weft lanes that wait in DETECT, not held (R272, R276). -/
theorem mem_offerDetected_iff (s : State) (id q : Nat) :
    q ∈ s.offerDetected id ↔ q < 108 ∧ 4 ≤ q ∧ (s.lane q).id16 = some id ∧ s.get (LANE_STATUS_PHASE q) = 0 ∧ (s.lane q).hold = false := by
  simp only [State.offerDetected, State.offerLanes, State.phase, lDETECT, List.mem_filter, List.mem_range, Bool.and_eq_true, decide_eq_true_eq, beq_iff_eq,
    Bool.not_eq_true']
  tauto

/-! ## What negotiation and ENUM leave behind -/

/-- An agreement in force on lane `p`: its rate, its FEC and the lane's position (R275). -/
def putAgreement (p : Nat) (g : Agreement) (s : State) : State :=
  ((s.put (LANE_STATUS_RATE p) g.rate).put (LANE_STATUS_FEC p) (if g.fec then 1 else 0)).put (LANE_STATUS_BOND_POS p) g.pos

/-- The bond of lane `p` active and its partner present and counted (R271, R280). -/
def partnerArrives (p h : Nat) (s : State) : State :=
  let l := s.linkOf p
  let t := (linkUp l ((((s.lane l).cap).getD (0, 0)).1 / 2 ^ 32 % 2 ^ 16) s).put (LANE_PTN_STATUS_PRESENT h) 1
  ((t.incSat (LANE_PTN_CNT_ARRIVALS h)).put (mapBit LANE_PRESENT h) 1).put (mapBit LANE_ARRIVE_EVT h) 1

/-- Interrupts are due for bits of registers that have risen, so a message sent on the way changes none. -/
theorem deliver_emit_before (s t : State) (o : Sent) : deliver (s.emit o) t = deliver s t := rfl

section
variable {s : State} {p : Nat} (hp : p < 108)
include hp

/-! ## DETECT and TRAIN -/

section
variable (hph : s.get (LANE_STATUS_PHASE p) = 0) {id rates : Nat}
include hph

/-- The first copy of a training set is only noted (R265). -/
theorem laneDetect_of_first (hh : (s.lane p).heard ≠ some (.ts id rates)) :
    exec (.laneDetect p id rates) s = .next (deliver s (s.setLane p { (s.lane p) with heard := some (.ts id rates) })) := by
  have hfirst : (!s.heard p (.ts id rates)) = true := by rwa [Bool.not_eq_true', ← Bool.not_eq_true, heard_iff]
  exact (if_pos ⟨hp, hph⟩).trans (if_pos hfirst)

/-- The second copy gives the lane its offer, and one that need not wait and is not held trains (R271, R272, R276). -/
theorem laneDetect_of_second (hh : (s.lane p).heard = some (.ts id rates)) :
    exec (.laneDetect p id rates) s =
      let begun := (s.offerLanes id).any fun q => q != p && s.get (LANE_STATUS_PHASE q) != 0
      let t := s.setLane p { (s.lane p) with id16 := some id, rates := rates }
      .next (deliver s (if (p < 2 ∨ (p < 4 ∧ s.get (LANE_STATUS_PHASE (p - 2)) = 5) ∨ (4 ≤ p ∧ begun = true)) ∧ (s.lane p).hold = false
        then enterTrain p t else t)) := by
  have hsecond : ¬(!s.heard p (.ts id rates)) = true := by rw [(heard_iff s p _).2 hh]; decide
  refine (if_pos ⟨hp, hph⟩).trans ((if_neg hsecond).trans ?_)
  simp only [laneActive_iff, done_ite]
  cases (s.lane p).hold
  · simp only [and_true, Bool.false_eq_true, if_false]
    rfl
  · simp only [Bool.true_eq_false, and_false, if_true, if_false, ite_self]

end

section
variable (hph : s.get (LANE_STATUS_PHASE p) = 1)
include hph

theorem trainReady_of_train :
    exec (.trainReady p) s = .next (deliver s
      (((trainTaps p ((sendTs p true s).put (LANE_STATUS_FAILED p) 0)).put (LANE_STATUS_PHASE p) 2).emit (.aln p 0 false))) := if_pos ⟨hp, hph⟩

theorem trainMaxExpire_of_lower {c : Nat} (hc : s.commonRate p (s.lane p).rates (s.get (LANE_STATUS_RATE p) + 1) = some c) :
    exec (.trainMaxExpire p) s = .next (deliver s (sendTs p false (s.put (LANE_STATUS_RATE p) c))) := by
  refine (if_pos ⟨hp, hph⟩).trans ?_
  simp only [hc, done_eq]

/-- With no lower common rate the lane fails, and its offer may be decided without it (R271, R275). -/
theorem trainMaxExpire_of_none (hc : s.commonRate p (s.lane p).rates (s.get (LANE_STATUS_RATE p) + 1) = none) :
    exec (.trainMaxExpire p) s =
      let t := ((laneDown p s).put (LANE_STATUS_FAILED p) 1).incSat (LANE_CNT0_TRAIN_FAIL p)
      .next (deliver s (match (s.lane p).id16 with | some id => if 4 ≤ p then tryDecide id t else t | none => t)) := by
  refine (if_pos ⟨hp, hph⟩).trans ?_
  simp only [hc]
  cases (s.lane p).id16 <;> rfl

end

/-! ## Measurements and negotiation -/

/-- The measurements are stored, the far end's marker returned, and the capability offered (R273, R274). -/
theorem alignComplete_of_align (hph : s.get (LANE_STATUS_PHASE p) = 2) (rtt tx rx aseq : Nat) :
    exec (.alignComplete p rtt tx rx aseq) s =
      let t := ((s.setReg (LANE_RTT p) (BitVec.ofNat 32 rtt)).setReg (LANE_TXLAT p) (BitVec.ofNat 32 tx)).setReg (LANE_RXLAT p) (BitVec.ofNat 32 rx)
      .next (deliver s (((t.put (LANE_STATUS_PHASE p) 3).emit (.aln p aseq true)).emit (.cap p (t.offerWord p) t.identWord))) := if_pos ⟨hp, hph⟩

section
variable (hph : s.get (LANE_STATUS_PHASE p) = 3)
include hph

section
variable (ha : (s.lane p).agreed = none) {d1 d2 : Nat}
include ha

theorem capReceive_of_warp (h2 : p < 2) (hb : d1 / 2 ^ 31 % 2 = 1) :
    exec (.capReceive p d1 d2) s =
      let t := s.setLane p { (s.lane p) with cap := some (d1, d2) }
      .next (deliver s (t.setLane p { (t.lane p) with agreed := some (agreementOf p d1) })) :=
  (if_pos ⟨hp, hph, Option.isNone_iff_eq_none.2 ha⟩).trans ((if_pos h2).trans (if_pos hb))

theorem capReceive_of_chain (h2 : 2 ≤ p) (h4 : p < 4) :
    exec (.capReceive p d1 d2) s = .next (deliver s (decideChain p d1 (s.setLane p { (s.lane p) with cap := some (d1, d2) }))) :=
  (if_pos ⟨hp, hph, Option.isNone_iff_eq_none.2 ha⟩).trans ((if_neg (Nat.not_lt.2 h2)).trans (if_pos h4))

theorem capReceive_of_weft {id : Nat} (h4 : 4 ≤ p) (hid : ((s.setLane p { (s.lane p) with cap := some (d1, d2) }).lane p).id16 = some id) :
    exec (.capReceive p d1 d2) s = .next (deliver s (tryDecide id (s.setLane p { (s.lane p) with cap := some (d1, d2) }))) := by
  refine (if_pos ⟨hp, hph, Option.isNone_iff_eq_none.2 ha⟩).trans ((if_neg (by omega)).trans ((if_neg (by omega)).trans ?_))
  simp only [hid, done_eq]

end

section
variable {g : Agreement} (ha : (s.lane p).agreed = some g)
include ha

/-- A warp or chain lane is ACTIVE with its agreement; on a warp lane the hub sends the echo itself and is granted its credits (R241, R271, R275). -/
theorem agreedEcho_of_chain (h4 : p < 4) :
    exec (.agreedEcho p) s =
      let caps := ((s.lane p).cap).getD (0, 0)
      let u := linkUp p (caps.1 / 2 ^ 32 % 2 ^ 16) (putAgreement p g (if p < 2 then s.emit (.cap p caps.1 s.identWord) else s))
      .next (deliver s (if p < 2 then grantCredits (0xF0 + p) u else u)) := by
  have hcond : p < 108 ∧ s.phase p = lNEGOTIATE := ⟨hp, hph⟩
  simp only [exec, execAgreedEcho, ha, if_pos hcond, if_pos h4]
  by_cases h2 : p < 2
  · simp only [if_pos h2, done_eq, deliver_emit_before]
    rfl
  · simp only [if_neg h2]
    rfl

/-- A weft lane takes its partner's handle, shows the partner, and is sent ENUM (R271, R275). -/
theorem agreedEcho_of_weft (h4 : 4 ≤ p) :
    exec (.agreedEcho p) s =
      let u := ((putAgreement p g s).put (LANE_STATUS_HANDLE p) g.handle).put (LANE_STATUS_SUBST p)
        (if g.subst = true ∧ p = s.groupSpare g.handle then 1 else 0)
      let v := showPartner g.handle g (((s.lane p).cap).getD (0, 0)).2 (u.put (LANE_STATUS_PHASE p) 4)
      .next (deliver s (v.emit
        (.enum p g.handle ((v.handleBasket g.handle).getD 0) (v.get TAL_STATUS_CHAIN_POS) (v.get TAL_CTRL_BEAT_EXP)))) := by
  have hcond : p < 108 ∧ s.phase p = lNEGOTIATE := ⟨hp, hph⟩
  have hwarp : ¬p < 2 := by omega
  simp only [exec, execAgreedEcho, ha, if_pos hcond, if_neg hwarp, if_neg (Nat.not_lt.2 h4), putFlag_eq_put, Bool.and_eq_true, beq_iff_eq]
  rfl

end

end

/-! ## The arrival of a partner -/

section
variable {g : Agreement} (hph : s.get (LANE_STATUS_PHASE p) = 4) (h4 : 4 ≤ p) (ha : (s.lane (s.linkOf p)).agreed = some g) (hg : g.handle < 96)
  (hw : (s.linkLanes (s.linkOf p)).length = g.width) (hall : ∀ q ∈ s.linkLanes (s.linkOf p), s.get (LANE_STATUS_PHASE q) = 4)
include hph h4 ha hg hw hall

/-- With every lane of the bond in ENUMERATE the first copy of the echo is noted, and on the second the partner arrives (R265, R271, R280). -/
theorem enumEcho_of_enumerate :
    exec (.enumEcho p) s = .next (deliver s (if s.heard p .enum then grantCredits g.handle (partnerArrives p g.handle s)
      else s.setLane p { (s.lane p) with heard := some .enum })) := by
  have hphases : ((s.linkLanes (s.linkOf p)).all fun q => s.phase q == lENUMERATE) = true :=
    List.all_eq_true.2 fun q hq => beq_iff_eq.2 (hall q hq)
  have hcond : p < 108 ∧ 4 ≤ p ∧ g.handle < 96 ∧ s.phase p = lENUMERATE ∧ (s.linkLanes (s.linkOf p)).length = g.width ∧
      ((s.linkLanes (s.linkOf p)).all fun q => s.phase q == lENUMERATE) = true := ⟨hp, h4, hg, hph, hw, hphases⟩
  simp only [exec, execEnumEcho, ha, if_pos hcond]
  cases s.heard p .enum <;> rfl

theorem enumEcho_of_first (hh : (s.lane p).heard ≠ some .enum) :
    exec (.enumEcho p) s = .next (deliver s (s.setLane p { (s.lane p) with heard := some .enum })) :=
  (enumEcho_of_enumerate hp hph h4 ha hg hw hall).trans (done_congr (if_neg ((heard_iff s p _).not.2 hh)))

theorem enumEcho_of_second (hh : (s.lane p).heard = some .enum) :
    exec (.enumEcho p) s = .next (deliver s (grantCredits g.handle (partnerArrives p g.handle s))) :=
  (enumEcho_of_enumerate hp hph h4 ha hg hw hall).trans (done_congr (if_pos ((heard_iff s p _).2 hh)))

end

end

/-- Settles O39: the events of a lane in the order of its phases, DETECT, TRAIN, ALIGN, NEGOTIATE and ENUMERATE. -/
theorem laneBringUp : Obligations.LaneBringUp := by
  unfold Obligations.LaneBringUp
  intro s p hp
  refine ⟨fun id rates hph => ⟨laneDetect_of_first hp hph, laneDetect_of_second hp hph⟩, fun c => enterTrain_of_commonRate,
    fun id => ⟨rfl, mem_offerDetected_iff s id⟩,
    fun hph => ⟨trainReady_of_train hp hph, fun c => trainMaxExpire_of_lower hp hph, trainMaxExpire_of_none hp hph⟩,
    fun rtt tx rx aseq hph => alignComplete_of_align hp hph rtt tx rx aseq, fun hph => ⟨fun d1 d2 ha => ?_, fun g ha => ?_⟩,
    fun hph h4 g ha hg hw hall => ⟨enumEcho_of_first hp hph h4 ha hg hw hall, enumEcho_of_second hp hph h4 ha hg hw hall⟩⟩
  · exact ⟨capReceive_of_warp hp hph ha, capReceive_of_chain hp hph ha, fun id => capReceive_of_weft hp hph ha⟩
  · refine ⟨agreedEcho_of_chain hp hph ha, fun h4 => ?_⟩
    have hwarp : ¬p < 2 := by omega
    simp only [if_neg hwarp]
    exact agreedEcho_of_weft hp hph ha h4

end Sys2Proof.Machine

/-! How a strand's edges are placed, and how its slews and ramps move them. -/

namespace Sys2Proof.Machine

/-! ## High times -/

theorem highTime_eq (p n d : Nat) :
    let D := if d = 0 then 128 else d
    let T := n * p
    highTime p n d = (T, min (max (T * D / 2 ^ 8) (8 * 2 ^ 48)) (T - 8 * 2 ^ 48)) := rfl

/-- With a period of 16 ticks or more, the high time and the low time are 8 ticks at least (R109). -/
theorem eightTicks_le_high_and_low {p n : Nat} (d : Nat) (h : 16 * 2 ^ 48 ≤ n * p) :
    8 * 2 ^ 48 ≤ (highTime p n d).2 ∧ 8 * 2 ^ 48 ≤ n * p - (highTime p n d).2 := by
  rw [highTime_eq]
  constructor
  · exact le_min (le_max_right _ _) (by omega)
  · have hle := min_le_right (max (n * p * (if d = 0 then 128 else d) / 2 ^ 8) (8 * 2 ^ 48)) (n * p - 8 * 2 ^ 48)
    omega

/-! ## The code and the shaper of an edge -/

section
variable (x : Int) {s : Nat}

theorem placeEdge_eq (s : Nat) :
    let a := s + (x % 2 ^ 40).toNat
    placeEdge x s = (if 2 ^ 40 ≤ a then (x / 2 ^ 40 + 1, a - 2 ^ 40) else (x / 2 ^ 40, a)) := rfl

theorem placeEdge_shaper_lt (h : s < 2 ^ 40) : (placeEdge x s).2 < 2 ^ 40 := by
  rw [placeEdge_eq]
  split <;> omega

/-- What an edge's code does not take of its position stays in the shaper (R111). -/
theorem placeEdge_exact (s : Nat) : (placeEdge x s).1 * 2 ^ 40 + (placeEdge x s).2 = x + s := by
  rw [placeEdge_eq]
  split <;> omega

end

/-! ## The edge of a strand timed by its rim -/

/-- A strand timed by its rim with its edge at `x.e` placed: its own edge and its companion's, each with its shaper, and the record of it (R111, R170). -/
def Strand.placedOnRim (a : Around) (first : Bool) (x : Strand) : Strand :=
  let y := x.e + x.phi * 2 ^ 36
  let r := placeEdge y x.s
  let f := placeEdge (y + x.h) x.sf
  let c := placeEdge (y + x.h / 2) x.sc
  let cf := placeEdge (y + x.h + (x.t - x.h) / 2) x.scf
  { x with
    s := r.2, sf := f.2, sc := c.2, scf := cf.2
    rise := placed a.main r.1, fall := placed a.main f.1, compRise := placed a.comp c.1, compFall := placed a.comp cf.1
    edges := if first then 0 else x.edges + 1
    pend := false
    ys := y :: x.ys
    ts := x.t * a.cycle / 2 ^ 52 :: x.ts
    qs := r.1 :: x.qs }

/-- On the rim a strand's own positions are rim positions, so its edge can always be placed. -/
theorem emitEdge_of_rim {a : Around} (h : a.par = none) (first : Bool) (x : Strand) : emitEdge a first x = some (x.placedOnRim a first) := by
  have hpos : ∀ pos, rimPos a x pos = some pos := fun pos => by simp only [rimPos, h]
  simp only [emitEdge, hpos]
  rfl

/-- Settles O27: the high time and the code by their arithmetic, and the edge of a strand timed by its rim by `emitEdge_of_rim`. -/
theorem dutyAndPlacement : Obligations.DutyAndPlacement := by
  unfold Obligations.DutyAndPlacement
  refine ⟨fun p n d => ⟨highTime_eq p n d, eightTicks_le_high_and_low d⟩,
    fun x s hs => ⟨placeEdge_eq x s, placeEdge_shaper_lt x hs, placeEdge_exact x s⟩,
    fun a x first h => ⟨x.placedOnRim a first, emitEdge_of_rim h first x, rfl, rfl, rfl, rfl⟩⟩

/-! ## Slew steps -/

/-- The size of a slew step that the gap does not hold back: the way to the target, and at most the step size (R118). -/
def Strand.slewReach (x : Strand) : Nat := min (x.target - x.phi).natAbs x.sigma

section
variable {x : Strand}

theorem slewStep_of_le (h : x.phi ≤ x.target) :
    slewStep x = (x.phi + x.slewReach, x.phi + x.slewReach != x.target, false) := by
  have hn : ¬x.target < x.phi := not_lt.2 h
  simp only [slewStep, if_neg hn, decide_eq_false hn, Bool.false_and, Strand.slewReach]

/-- The change of phase furthest to an earlier one that the gap allows (R118). -/
def Strand.gapLimit (x : Strand) : Int := ceilDiv (x.h + 8 * 2 ^ 48 - x.t) (2 ^ 36)

theorem slewStep_of_gt (h : x.target < x.phi) :
    let d := max (-(x.slewReach : Int)) x.gapLimit
    slewStep x = (x.phi + d, x.phi + d != x.target, d == 0) := by
  simp only [slewStep, if_pos h, decide_eq_true h, Bool.true_and]
  rfl

/-- A step as far as the limit still leaves the gap before the next edge (R118). -/
theorem gap_le_of_gapLimit (x : Strand) : (x.h : Int) + 8 * 2 ^ 48 ≤ x.t + x.gapLimit * 2 ^ 36 := by
  simp only [Strand.gapLimit, ceilDiv]
  omega

theorem gapLimit_nonpos (h : (x.h : Int) + 8 * 2 ^ 48 ≤ x.t) : x.gapLimit ≤ 0 := by
  simp only [Strand.gapLimit, ceilDiv]
  omega

theorem slewReach_le (x : Strand) : x.slewReach ≤ x.sigma ∧ x.slewReach ≤ (x.target - x.phi).natAbs := ⟨min_le_right _ _, min_le_left _ _⟩

/-- A slew goes on exactly while its target is not reached (R118). -/
theorem slewStep_goes_on_iff (x : Strand) : (slewStep x).2.1 = true ↔ (slewStep x).1 ≠ x.target := bne_iff_ne

theorem slewStep_bounds_of_le (h : x.phi ≤ x.target) :
    ((slewStep x).1 - x.phi).natAbs ≤ x.sigma ∧ x.phi ≤ (slewStep x).1 ∧ (slewStep x).1 ≤ x.target := by
  obtain ⟨hsigma, hway⟩ := slewReach_le x
  rw [slewStep_of_le h]
  dsimp only
  omega

theorem slewStep_bounds_of_gt (hg : (x.h : Int) + 8 * 2 ^ 48 ≤ x.t) (h : x.target < x.phi) :
    ((slewStep x).1 - x.phi).natAbs ≤ x.sigma ∧ x.target ≤ (slewStep x).1 ∧ (slewStep x).1 ≤ x.phi ∧
      (x.h : Int) + 8 * 2 ^ 48 ≤ x.t + ((slewStep x).1 - x.phi) * 2 ^ 36 := by
  obtain ⟨hsigma, hway⟩ := slewReach_le x
  have hlim := gapLimit_nonpos hg
  have hgap := gap_le_of_gapLimit x
  rw [slewStep_of_gt h]
  dsimp only
  omega

theorem slewStep_held_iff (x : Strand) : (slewStep x).2.2 = true ↔ x.target < x.phi ∧ (slewStep x).1 = x.phi := by
  rcases lt_or_ge x.target x.phi with h | h
  · simp only [slewStep_of_gt h, beq_iff_eq, h, true_and]
    omega
  · simp only [slewStep_of_le h, Bool.false_eq_true, not_lt.2 h, false_and]

end

/-! ## Ramp steps -/

section
variable {cur tgt : Nat} (k : Nat)

theorem rampPeriod_of_le (h : cur ≤ tgt) : rampPeriod cur tgt k = min tgt (cur + cur / 2 ^ k) := by
  rcases h.lt_or_eq with hlt | rfl
  · exact if_pos hlt
  · simp [rampPeriod]

theorem rampPeriod_of_ge (h : tgt ≤ cur) : rampPeriod cur tgt k = max tgt (cur - cur / (2 ^ k + 1)) := if_neg (not_lt.2 h)

theorem rampWord_of_reached {r : Ramp} (h : rampPeriod cur (r.n * r.p) r.k = r.n * r.p) : rampWord cur r = r.p := if_pos h

theorem rampWord_of_not_reached {r : Ramp} (h : rampPeriod cur (r.n * r.p) r.k ≠ r.n * r.p) :
    rampWord cur r = (2 * rampPeriod cur (r.n * r.p) r.k + r.n) / (2 * r.n) := if_neg h

end

section
variable {a : Around} {x : Strand} {r : Ramp}

theorem rampDue_of_ready (hr : x.ramp = some r) (hl : r.left = 0) (he : a.elig = true) (hp : x.pend = false) : rampDue a x = some r := by
  simp [rampDue, hr, hl, he, hp]

/-- The setting that a ramp step brings: its word and the ramp's divider, with the duty and the phase as they are (R166). -/
def Strand.rampSetting (x : Strand) (r : Ramp) : Setting := ⟨rampWord x.t r, r.n, x.d, x.phi, false, false, x.target, x.sigma, none, 0, 0, 0⟩

theorem rampEdge_eq (a : Around) (r : Ramp) (x : Strand) :
    rampEdge a r x = (settingEdge a (x.rampSetting r) { x with ramp := rampLeft (rampWord x.t r) r }).map fun y => { y with held := x.held } := rfl

theorem rampEdge_of_rim (h : a.par = none) :
    ∃ y, rampEdge a r x = some y ∧ y.p = rampWord x.t r ∧ y.n = r.n ∧ y.t = r.n * rampWord x.t r ∧ y.ramp = rampLeft (rampWord x.t r) r ∧
      y.phi = x.phi ∧ y.d = x.d ∧ y.slewing = x.slewing ∧ y.held = x.held ∧ y.slots = x.slots ∧ y.edges = x.edges + 1 := by
  rw [rampEdge_eq, settingEdge, emitEdge_of_rim h]
  exact ⟨_, rfl, rfl, rfl, rfl, rfl, rfl, rfl, rfl, rfl, rfl, rfl⟩

theorem nextEdge_of_rampDue (h : rampDue a x = some r) : nextEdge a x = rampEdge a r x := by
  simp only [nextEdge, h]

end

/-- Settles O28: a slew step by its direction, a ramp's period by its direction, and the edge of a ramp step by `rampEdge_of_rim`. -/
theorem slewsAndRamps : Obligations.SlewsAndRamps := by
  unfold Obligations.SlewsAndRamps
  refine ⟨fun x hg => ?_, fun cur tgt k => ?_, fun cur r => rampWord_of_reached, fun cur r => rampWord_of_not_reached, fun a x r hr ha he hp hl => ?_⟩
  · refine ⟨?_, fun h => (slewStep_bounds_of_le h).2, fun h => ?_, slewStep_goes_on_iff x, slewStep_held_iff x⟩
    · rcases lt_or_ge x.target x.phi with h | h
      · exact (slewStep_bounds_of_gt hg h).1
      · exact (slewStep_bounds_of_le h).1
    · rcases h.lt_or_eq with hlt | heq
      · exact (slewStep_bounds_of_gt hg hlt).2
      · obtain ⟨-, hlo, hhi⟩ := slewStep_bounds_of_le heq.ge
        omega
  · refine ⟨fun h => ?_, fun h => ?_, fun h hstep => ?_, fun h hstep => ?_⟩
    · rw [rampPeriod_of_le k h]
      exact ⟨le_min h (Nat.le_add_right _ _), min_le_left _ _, min_le_right _ _⟩
    · rw [rampPeriod_of_ge k h]
      exact ⟨le_max_left _ _, max_le h (Nat.sub_le _ _), le_max_right _ _⟩
    · rw [rampPeriod_of_le k h, min_eq_left hstep]
    · rw [rampPeriod_of_ge k h, max_eq_left hstep]
  · rw [nextEdge_of_rampDue (rampDue_of_ready hr hl he hp)]
    exact rampEdge_of_rim ha

end Sys2Proof.Machine

/-! Which hop takes a strand's or a rim's boundary, and how the others end. -/

namespace Sys2Proof.Machine

/-! ## Precedence, and a TIMED hop's boundary -/

theorem precedes_iff (g h : Hop) : precedes g h = true ↔ g.cls < h.cls ∨ (g.cls = h.cls ∧ h.armSeq < g.armSeq) := by
  simp only [precedes, Bool.or_eq_true, Bool.and_eq_true, decide_eq_true_eq, beq_iff_eq]

section
variable {s : State} {at_ : Nat} {h : Hop}

theorem takes_of_untimed (ht : h.timed = false) : s.takes at_ h = true := by
  simp only [State.takes, ht, Bool.not_false, Bool.true_or]

/-- Well past its fire value a TIMED hop takes a boundary unless an earlier one was its own (R151, R153). -/
theorem takes_of_past (hp : h.fire + 140 < at_) : s.takes at_ h = !s.tooLate at_ h := by
  have hreach : s.reaches at_ h = true := by simp only [State.reaches, decide_eq_true hp, Bool.true_or]
  cases ht : h.timed
  · have hlate : s.tooLate at_ h = false := by simp only [State.tooLate, ht, Bool.false_and]
    rw [takes_of_untimed ht, hlate, Bool.not_false]
  · simp only [State.takes, ht, hreach, Bool.not_true, Bool.false_or, Bool.true_and]

theorem takes_of_ahead (ht : h.timed = true) (hp : at_ + 140 < h.fire) : s.takes at_ h = false := by
  have hbeyond : ¬h.fire + 140 < at_ := by omega
  have hnear : ¬h.fire ≤ at_ + 140 := by omega
  simp only [State.takes, State.reaches, ht, decide_eq_false hbeyond, decide_eq_false hnear, Bool.not_true, Bool.false_and, Bool.or_false]

end

/-! ## A running strand's boundary -/

/-- The hop of `l` that has precedence over the others (R150). -/
def foremost (l : List Hop) : Option Hop := l.find? fun h => l.all fun g => g.id == h.id || precedes h g

/-- Strand `k` after `n` further edges, when the STARTs whose time has come have found it running (R163). -/
def boundaryReached (k n at_ : Nat) (s : State) : State :=
  let r := runEdges k n s
  eachDo (r.hops.filter fun h => h.st == .due && h.target == k && h.op == 5 && (!h.timed || decide (h.fire ≤ at_))) startRejected r

/-- The hops DUE at strand `k`'s boundaries, not blocked (R149, R150). -/
def State.dueHops (s : State) (k : Nat) : List Hop :=
  s.hops.filter fun h => h.st == .due && h.target == k && (h.op == 1 || h.op == 6) && (s.blocked h).isNone

/-- Those of them that may take the boundary at `at_` and whose ramp fits (R151, R166). -/
def State.fitHops (s : State) (k at_ : Nat) : List Hop := ((s.dueHops k).filter (s.takes at_)).filter fun h => !s.rampMismatch h

/-- The hops that the boundary at `at_` ends without a choice: those whose own boundary has passed, and those whose ramp does not fit (R153, R166). -/
def boundaryLost (k at_ : Nat) (s : State) : State :=
  let t := eachDo ((s.dueHops k).filter (s.tooLate at_)) (completeHop · 2 0 0) { s with freeCtr := s.freeCtr + 1 }
  eachDo (((s.dueHops k).filter (s.takes at_)).filter s.rampMismatch) (completeHop · 0x14 0 0) t

section
variable {s t : State} {k n at_ : Nat} (ht : boundaryReached k n at_ s = t)
include ht

/-- A plaited strand without its edge 0 has no boundary yet (R182). -/
theorem takeBoundary_of_pend (hp : (t.strand k).pend = true) : takeBoundary k n at_ s = t := by
  subst ht
  exact if_pos hp

variable (hp : (t.strand k).pend = false)
include hp

theorem takeBoundary_of_none (hf : foremost (t.fitHops k at_) = none) : takeBoundary k n at_ s = boundaryLost k at_ t := by
  subst ht
  refine (if_neg (hp ▸ Bool.false_ne_true)).trans ?_
  split
  next => rfl
  next w hw => exact absurd (hf.symm.trans hw) nofun

/-- The foremost hop takes the boundary, and the others that might have are SUPERSEDED (R150). -/
theorem takeBoundary_of_some {w : Hop} (hf : foremost (t.fitHops k at_) = some w) :
    takeBoundary k n at_ s =
      let v := eachDo ((t.fitHops k at_).filter fun h => h.id != w.id) (completeHop · 4 0 0) (boundaryLost k at_ t)
      if w.op = 6 then applyStop w v else applyArm w v := by
  subst ht
  refine (if_neg (hp ▸ Bool.false_ne_true)).trans ?_
  split
  next hn => exact absurd (hf.symm.trans hn) nofun
  next x hx =>
    obtain rfl : w = x := Option.some.inj (hf.symm.trans hx)
    rfl

end

theorem hopTakeEffect_of_running {s : State} {k : Nat} (h : s.flag (STR_STATUS_RUN k) = true) (n at_ : Nat) :
    exec (.hopTakeEffect false k n at_) s = .next (deliver s (settleAll (takeBoundary k n at_ s))) := settled_congr (if_pos h)

/-! ## The start of a strand timed by its rim -/

/-- The STARTs of strand `k` that are DUE, not blocked, and whose time has come at `at_` (R163). -/
def State.dueStarts (s : State) (k at_ : Nat) : List Hop :=
  s.hops.filter fun h => h.st == .due && h.target == k && h.op == 5 && (!h.timed || decide (h.fire ≤ at_)) && (s.blocked h).isNone

/-- Those of them whose start point has passed complete MISSED (R153). -/
def startsMissed (k at_ : Nat) (s : State) : State := eachDo ((s.dueStarts k at_).filter (s.startLate at_)) (completeHop · 2 0 0) s

/-- The STARTs that may still take effect. -/
def State.liveStarts (s : State) (k at_ : Nat) : List Hop := (s.dueStarts k at_).filter fun h => !s.startLate at_ h

section
variable {s : State} {k at_ : Nat} (hp : (s.strand k).parent = none) (n : Nat)
include hp

theorem takeStart_of_none (hd : foremost (s.liveStarts k at_) = none) : takeStart k n at_ s = startsMissed k at_ s := by
  rw [takeStart, hp]
  dsimp only
  split
  next => rfl
  next w hw => exact absurd (hd.symm.trans hw) nofun

theorem takeStart_of_some {w : Hop} {k0 : Nat} (hw : foremost (s.liveStarts k at_) = some w) (hk : s.startPoint w = some k0) :
    takeStart k n at_ s = applyStart k0 w (startsMissed k at_ s) := by
  rw [takeStart, hp]
  dsimp only
  split
  next hn => exact absurd (hw.symm.trans hn) nofun
  next x hx =>
    obtain rfl : w = x := Option.some.inj (hw.symm.trans hx)
    rw [hk]
    rfl

end

theorem hopTakeEffect_of_stopped {s : State} {k : Nat} (h : s.flag (STR_STATUS_RUN k) = false) (n at_ : Nat) :
    exec (.hopTakeEffect false k n at_) s = .next (deliver s (settleAll (takeStart k n at_ s))) :=
  settled_congr (if_neg (h ▸ Bool.false_ne_true))

/-! ## Retunes -/

/-- The retunes of rim `n` that are DUE, not blocked, and whose time has come at `at_` (R165). -/
def State.dueRetunes (s : State) (n at_ : Nat) : List Hop :=
  s.hops.filter fun h => h.st == .due && h.op == 4 && h.rim == n && (!h.timed || decide (h.fire ≤ at_)) && (s.blocked h).isNone

theorem takeRim_of_some {s : State} {n at_ : Nat} {w : Hop} (hw : foremost (s.dueRetunes n at_) = some w) : takeRim n at_ s = beginRetune w s := by
  rw [takeRim]
  split
  next x hx =>
    obtain rfl : w = x := Option.some.inj (hw.symm.trans hx)
    rfl
  next hn => exact absurd (hw.symm.trans hn) nofun

/-! ## The timers of a hop -/

section
variable {s : State} {i : Nat} {h : Hop} (hi : s.hop? i = some h)
include hi

theorem holdMaxExpire_of_held {d : Nat} (hst : h.st = .held) (hb : s.blocked h = some d) :
    exec (.holdMaxExpire i) s = .next (deliver s (completeHop h 8 d 0 s)) := by
  simp only [exec, execHoldMaxExpire, hi, hst, if_true, hb]
  rfl

theorem fireLeadReached_of_armed (hst : h.st = .armed) (ht : h.timed = true) (hl : s.leadReached h.fire = true) (hb : s.blocked h = none) :
    exec (.fireLeadReached i) s = .next (deliver s (becomeDue h s)) := by
  simp only [exec, execFireLeadReached, hi, hst, ht, hl, hb, Option.isNone_none, and_self, if_true, done_eq]

theorem timedMissed_of_past (ht : h.timed = true) (hst : h.st = .armed ∨ h.st = .held ∨ h.st = .speculative) (hf : h.fire ≤ s.tally) :
    exec (.timedMissed i) s = .next (deliver s (completeHop h 2 0 0 s)) := by
  simp only [exec, execTimedMissed, hi]
  exact if_pos ⟨ht, hst, hf⟩

theorem specTimeout_of_speculative (hst : h.st = .speculative) (hr : ∀ p, h.src = .lane p → s.flag (LANE_STATUS_REPLAY p) = false) :
    exec (.specTimeout i) s = .next (deliver s (completeHop h 7 0 0 s)) := by
  simp only [exec, execSpecTimeout, hi, hst, true_and]
  cases hsrc : h.src with
  | lane p =>
    simp only [hr p hsrc]
    rfl
  | host r => rfl

end

/-- Settles O26: a boundary by what the foremost hop at it is, a start and a retune likewise, and each timer's end. -/
theorem hopEnds : Obligations.HopEnds := by
  unfold Obligations.HopEnds
  intro s
  refine ⟨fun k n at_ hrun => ?_, fun k n at_ hrun hpar => ?_,
    fun h at_ => ⟨takes_of_untimed, takes_of_past, takes_of_ahead⟩, precedes_iff,
    fun n m at_ w hw => settled_congr (takeRim_of_some hw),
    fun i h hi => ⟨fun d => holdMaxExpire_of_held hi, fireLeadReached_of_armed hi, timedMissed_of_past hi, specTimeout_of_speculative hi⟩,
    fun h code d e => rfl⟩
  · intro r t due fit u u' o
    have ho : o = .next (deliver s (settleAll (takeBoundary k n at_ s))) := hopTakeEffect_of_running hrun n at_
    have ht : boundaryReached k n at_ s = t := rfl
    refine ⟨fun hp => ?_, fun hp hfit => ?_, fun hp w hw => ?_⟩
    · rw [ho, takeBoundary_of_pend ht hp]
    · have hf : foremost (t.fitHops k at_) = none := congrArg foremost hfit
      rw [ho, takeBoundary_of_none ht hp hf]
      rfl
    · rw [ho, takeBoundary_of_some ht hp hw]
      exact ⟨fun hop => settled_congr (if_neg (by omega)), fun hop => settled_congr (if_pos hop)⟩
  · rw [hopTakeEffect_of_stopped hrun]
    refine ⟨fun hd => ?_, fun w k0 hw hk => settled_congr (takeStart_of_some hpar n hw hk)⟩
    exact settled_congr (takeStart_of_none hpar n (congrArg foremost hd))

end Sys2Proof.Machine

/-! What moves a strand: its ramp and slew steps, its move to a new time base, and the commands on it. -/

namespace Sys2Proof.Machine

/-! ## Ramp and slew steps -/

theorem rampDue_of_not_ready {a : Around} {x : Strand}
    (h : x.ramp = none ∨ (∃ r, x.ramp = some r ∧ r.left ≠ 0) ∨ a.elig = false ∨ x.pend = true) : rampDue a x = none := by
  cases hr : x.ramp with
  | none => simp only [rampDue, hr]
  | some r =>
    have hwait : (decide (r.left = 0) && a.elig && !x.pend) = false := by
      rcases h with h | ⟨q, hq, hl⟩ | h | h
      · exact absurd (hr.symm.trans h) nofun
      · obtain rfl : r = q := Option.some.inj (hr.symm.trans hq)
        simp [hl]
      · simp [h]
      · simp [h]
    simp only [rampDue, hr, hwait, Bool.false_eq_true, if_false]

section
variable {s : State} {k n : Nat} {t : State} (ht : runEdges k n s = t)
include ht

theorem rampStep_of_due {r : Ramp} (h : rampDue (t.around k) (t.strand k) = some r) :
    exec (.rampStep k n) s = .next (deliver s (runEdges k 1 t)) := by
  subst ht
  exact done_congr (if_pos (by rw [h]; rfl))

theorem rampStep_of_not_due (h : rampDue (t.around k) (t.strand k) = none) : exec (.rampStep k n) s = .next (deliver s t) := by
  subst ht
  exact done_congr (if_neg (by rw [h]; nofun))

end

theorem exec_slewStep_of_slewing {s : State} {k : Nat} (hrun : s.flag (STR_STATUS_RUN k) = true) (hs : (s.strand k).slewing = true) :
    exec (.slewStep k) s = .next (deliver s (runEdges k 1 s)) := if_pos ⟨hrun, hs⟩

/-! ## The move of a partial reweave -/

/-- Strand `k` waits for its move no longer, is bound as the plan now has it, and its wale settles (R312). -/
def moveDone (k : Nat) (u : State) : State :=
  let v : State := { u with moving := u.moving.filter fun j => j != k }
  settleWale (waleOf k) (bindStrand v.planNow k v)

/-- What the boundary of a strand that has still to move brings: its stop, or its first edge on the new base where that can be placed (R167, R312). -/
def baseMove (k : Nat) (delta k0 : Int) (t : State) : Option State :=
  if (t.planNow.strand? k).isNone || !baseChanges t.load.old t.planNow k then some (stopStrand 4 k t) else moveBase k delta k0 t

theorem baseMove_stops {k : Nat} {t : State} (h : t.planNow.strand? k = none ∨ baseChanges t.load.old t.planNow k = false) (delta k0 : Int) :
    baseMove k delta k0 t = some (stopStrand 4 k t) := by
  refine if_pos ?_
  rcases h with h | h <;> simp [h]

theorem baseMove_moves {k : Nat} {t : State} (hs : (t.planNow.strand? k).isSome = true) (hb : baseChanges t.load.old t.planNow k = true)
    (delta k0 : Int) : baseMove k delta k0 t = moveBase k delta k0 t := by
  refine if_neg ?_
  rw [Option.isNone_eq_false_iff.2 hs, hb]
  exact Bool.false_ne_true

theorem strandBaseMove_of_moving {s u : State} {k n : Nat} {delta k0 : Int} (hm : s.moving.contains k = true)
    (hu : baseMove k delta k0 (runEdges k n s) = some u) :
    exec (.strandBaseMove k n delta k0) s = .next (deliver s (settleAll (moveDone k u))) := by
  refine (if_pos hm).trans ?_
  split
  next v hv =>
    obtain rfl : u = v := Option.some.inj (hu.symm.trans hv)
    rfl
  next hn => exact absurd (hu.symm.trans hn) nofun

/-! ## STR_CMD -/

section
variable {s : State} {m k : Nat} (h : s.opens m STR_CMD false) (f : State → State)
include h

/-- A virtual function's command for another basket's strand has no effect and is counted (R326). -/
theorem strCmd_of_foreign (h1 : 1 ≤ m) (h64 : m ≤ 64) (hb : s.strandBasket k ≠ some (m - 1)) : strCmd m k f s = countForeign m s :=
  (gateWrite_of_opens h _).trans (if_pos ⟨h1, h64, hb⟩)

theorem strCmd_of_own (hm : m = 0 ∨ m = 65 ∨ s.strandBasket k = some (m - 1)) : strCmd m k f s = (f s).put STR_CMD_STATUS_DONE 1 := by
  refine (gateWrite_of_opens h _).trans (if_neg ?_)
  rintro ⟨h1, h64, hb⟩
  rcases hm with rfl | rfl | hm
  · exact absurd h1 (by decide)
  · exact absurd h64 (by decide)
  · exact hb hm

end

section
variable (s : State) {m k : Nat} (hk : k < 1024)
include hk

theorem slotClear_eq {j : Nat} (hj : j < 4) (all : Bool) :
    exec (.slotClear m k j all) s = .next (deliver s (strCmd m k (fun s => s.setStrand k
      { s.strand k with slots := if all then [{}, {}, {}, {}] else (s.strand k).slots.set j {} }) s)) := by
  refine (if_pos ⟨hk, hj⟩).trans ?_
  cases all <;> rfl

theorem recheck_eq :
    exec (.recheck m k) s = .next (deliver s (strCmd m k (fun s =>
      s.put (WAL_CHECK_NEXT (k / 16)) (if s.get (STR_STATUS_PHYS k) = 17 * (k / 16) + 16 then 16 else k % 16)) s)) := if_pos hk

end

/-! ## The registers latched at a strand's latest edge -/

/-- Steps that each leave register `a` as it was leave it so together. -/
theorem reg_eachDo_of_unchanged {α : Type} {l : List α} {f : α → State → State} {a : Nat} (h : ∀ x ∈ l, ∀ t, (f x t).reg a = t.reg a) (s : State) :
    (eachDo l f s).reg a = s.reg a := by
  induction l generalizing s with
  | nil => rfl
  | cons x l ih => exact (ih (fun y hy => h y (List.mem_cons_of_mem _ hy)) _).trans (h x List.mem_cons_self s)

theorem eachDo_cons_cons {α : Type} (x y : α) (l : List α) (f : α → State → State) (s : State) :
    eachDo (x :: y :: l) f s = eachDo l f (f y (f x s)) := rfl

/-- Registers written beyond `a` leave `a`. -/
theorem reg_setRegs_of_lt {l : List (Nat × Word)} {a : Nat} (h : ∀ p ∈ l, a < p.1) (s : State) :
    (eachDo l (fun p t => t.setReg p.1 p.2) s).reg a = s.reg a :=
  reg_eachDo_of_unchanged (fun p hp _ => reg_setReg_ne _ _ _ _ (h p hp).ne) s

/-- Of what is latched, only the first two registers are STR_ACC0 and STR_ACC1: the others lie beyond them. -/
theorem latchStrand_reg {k a : Nat} (ha : a ≤ STR_ACC1 k) (s : State) :
    (latchStrand k s).reg a =
      ((s.setReg (STR_ACC0 k) (BitVec.ofNat 32 (unsigned 64 (s.strand k).e))).setReg (STR_ACC1 k)
        (BitVec.ofNat 32 (unsigned 64 (s.strand k).e / 2 ^ 32))).reg a := by
  rw [STR_ACC1] at ha
  unfold latchStrand
  refine (reg_eachDo_of_unchanged (fun j _ => reg_setRegs_of_lt ?_) _).trans ((congrArg (State.reg · a) (eachDo_cons_cons ..)).trans (reg_setRegs_of_lt ?_ _))
  · simp only [List.forall_mem_cons, STR_SLOT_CTRL, STR_SLOT_PER0, STR_SLOT_PER1, STR_SLOT_DIV, STR_SLOT_POS0, STR_SLOT_POS1]
    refine ⟨?_, ?_, ?_, ?_, ?_, ?_, nofun⟩ <;> omega
  · simp only [List.forall_mem_cons, STR_EDGES0, STR_EDGES1, STR_SHAPE0, STR_SHAPE1, STR_FSHAPE0, STR_PER0, STR_PER1, STR_DIV, STR_PHASE, STR_SLEW_TGT,
      STR_SLEW]
    refine ⟨?_, ?_, ?_, ?_, ?_, ?_, ?_, ?_, ?_, ?_, ?_, nofun⟩ <;> omega

/-- The low and the high word of a position in two's complement. -/
theorem ofNat_unsigned_low (x : Int) : BitVec.ofNat 32 (unsigned 64 x) = BitVec.ofInt 32 x := by
  apply BitVec.eq_of_toNat_eq
  simp only [BitVec.toNat_ofNat, BitVec.toNat_ofInt, unsigned]
  omega

theorem ofNat_unsigned_high (x : Int) : BitVec.ofNat 32 (unsigned 64 x / 2 ^ 32) = BitVec.ofInt 32 (x / 2 ^ 32) := by
  apply BitVec.eq_of_toNat_eq
  simp only [BitVec.toNat_ofNat, BitVec.toNat_ofInt, unsigned]
  omega

theorem latchStrand_acc0 (k : Nat) (s : State) : (latchStrand k s).reg (STR_ACC0 k) = BitVec.ofInt 32 (s.strand k).e := by
  have hlt : STR_ACC0 k < STR_ACC1 k := by
    rw [STR_ACC0, STR_ACC1]
    omega
  rw [latchStrand_reg hlt.le, reg_setReg_ne _ _ _ _ hlt.ne, reg_setReg_self, ofNat_unsigned_low]

theorem latchStrand_acc1 (k : Nat) (s : State) : (latchStrand k s).reg (STR_ACC1 k) = BitVec.ofInt 32 ((s.strand k).e / 2 ^ 32) := by
  rw [latchStrand_reg le_rfl, reg_setReg_self, ofNat_unsigned_high]

theorem strAcc0Read_of_opens {s : State} {m k : Nat} (hk : k < 1024) (h : s.opens m (STR_ACC0 k) false) :
    exec (.strAcc0Read m k) s = .next (deliver s (latchStrand k s)) := (if_pos hk).trans (done_congr (gateRead_of_opens h _))

/-- Settles O29: a ramp step by whether it is due, the move by what `baseMove` brings, the commands by whose strand it is, and the latched position. -/
theorem strandMotion : Obligations.StrandMotion := by
  unfold Obligations.StrandMotion
  intro s
  refine ⟨fun k n => ⟨fun r hr hl he hp => ?_, fun h => ?_⟩, fun k => exec_slewStep_of_slewing,
    fun k n delta k0 hm => ⟨fun h => ?_, fun u hs hb hu => ?_⟩,
    fun m k j all hk hj h => ⟨fun h1 h64 hb => ?_, fun hm => ?_⟩,
    fun m k hk h => ⟨strAcc0Read_of_opens hk h, latchStrand_acc0 k s, latchStrand_acc1 k s⟩⟩
  · exact rampStep_of_due rfl (rampDue_of_ready hr hl (Option.isNone_iff_eq_none.2 he) hp)
  · refine rampStep_of_not_due rfl (rampDue_of_not_ready ?_)
    exact h.imp_right (.imp_right (.imp_left Option.isNone_eq_false_iff.2))
  · exact strandBaseMove_of_moving hm (baseMove_stops h delta k0)
  · exact strandBaseMove_of_moving hm ((baseMove_moves hs hb delta k0).trans hu)
  · rw [slotClear_eq s hk hj, recheck_eq s hk, strCmd_of_foreign h _ h1 h64 hb, strCmd_of_foreign h _ h1 h64 hb]
    exact ⟨rfl, rfl⟩
  · rw [slotClear_eq s hk hj, recheck_eq s hk, strCmd_of_own h _ hm, strCmd_of_own h _ hm]
    exact ⟨rfl, rfl⟩

end Sys2Proof.Machine

/-! What the self-test's and the repair map's commands do, and how a splice goes on. -/

namespace Sys2Proof.Machine

/-! ## BIST_CMD and the repair map -/

section
variable {s : State} {m : Nat} (h : s.opens m BIST_CMD true)
include h

theorem fullNext_of_opens : exec (.fullNext m) s = .next (deliver s (s.put BIST_STATUS_FULL_NEXT 1)) := done_congr (gateWrite_of_opens h _)

theorem cancelFull_of_opens : exec (.cancelFull m) s = .next (deliver s (s.put BIST_STATUS_FULL_NEXT 0)) := done_congr (gateWrite_of_opens h _)

theorem storeMap_of_opens : exec (.storeMap m) s = .next (deliver s (settleAll (queueMap s))) := settled_congr (gateWrite_of_opens h _)

end

theorem repairMapWriteStart_of_pending {s : State} (h : s.flag BIST_MAP_STATUS_PENDING = true) :
    exec .repairMapWriteStart s = .next (deliver s (settleAll (queueMap s))) := if_pos h

/-- The repair map's number, 7, stands in the NVM writer's queue once (R417). -/
theorem queueMap_of_queued {s : State} (h : 7 ∈ s.nvmQueue) : queueMap s = s.put BIST_MAP_STATUS_PENDING 1 := if_pos (List.contains_iff_mem.2 h)

theorem queueMap_of_not_queued {s : State} (h : 7 ∉ s.nvmQueue) :
    queueMap s = { s.put BIST_MAP_STATUS_PENDING 1 with nvmQueue := s.nvmQueue ++ [7] } := if_neg fun hc => h (List.contains_iff_mem.1 hc)

/-! ## WAL_SPLICE -/

theorem spliceOk_iff (s : State) (k : Nat) :
    s.spliceOk k = true ↔ s.get (WAL_SPARE_STATE (k / 16)) = 0 ∧ s.splice? (k / 16) = none ∧
      ∀ n g, s.waleRim (k / 16) = some n → (s.rim n).mig = some g → g.hitless = false ∨ g.locked = false := by
  simp only [State.spliceOk, waleOf, Bool.and_eq_true, beq_iff_eq, Option.isNone_iff_eq_none, and_assoc]
  refine and_congr_right fun _ => and_congr_right fun _ => ?_
  cases hr : s.waleRim (k / 16) with
  | none => simp
  | some n =>
    have hrim : (∀ n' g, some n = some n' → (s.rim n').mig = some g → g.hitless = false ∨ g.locked = false) ↔
        ∀ g, (s.rim n).mig = some g → g.hitless = false ∨ g.locked = false := by
      constructor
      · exact fun h g => h n g rfl
      · rintro h n' g ⟨⟩
        exact h g
    rw [hrim]
    cases hm : (s.rim n).mig <;> simp [hm]

section
variable {s : State} {m : Nat} (h : s.opens m WAL_SPLICE true) {v : Word}
include h

theorem walSpliceGo_without_go (hv : v.toNat < 2 ^ 31) :
    exec (.walSpliceGo m v) s = .next (deliver s (settleAll (keepRsvl m WAL_SPLICE v s))) := by
  have hgo : bitsAt v 31 1 = 0 := by
    have hlt : bitsAt v 31 1 < 2 := Nat.mod_lt _ (by decide)
    have hne := (bitsAt_top_iff v).not.2 (Nat.not_le.2 hv)
    omega
  exact settled_congr ((gateWrite_of_opens h _).trans (if_pos hgo))

variable (hv : 2 ^ 31 ≤ v.toNat) {t : State} (ht : keepRsvl m WAL_SPLICE v s = t)
include hv ht

/-- With GO the strand named by the low 10 bits is spliced where that may be (R422). -/
theorem walSpliceGo_go :
    exec (.walSpliceGo m v) s = .next (deliver s (settleAll
      (if !(t.spliceOk (v.toNat % 1024) && (t.strand (v.toNat % 1024)).bound) then t.put (WAL_EVENT_SPLICE_REJ (v.toNat % 1024 / 16)) 1
        else spliceStart (v.toNat % 1024) t))) := by
  have hgo : ¬bitsAt v 31 1 = 0 := by
    rw [(bitsAt_top_iff v).2 hv]
    decide
  have hk : bitsAt v 0 10 = v.toNat % 1024 := bitsAt_zero v 10
  subst ht
  refine settled_congr ((gateWrite_of_opens h _).trans ((if_neg hgo).trans ?_))
  simp only [hk]
  rfl

theorem walSpliceGo_rejected (hmay : ¬(t.spliceOk (v.toNat % 1024) = true ∧ (t.strand (v.toNat % 1024)).bound = true)) :
    exec (.walSpliceGo m v) s = .next (deliver s (settleAll (t.put (WAL_EVENT_SPLICE_REJ (v.toNat % 1024 / 16)) 1))) := by
  refine (walSpliceGo_go h hv ht).trans (settled_congr (if_pos ?_))
  rwa [Bool.not_eq_true', ← Bool.not_eq_true, Bool.and_eq_true]

theorem walSpliceGo_accepted (hmay : t.spliceOk (v.toNat % 1024) = true ∧ (t.strand (v.toNat % 1024)).bound = true) :
    exec (.walSpliceGo m v) s = .next (deliver s (settleAll (spliceStart (v.toNat % 1024) t))) := by
  refine (walSpliceGo_go h hv ht).trans (settled_congr (if_neg ?_))
  rwa [Bool.not_eq_true', ← Bool.not_eq_true, not_not, Bool.and_eq_true]

end

/-! ## The steps of a splice -/

theorem pairsPass_iff (s : State) (w : Nat) (pairs : List (Nat × Nat)) :
    let l := s.pairTimes w pairs
    let per := l.length * 2 ^ 23 * 1750000000 * s.waleWord w
    s.pairsPass w pairs = true ↔ l.sum.natAbs * (10 ^ 15 * 2 ^ 32) ≤ 20 * per ∧
      (l.length * (l.map fun x => x * x).sum - l.sum * l.sum) * (10 ^ 15 * 2 ^ 32) ^ 2 ≤
        ((10 * s.get WAL_CHECK_CFG_RMS_LIM * per : Nat) : Int) ^ 2 := by
  simp only [State.pairsPass, meanWithin, rmsWithin, Bool.and_eq_true, decide_eq_true_eq]
  rfl

section
variable {s : State} {w : Nat} {x : Splice} (hx : s.splice? w = some x)
include hx

theorem spliceShadowStart_of_waitShadow (hp : x.phase = .waitShadow) :
    exec (.spliceShadowStart w) s =
      .next (deliver s (settleAll (setSplice w { x with phase := if x.parked then .handover else .shadow } s))) := by
  simp only [exec, execSpliceShadowStart, hx, hp, if_true, settled_eq]

theorem spliceHandover_of_handover (hp : x.phase = .handover) :
    exec (.spliceHandover w) s = .next (deliver s (settleAll (spliceDone x.strand (shiftStrand true x.delta x.strand s)))) := by
  simp only [exec, execSpliceHandover, hx, hp, if_true, settled_eq]

variable {pairs : List (Nat × Nat)} (hlo : 256 ≤ pairs.length) (hhi : pairs.length ≤ 4096)
include hlo hhi

/-- The alignment takes the pairs' mean off the spare's position (R422 step 3). -/
theorem spliceAlignEnd_of_shadow (hp : x.phase = .shadow) :
    let l := s.pairTimes w pairs
    exec (.spliceAlignEnd w pairs) s = .next (deliver s (settleAll (setSplice w
      { x with phase := .verify, tries := x.tries + 1, delta := x.delta - roundAway (l.sum * 2 ^ 29) l.length } s))) := by
  have hn : pairsEnough pairs = true := decide_eq_true ⟨hlo, hhi⟩
  simp only [exec, execSpliceAlignEnd, hx, hp, hn, and_self, if_true, settled_eq, alignDelta, sub_eq_add_neg]

/-- A verification by whether it passes, and the second failure by the tries before it (R422 step 4, R423). -/
theorem spliceVerifyEnd_of_verify (hp : x.phase = .verify) :
    exec (.spliceVerifyEnd w pairs) s = .next (deliver s (settleAll
      (if s.pairsPass w pairs then setSplice w { x with phase := .handover } s
        else if x.tries < 2 then setSplice w { x with phase := .shadow } s else spliceFail w s))) := by
  have hn : pairsEnough pairs = true := decide_eq_true ⟨hlo, hhi⟩
  simp only [exec, execSpliceVerifyEnd, hx, hp, hn, and_self, if_true, settled_ite]
  split <;> rfl

end

/-- Settles O56: the commands behind their gates, WAL_SPLICE by what its GO finds, and the steps of a splice by its phase. -/
theorem repairAndSplices : Obligations.RepairAndSplices := by
  unfold Obligations.RepairAndSplices
  intro s
  refine ⟨fun m h => ⟨fullNext_of_opens h, cancelFull_of_opens h, storeMap_of_opens h⟩, repairMapWriteStart_of_pending,
    ⟨queueMap_of_queued, queueMap_of_not_queued⟩,
    fun m v h => ⟨walSpliceGo_without_go h, fun hv => walSpliceGo_rejected h hv rfl, fun hv => walSpliceGo_accepted h hv rfl⟩,
    spliceOk_iff s, fun w x hx => ⟨spliceShadowStart_of_waitShadow hx, fun pairs hlo hhi => ⟨spliceAlignEnd_of_shadow hx hlo hhi, fun hp => ?_⟩,
      spliceHandover_of_handover hx⟩⟩
  rw [spliceVerifyEnd_of_verify hx hlo hhi hp]
  refine ⟨fun hpass => ?_, fun hfail htries => ?_, fun hfail htries => ?_⟩
  · exact settled_congr (if_pos ((pairsPass_iff s w pairs).2 hpass))
  · exact settled_congr ((if_neg ((pairsPass_iff s w pairs).not.2 hfail)).trans (if_pos htries))
  · exact settled_congr ((if_neg ((pairsPass_iff s w pairs).not.2 hfail)).trans (if_neg (Nat.not_lt.2 htries)))

end Sys2Proof.Machine

/-! What a COMMIT and a SQUASH do, and what a CMD_U frame may carry. -/

namespace Sys2Proof.Machine

/-! ## COMMIT and SQUASH by the hop that holds the tag -/

section
variable {c : CmdIn} {s : State} {p : Parsed}
  (h : s.incoming c = some p) (haddr : s.addressed p = true) (hcheck : s.parseCheck p = none) (habort : s.abortsAll = false)
include h haddr hcheck habort

theorem exec_hopCommit (ho : cmdOp p.w0 = 2) : exec (.hopCommit c) s = .next (deliver s (acted p s (actCommit p s))) := by
  have ho' : p.op = 2 := ho
  have hparse : parse p s = actCommit p s := by simp only [parse, hcheck, habort, ho', if_true, Bool.false_eq_true, if_false]
  rw [exec_of_incoming h (by simp [checkedCommands]) ho, receive_addressed (by omega) haddr, hparse]

theorem exec_hopSquash (ho : cmdOp p.w0 = 3) : exec (.hopSquash c) s = .next (deliver s (acted p s (actSquash p s))) := by
  have ho' : p.op = 3 := ho
  have hparse : parse p s = actSquash p s := by
    simp only [parse, hcheck, habort, ho', (by decide : 3 ≠ 2), if_true, Bool.false_eq_true, if_false]
  rw [exec_of_incoming h (by simp [checkedCommands]) ho, receive_addressed (by omega) haddr, hparse]

end

section
variable {p : Parsed} {s : State}

theorem actCommit_of_no_tag (ht : s.tagHop p.basket (cmdTag p.w1) = none) : actCommit p s = answerOr p 0x16 0 s := by
  simp only [actCommit, ht, cTAG_UNKNOWN]

theorem actSquash_of_no_tag (ht : s.tagHop p.basket (cmdTag p.w1) = none) : actSquash p s = answerOr p 0x16 0 s := by
  simp only [actSquash, ht, cTAG_UNKNOWN]

variable {h : Hop} (ht : s.tagHop p.basket (cmdTag p.w1) = some h)
include ht

theorem actCommit_of_squashed (hq : h.squashed = true) : actCommit p s = answerOr p 0x16 1 s := by
  simp only [actCommit, ht, hq, if_true, cTAG_UNKNOWN]

theorem actSquash_of_squashed (hq : h.squashed = true) : actSquash p s = some (consume p s) := by
  simp only [actSquash, ht, hq, if_true]

variable (hq : h.squashed = false)
include hq

theorem actCommit_of_released (hr : h.released = true) : actCommit p s = some (consume p s) := by
  simp only [actCommit, ht, hq, hr, if_true, Bool.false_eq_true, if_false]

theorem actSquash_of_released (hr : h.released = true) : actSquash p s = answerOr p 0x17 0 s := by
  simp only [actSquash, ht, hq, hr, if_true, Bool.false_eq_true, if_false, cSQUASH_LATE]

variable (hr : h.released = false)
include hr

/-- A hop that waits for its COMMIT arms with it; one still in its ring or its fetch is only marked (R156). -/
theorem actCommit_of_unreleased :
    let t := (consume p s).modHop h.id fun x => { x with released := true }
    actCommit p s = some (if h.st = .speculative then armHop { h with released := true } t else t) := by
  simp only [actCommit, ht, hq, hr, Bool.false_eq_true, if_false]
  split <;> rfl

/-- A hop that waits for its COMMIT ends; one still in its ring or its fetch is only marked (R157). -/
theorem actSquash_of_unreleased :
    actSquash p s = some (if h.st = .speculative then completeHop h 3 0 0 (consume p s)
      else (consume p s).modHop h.id fun x => { x with squashed := true }) := by
  simp only [actSquash, ht, hq, hr, Bool.false_eq_true, if_false]
  split <;> rfl

end

/-! ## After the fetch -/

section
variable {h : Hop}

theorem afterFetch_of_squashed (hq : h.squashed = true) (hr : h.released = false) (s : State) : afterFetch h s = completeHop h 3 0 0 s :=
  if_pos (by rw [hq, hr]; rfl)

theorem afterFetch_of_released (hr : h.released = true) (s : State) : afterFetch h s = armHop h s := by
  simp only [afterFetch, hr, Bool.not_true, Bool.and_false, Bool.false_and, Bool.false_eq_true, if_false]

theorem afterFetch_of_not_speculative (hs : h.spec = false) (hq : h.squashed = false) (s : State) : afterFetch h s = armHop h s := by
  simp only [afterFetch, hs, hq, Bool.false_and, Bool.false_eq_true, if_false]

/-- An unreleased speculative hop waits for its COMMIT, or ends with its source gone (R147, R159). -/
theorem afterFetch_of_unreleased (hs : h.spec = true) (hr : h.released = false) (hq : h.squashed = false) (s : State) :
    afterFetch h s = if h.orphan then completeHop h 6 0 0 s
      else s.modHop h.id fun x => { x with st := .speculative, record := h.record, heldAt := s.elapsed } := by
  simp only [afterFetch, hs, hr, hq, Bool.not_false, Bool.and_true, Bool.true_and, Bool.false_eq_true, if_false, if_true, cLINK_ERR]

end

/-! ## The command at the head of a ring -/

theorem canAnswer_iff {s : State} {h : Hop} : s.canAnswer h = true ↔ h.reserved = true ∨ cmdReply h.w0 = 1 ∨ s.canReserve h.basket = true := by
  simp only [State.canAnswer, Bool.or_eq_true, beq_iff_eq, or_assoc]

section
variable {s : State} {r : Nat} {h : Hop} (hh : s.ringHead? r = some h)
include hh

theorem hopGrant_of_aborting (ha : h.aborting = true) : exec (.hopGrant r) s = .next (deliver s (abortHop false h s)) := by
  simp only [exec, execHopGrant, hh, ha, if_true, done_eq]

variable (ha : h.aborting = false)
include ha

theorem hopGrant_of_squashed (hq : h.squashed = true) (hroom : s.canAnswer h = true) :
    exec (.hopGrant r) s = .next (deliver s (completeQueued h 3 0 0 s)) := by
  simp only [exec, execHopGrant, hh, ha, hq, hroom, if_true, Bool.false_eq_true, if_false, done_eq, cSQUASHED]

variable (hq : h.squashed = false)
include hq

theorem hopGrant_of_orphan (hs : h.spec = true) (hr : h.released = false) (ho : h.orphan = true) (hroom : s.canAnswer h = true) :
    exec (.hopGrant r) s = .next (deliver s (completeQueued h 6 0 0 s)) := by
  simp only [exec, execHopGrant, hh, ha, hq, hs, hr, ho, hroom, Bool.not_false, Bool.and_true, if_true, Bool.false_eq_true, if_false, done_eq, cLINK_ERR]

/-- A slot is granted, and what follows at once is by the operation (R164, R195, R207). -/
theorem hopGrant_of_grantable (hs : ¬(h.spec = true ∧ h.released = false ∧ h.orphan = true)) (hg : s.grantable h = true) (ho : s.outranked h = false)
    {g : Hop} (hf : (grantSlot h s).hop? h.id = some g) :
    exec (.hopGrant r) s =
      if g.op = 6 then .next (deliver s (afterFetch g (grantSlot h s)))
      else if 8 ≤ g.op then .next (deliver s (settleAll (maintGranted g (grantSlot h s)))) else .next (deliver s (grantSlot h s)) := by
  have hlive : (h.spec && !h.released && h.orphan) = false := by
    simpa [Bool.and_eq_true, Bool.not_eq_true', and_assoc] using hs
  simp only [exec, execHopGrant, hh, ha, hq, hlive, hg, ho, hf, Bool.not_false, Bool.and_true, if_true, Bool.false_eq_true, if_false, done_eq, settled_eq]

end

/-- Settles O23: each answer by the hop that holds the tag, then the fetch's end and the scheduler's turn to the hop that was marked. -/
theorem commitAndSquash : Obligations.CommitAndSquash := by
  unfold Obligations.CommitAndSquash
  intro s c p h haddr hcheck habort ans gone tag
  have hans : ∀ code d, Host.Outcome.next (deliver s (acted p s (answerOr p code d s))) = ans code d := by
    intro code d
    simp only [ans, acted]
    cases answerOr p code d s <;> rfl
  refine ⟨fun ho => ?_, fun g hr => afterFetch_of_released hr s, fun g hq hr => afterFetch_of_squashed hq hr s, fun ho => ?_,
    fun r g hg ha hq hroom => hopGrant_of_squashed hg ha hq (canAnswer_iff.2 hroom)⟩
  · rw [exec_hopCommit h haddr hcheck habort ho]
    refine ⟨fun ht => ?_, fun g ht => ⟨fun hq => ?_, fun hq hr => ?_, fun hq hr => ?_⟩⟩
    · rw [actCommit_of_no_tag ht, hans]
    · rw [actCommit_of_squashed ht hq, hans]
    · rw [actCommit_of_released ht hq hr]
      rfl
    · rw [actCommit_of_unreleased ht hq hr]
      exact ⟨fun hst => done_congr (congrArg (forward p) (if_pos hst)), fun hst => done_congr (congrArg (forward p) (if_neg hst))⟩
  · rw [exec_hopSquash h haddr hcheck habort ho]
    refine ⟨fun ht => ?_, fun g ht => ⟨fun hq => ?_, fun hq hr => ?_, fun hq hr hst => ?_, fun hq hr hst => ?_⟩⟩
    · rw [actSquash_of_no_tag ht, hans]
    · rw [actSquash_of_squashed ht hq]
      rfl
    · rw [actSquash_of_released ht hq hr, hans]
    · rw [actSquash_of_unreleased ht hq hr, if_pos hst]
      rfl
    · rw [actSquash_of_unreleased ht hq hr, if_neg hst]
      rfl

/-! ## The frame that brings a command -/

/-- The checks of R144 do not look at the frame, and that of R267 comes after them. -/
theorem parseCheck_eq_or (s : State) (p : Parsed) :
    s.parseCheck p = (s.parseCheck { p with urgent := false }).or (if wrongFrame p then some (cBAD_CMD, 6) else none) := by
  have hcmd : s.badCmd { p with urgent := false } = s.badCmd p := rfl
  have hsource : s.authorised { p with urgent := false } = s.authorised p := rfl
  have htarget : s.badTarget { p with urgent := false } = s.badTarget p := rfl
  have hframe : wrongFrame { p with urgent := false } = false := rfl
  have hbasket : Parsed.basket { p with urgent := false } = p.basket := rfl
  simp only [State.parseCheck, hcmd, hsource, htarget, hframe, hbasket, Bool.false_eq_true, if_false]
  cases s.badCmd p with
  | some d => rfl
  | none =>
    cases s.authorised p with
    | false => rfl
    | true =>
      cases s.badTarget p with
      | some d => rfl
      | none =>
        simp only [Bool.not_true, Bool.false_eq_true, if_false]
        split <;> rfl

theorem wrongFrame_of_urgent {p : Parsed} (hu : p.urgent = true) (hc : cmdClass p.w0 ≠ 0) (h2 : cmdOp p.w0 ≠ 2) (h3 : cmdOp p.w0 ≠ 3) :
    wrongFrame p = true := by
  simp [wrongFrame, Parsed.op, hu, hc, h2, h3]

theorem wrongFrame_of_admitted {p : Parsed} (h : cmdClass p.w0 = 0 ∨ cmdOp p.w0 = 2 ∨ cmdOp p.w0 = 3) : wrongFrame p = false := by
  rcases h with h | h | h <;> simp [wrongFrame, Parsed.op, h]

/-- Settles O24: the check of the frame comes after those of R144 by `parseCheck_eq_or`, and a failed check is answered as O22 says. -/
theorem urgentFrames : Obligations.UrgentFrames := by
  unfold Obligations.UrgentFrames
  constructor
  · intro s c p l h haddr hsrc hu hc i o hi ho
    obtain ⟨h2, h3⟩ := op_of_mem_hopCommands hi
    obtain ⟨-, -, hchecked, -⟩ := commandsActedOnAtParse s c p h
    obtain ⟨-, hfailed, -⟩ := hchecked i o (mem_checkedCommands_of_mem_hopCommands hi) ho
    have hframe : wrongFrame p = true := wrongFrame_of_urgent hu hc (ho ▸ h2) (ho ▸ h3)
    refine ⟨fun hpass => hfailed haddr 0x10 6 ?_, fun code d hfail => hfailed haddr code d ?_⟩
    · rw [parseCheck_eq_or, hpass, hframe]
      rfl
    · rw [parseCheck_eq_or, hfail, Option.some_or]
  · intro s p hadmitted
    rw [parseCheck_eq_or, wrongFrame_of_admitted hadmitted]
    simp only [Bool.false_eq_true, if_false, Option.or_none]

end Sys2Proof.Machine

/-! How a hop's record is fetched, and how a hop arms. -/

namespace Sys2Proof.Machine

/-! ## The end of a fetch -/

/-- The first word of the hop's record that reads with an ECC error beyond correction (R139, R412). -/
def State.badRecordWord (s : State) (h : Hop) : Option Nat := (List.range 8).find? fun j => s.badEcc (profAddr (s.absProf h) + 4 * j)

/-- The first check of R139 that the record of hop `h` fails. -/
def State.fetchFault (s : State) (h : Hop) : Option Nat :=
  recordFault h.op (cmdProfile h.w1) (s.get (BSK_PROF_QUOTA_QUOTA h.basket)) (s.badRecordWord h).isSome (s.record (s.absProf h))

/-- R166 refuses the ramp of the hop's record at fetch; a retune has none. -/
def State.fetchRefused (s : State) (h : Hop) : Bool :=
  h.op != 4 && rampRefused h.op (settingOf (s.record (s.absProf h)) (s.absProf h))

/-- The ECC error that failed check `d` of the hop's record tells of is reported (R363). -/
def reportRecord (h : Hop) (d : Nat) (s : State) : State :=
  match d, s.badRecordWord h with
  | 2, some j => raiseEcc (profAddr (s.absProf h) + 4 * j) (some h.basket) s
  | _, _ => s

/-- What a fetch leaves when it is done, for a hop that no SQUASH has withdrawn. -/
def fetchEnded (h : Hop) (s : State) : State :=
  match s.fetchFault h with
  | some d => completeHop h 0x13 d 0 (reportRecord h d s)
  | none => if s.fetchRefused h then completeHop h 0x14 0 0 s else afterFetch { h with record := s.record (s.absProf h) } s

theorem reportRecord_of_ne {d : Nat} (hd : d ≠ 2) (h : Hop) (s : State) : reportRecord h d s = s := by
  unfold reportRecord
  split
  · exact absurd rfl hd
  · rfl

theorem reportRecord_of_ecc {s : State} {h : Hop} {j : Nat} (hj : s.badRecordWord h = some j) :
    reportRecord h 2 s = raiseEcc (profAddr (s.absProf h) + 4 * j) (some h.basket) s := by
  simp only [reportRecord, hj]

section
variable {s : State} {h : Hop}

theorem fetchEnded_of_fault {d : Nat} (hd : s.fetchFault h = some d) : fetchEnded h s = completeHop h 0x13 d 0 (reportRecord h d s) := by
  simp only [fetchEnded, hd]

theorem fetchEnded_of_good (hd : s.fetchFault h = none) : fetchEnded h s =
    if s.fetchRefused h then completeHop h 0x14 0 0 s else afterFetch { h with record := s.record (s.absProf h) } s := by
  simp only [fetchEnded, hd]

variable {i : Nat} (hi : s.hop? i = some h) (hst : h.st = .fetching) (hacc : (s.accessing (s.bankOf h)).map (·.id) = some i)
include hi hst hacc

theorem profileFetchDone_of_squashed (hq : h.squashed = true) (hr : h.released = false) :
    exec (.profileFetchDone i) s = .next (deliver s (completeHop h 3 0 0 s)) := by
  simp only [exec, execProfileFetchDone, hi, hacc, hst, hq, hr, ne_eq, not_true_eq_false, Bool.not_false, and_self, if_true, if_false, done_eq,
    cSQUASHED]

/-- Of a hop that no SQUASH has withdrawn, the record is checked (R139, R147, R166). -/
theorem profileFetchDone_of_live (hlive : h.squashed = false ∨ h.released = true) :
    exec (.profileFetchDone i) s = .next (deliver s (fetchEnded h s)) := by
  have hkeep : ¬(h.st = .fetching ∧ h.squashed = true ∧ (!h.released) = true) := by
    rcases hlive with hq | hr
    · simp [hq]
    · simp [hr]
  simp only [exec, execProfileFetchDone, hi, hacc, ne_eq, not_true_eq_false, if_false, if_neg hkeep, if_pos hst, done_eq]
  cases hf : s.fetchFault h with
  | some d =>
    rw [fetchEnded_of_fault hf]
    unfold State.fetchFault State.badRecordWord at hf
    simp only [hf]
    rfl
  | none =>
    rw [fetchEnded_of_good hf]
    unfold State.fetchFault State.badRecordWord at hf
    simp only [hf, State.fetchRefused, Bool.and_eq_true, bne_iff_ne, cBAD_RAMP]
    split <;> rfl

end

/-! ## Arming -/

/-- Hop `h` as it stands when it has armed: with the next place in the order of arming (R146, R150). -/
def armedAs (h : Hop) (s : State) : Hop := { h with st := .armed, armSeq := s.armCtr }

/-- The state in which the armed hop settles. -/
def armPlaced (h : Hop) (s : State) : State := ({ s with armCtr := s.armCtr + 1 } : State).modHop h.id fun _ => armedAs h s

theorem armHop_eq (h : Hop) (s : State) : armHop h s = settleArmed (armedAs h s) (armPlaced h s) := rfl

section
variable {s : State} {h : Hop}

theorem settleArmed_of_blocked {d : Nat} (hb : s.blocked h = some d) :
    settleArmed h s = s.modHop h.id fun x => { x with st := .held, heldAt := s.elapsed } := by
  simp only [settleArmed, hb]

variable (hb : s.blocked h = none)
include hb

theorem settleArmed_of_untimed (ht : h.timed = false) : settleArmed h s = becomeDue h s := by
  simp only [settleArmed, hb, ht, Bool.not_false, if_true]

theorem settleArmed_of_past (ht : h.timed = true) (hf : h.fire < s.tally) : settleArmed h s = completeHop h 2 0 0 s := by
  simp only [settleArmed, hb, ht, hf, Bool.not_true, Bool.false_eq_true, if_false, if_true, cMISSED]

theorem settleArmed_of_ahead (ht : h.timed = true) (hf : s.tally ≤ h.fire) (hl : s.leadReached h.fire = false) :
    settleArmed h s = s.modHop h.id fun x => { x with st := .armed } := by
  simp only [settleArmed, hb, ht, Nat.not_lt.2 hf, hl, Bool.not_true, Bool.false_eq_true, if_false]

end

/-- Settles O25: the scheduler's turn to a ring's head, the end of a fetch by what its record fails, and the arming by what blocks the hop. -/
theorem hopGrantAndFetch : Obligations.HopGrantAndFetch := by
  unfold Obligations.HopGrantAndFetch
  intro s
  refine ⟨fun r h hh => ⟨hopGrant_of_aborting hh, hopGrant_of_squashed hh, hopGrant_of_orphan hh, fun ha hq hs hg ho g hf => ?_⟩,
    fun i h hi hst hacc => ?_, fun h hs hr hq => ?_, fun h hrel => ?_, fun h => ?_⟩
  · rw [hopGrant_of_grantable hh ha hq hs hg ho hf]
    exact ⟨fun hop => if_pos hop, fun hop => (if_neg (by omega)).trans (if_pos hop), fun hop => (if_neg (by omega)).trans (if_neg (by omega))⟩
  · intro a r bad check
    have hbad : s.badRecordWord h = bad := rfl
    have hcheck : s.fetchFault h = check := rfl
    have hrefused : s.fetchRefused h = (h.op != 4 && rampRefused h.op (settingOf r a)) := rfl
    refine ⟨profileFetchDone_of_squashed hi hst hacc, fun hlive => ?_⟩
    rw [profileFetchDone_of_live hi hst hacc hlive]
    refine ⟨fun d hd hne => ?_, fun j hd hj => ?_, fun hd hop hramp => ?_, fun hd hgood => ?_⟩
    · rw [fetchEnded_of_fault (hcheck.trans hd), reportRecord_of_ne hne]
    · rw [fetchEnded_of_fault (hcheck.trans hd), reportRecord_of_ecc (hbad.trans hj)]
    · rw [fetchEnded_of_good (hcheck.trans hd), hrefused, if_pos (by simp [hop, hramp])]
    · rw [fetchEnded_of_good (hcheck.trans hd), hrefused, if_neg (by rcases hgood with hop | hramp <;> simp [*])]
  · rw [afterFetch_of_unreleased hs hr hq]
    exact ⟨fun ho => if_pos ho, fun ho => if_neg (ho ▸ Bool.false_ne_true)⟩
  · rcases hrel with hr | ⟨hs, hq⟩
    · exact afterFetch_of_released hr s
    · exact afterFetch_of_not_speculative hs hq s
  · rw [armHop_eq]
    exact ⟨fun d => settleArmed_of_blocked, settleArmed_of_untimed, settleArmed_of_past, settleArmed_of_ahead⟩

end Sys2Proof.Machine

/-! How causes park and release a spoke. -/

namespace Sys2Proof.Machine

/-! ## A cause is set -/

/-- A counter that stays at its highest value takes the smaller of that value and one more. -/
theorem incSat_eq_put_min (s : State) (f : Fld) : s.incSat f = s.put f (min (s.get f + 1) (2 ^ f.w - 1)) := by
  have hsat : (if s.get f + 1 < 2 ^ f.w then s.get f + 1 else 2 ^ f.w - 1) = min (s.get f + 1) (2 ^ f.w - 1) := by
    split <;> omega
  rw [State.incSat, hsat]

/-- PARKED and RELEASING count as PARKED, RUNNING and STOPPED do not (R176). -/
theorem spokeParked_iff (s : State) (n : Nat) : s.spokeParked n = true ↔ s.get (SPK_STATUS_STATE n) = 0 ∨ s.get (SPK_STATUS_STATE n) = 3 := by
  simp only [State.spokeParked, Bool.or_eq_true, beq_iff_eq]

section
variable {s : State} {n : Nat} {c : Nat → Fld}

theorem parkSpoke_of_parked (h : s.get (SPK_STATUS_STATE n) = 0 ∨ s.get (SPK_STATUS_STATE n) = 3) :
    parkSpoke c n s = (s.put (c n) 1).put (SPK_STATUS_STATE n) 0 := if_pos ((spokeParked_iff s n).2 h)

theorem parkSpoke_of_not_parked (h : s.get (SPK_STATUS_STATE n) = 1 ∨ s.get (SPK_STATUS_STATE n) = 2) :
    parkSpoke c n s =
      let t := (s.put (c n) 1).put (SPK_STATUS_STATE n) 0
      (t.put (SPK_STATUS_PARKS n) (min (t.get (SPK_STATUS_PARKS n) + 1) 255)).put (mapBit SPK_PARK_EVT n) 1 := by
  have hnot : ¬s.spokeParked n = true := by
    rw [spokeParked_iff]
    omega
  rw [parkSpoke, if_neg hnot, incSat_eq_put_min]
  rfl

/-! ## A cause clears -/

theorem unparkSpoke_of_not_held (h : s.flag (c n) = false) : unparkSpoke c n s = s := if_neg (h ▸ Bool.false_ne_true)

theorem unparkSpoke_of_others_held (h : s.flag (c n) = true) (ho : (s.put (c n) 0).spokeCauses n ≠ 0) :
    unparkSpoke c n s = s.put (c n) 0 := (if_pos h).trans (if_neg ho)

theorem unparkSpoke_of_last (h : s.flag (c n) = true) (hlast : (s.put (c n) 0).spokeCauses n = 0) :
    unparkSpoke c n s = releaseSpoke n (s.put (c n) 0) := (if_pos h).trans (if_pos hlast)

/-! ## The release of a spoke -/

theorem releaseSpoke_of_runs (h : s.spokeRuns n = true) : releaseSpoke n s = s.put (SPK_STATUS_STATE n) 3 := if_pos h

/-- Where the strand does not run, the write that waits comes first, and the spoke is released by what it leaves (R177, R178). -/
theorem releaseSpoke_of_not_runs (h : s.spokeRuns n = false) :
    releaseSpoke n s =
      let u := spokePending n s
      if u.flag (SPK_CFG_STOP_LEVEL n) = true then u.put (SPK_STATUS_C_STOP n) 1
      else if u.flag (SPK_STATUS_C_FW n) = true then u
      else (u.put (SPK_STATUS_STATE n) 2).put (mapBit SPK_REL_EVT n) 1 := if_neg (h ▸ Bool.false_ne_true)

variable (h : s.spokeRuns n = false) {u : State} (hu : spokePending n s = u)
include h hu

theorem releaseSpoke_to_stop_level (hl : u.flag (SPK_CFG_STOP_LEVEL n) = true) : releaseSpoke n s = u.put (SPK_STATUS_C_STOP n) 1 := by
  subst hu
  exact (releaseSpoke_of_not_runs h).trans (if_pos hl)

theorem releaseSpoke_of_fw (hl : u.flag (SPK_CFG_STOP_LEVEL n) = false) (hf : u.flag (SPK_STATUS_C_FW n) = true) : releaseSpoke n s = u := by
  subst hu
  exact (releaseSpoke_of_not_runs h).trans ((if_neg (hl ▸ Bool.false_ne_true)).trans (if_pos hf))

theorem releaseSpoke_to_stopped (hl : u.flag (SPK_CFG_STOP_LEVEL n) = false) (hf : u.flag (SPK_STATUS_C_FW n) = false) :
    releaseSpoke n s = (u.put (SPK_STATUS_STATE n) 2).put (mapBit SPK_REL_EVT n) 1 := by
  subst hu
  exact (releaseSpoke_of_not_runs h).trans ((if_neg (hl ▸ Bool.false_ne_true)).trans (if_neg (hf ▸ Bool.false_ne_true)))

end

/-- Settles O31: a cause that is set by whether the spoke counts as PARKED already, and one that clears by whether it was the last. -/
theorem spokeParking : Obligations.SpokeParking := by
  unfold Obligations.SpokeParking
  refine ⟨fun s n c => ⟨parkSpoke_of_parked, parkSpoke_of_not_parked⟩, fun s n c => unparkSpoke_of_not_held, fun s n c h => ?_,
    fun s c n l => ⟨rfl, rfl⟩⟩
  intro t
  refine ⟨unparkSpoke_of_others_held h, fun hlast hruns => (unparkSpoke_of_last h hlast).trans (releaseSpoke_of_runs hruns), fun hlast hruns => ?_⟩
  rw [unparkSpoke_of_last h hlast]
  exact ⟨releaseSpoke_to_stop_level hruns rfl, releaseSpoke_of_fw hruns rfl, releaseSpoke_to_stopped hruns rfl⟩

end Sys2Proof.Machine

/-! The commands that configure, force and release a spoke. -/

namespace Sys2Proof.Machine

/-! ## SPK_CFG -/

/-- What is in force on a spoke is what SPK_CFG holds, a PATH of PARKED with its C_FW (R171, R174). -/
theorem spokeCurrent_iff (s : State) (n : Nat) :
    s.spokeCurrent n = true ↔ (s.spoke n).path = s.get (SPK_CFG_PATH n) ∧ (s.spoke n).swing = s.get (SPK_CFG_SWING n) ∧
      (s.get (SPK_CFG_PATH n) = 0 → s.flag (SPK_STATUS_C_FW n) = true) := by
  simp only [State.spokeCurrent, Bool.and_eq_true, beq_iff_eq, Bool.or_eq_true, bne_iff_ne, ne_eq, and_assoc, Decidable.imp_iff_not_or]

/-- Word `v` stored in SPK_CFG(n) by master `m`, where a PATH other than PARKED clears C_FW (R171, R174). -/
def spkCfgStored (m n : Nat) (v : Word) (s : State) : State :=
  let t := storeRw m (SPK_CFG n) v s
  if t.get (SPK_CFG_PATH n) ≠ 0 then unparkSpoke SPK_STATUS_C_FW n t else t

section
variable {s : State} {m n : Nat} (hn : n < 256) (h : s.opens m (SPK_CFG n) false) {v : Word}
include hn h

theorem spkCfgWrite_of_bad (hbad : v.toNat / 512 % 4 = 3 ∨ v.toNat / 4096 % 16 = 15) :
    exec (.spkCfgWrite m n v) s = .next (deliver s (s.put SPK_EVENT_VAL_REJ 1)) :=
  (if_pos hn).trans (done_congr ((gateWrite_of_opens h _).trans (if_pos hbad)))

variable (hpath : v.toNat / 512 % 4 ≠ 3) (hswing : v.toNat / 4096 % 16 ≠ 15) {u : State} (hu : spkCfgStored m n v s = u)
include hpath hswing hu

/-- A good word is stored, then waits where the strand runs and is in force where it does not. -/
theorem spkCfgWrite_of_good :
    exec (.spkCfgWrite m n v) s = .next (deliver s (
      if u.spokeRuns n = true then u.putFlag (SPK_STATUS_PEND n) (!u.spokeCurrent n)
      else if u.flag (SPK_CFG_ROUTED n) = true then spokeLevel n (spokeApply n u) else spokeApply n u)) := by
  subst hu
  exact (if_pos hn).trans (done_congr ((gateWrite_of_opens h _).trans (if_neg (not_or.2 ⟨hpath, hswing⟩))))

theorem spkCfgWrite_of_runs (hruns : u.spokeRuns n = true) :
    exec (.spkCfgWrite m n v) s = .next (deliver s (u.put (SPK_STATUS_PEND n) (if !u.spokeCurrent n then 1 else 0))) :=
  (spkCfgWrite_of_good hn h hpath hswing hu).trans (done_congr (if_pos hruns))

theorem spkCfgWrite_of_not_runs (hruns : u.spokeRuns n = false) :
    exec (.spkCfgWrite m n v) s =
      .next (deliver s (if u.flag (SPK_CFG_ROUTED n) = true then spokeLevel n (spokeApply n u) else spokeApply n u)) :=
  (spkCfgWrite_of_good hn h hpath hswing hu).trans (done_congr (if_neg (hruns ▸ Bool.false_ne_true)))

end

/-! ## Low points -/

/-- The twelve causes are bits 4 to 15 of SPK_STATUS. -/
theorem bitsAt_causes_eq_masked (v : Word) : bitsAt v 4 12 = (v &&& 0xFFF0#32).toNat >>> 4 := by
  calc bitsAt v 4 12 = v.toNat >>> 4 % 2 ^ 12 := by rw [bitsAt, Nat.shiftRight_eq_div_pow]
    _ = v.toNat >>> 4 &&& (2 ^ 12 - 1) := (Nat.and_two_pow_sub_one_eq_mod _ _).symm
    _ = (v &&& 0xFFF0#32).toNat >>> 4 := by
      rw [BitVec.toNat_and, Nat.shiftRight_and_distrib]
      rfl

theorem spokeForced_of_no_other_cause {s : State} {n : Nat} (h : (s.put (SPK_STATUS_C_FW n) 0).reg (SPK_STATUS n) &&& 0xFFF0#32 = 0#32) :
    s.spokeForced n = false := by
  have hnone : (s.put (SPK_STATUS_C_FW n) 0).spokeCauses n = 0 := by
    rw [State.spokeCauses, bitsAt_causes_eq_masked, h]
    rfl
  rw [State.spokeForced, lower_eq_put, hnone]
  rfl

theorem lowPointApply_of_pending {s : State} {n : Nat} (hn : n < 256) (hruns : s.spokeRuns n = true) (hpend : s.flag (SPK_STATUS_PEND n) = true)
    (hforced : s.spokeForced n = false) : exec (.lowPointApply n) s = .next (deliver s (spokeApply n s)) :=
  if_pos ⟨hn, hruns, hpend, by rw [hforced]; rfl⟩

/-! ## Force and release -/

/-- The spokes that a force names. -/
def forcedSpokes (n : Nat) (all : Bool) : List Nat := if all then allSpokes else [n]

section
variable {s : State} {m n : Nat} (hn : n < 256) (h : s.opens m SPK_FORCE true) (all : Bool)
include hn h

theorem spkForcePark_of_opens :
    exec (.spkForcePark m n all) s = .next (deliver s (parkSpokes SPK_STATUS_C_FORCE (forcedSpokes n all) s)) :=
  (if_pos hn).trans (done_congr (gateWrite_of_opens h _))

theorem spkForceRelease_of_opens :
    exec (.spkForceRelease m n all) s = .next (deliver s (unparkSpokes SPK_STATUS_C_FORCE (forcedSpokes n all) s)) :=
  (if_pos hn).trans (done_congr (gateWrite_of_opens h _))

end

/-- A spoke that a pending PATH of PARKED holds stays as the change leaves it; another runs (R176, R178). -/
theorem spokeRelease_of_releasing {s : State} {n : Nat} (hn : n < 256) (hst : s.get (SPK_STATUS_STATE n) = 3) {t : State} (ht : spokePending n s = t) :
    exec (.spokeRelease n) s = .next (deliver s (
      if t.get (SPK_STATUS_STATE n) = 3 then (t.put (SPK_STATUS_STATE n) 1).put (mapBit SPK_REL_EVT n) 1 else t)) := by
  subst ht
  exact (if_pos ⟨hn, hst⟩).trans (done_ite _ s _ _)

/-- Settles O32: SPK_CFG by its word and by whether the strand runs, the low point, the forces by the spokes they name, and the release. -/
theorem spokeCommands : Obligations.SpokeCommands := by
  unfold Obligations.SpokeCommands
  intro s n hn
  refine ⟨fun m v h => ⟨spkCfgWrite_of_bad hn h, fun hpath hswing => ?_⟩,
    fun hruns hpend hcauses => lowPointApply_of_pending hn hruns hpend (spokeForced_of_no_other_cause hcauses), rfl,
    fun m h => ⟨spkForcePark_of_opens hn h false, spkForcePark_of_opens hn h true, spkForceRelease_of_opens hn h false,
      spkForceRelease_of_opens hn h true⟩,
    fun hst => spokeRelease_of_releasing hn hst rfl⟩
  intro t u now
  have hu : spkCfgStored m n v s = u := rfl
  have hnow : u.spokeCurrent n = true ↔ now := spokeCurrent_iff u n
  refine ⟨fun hruns hcur => ?_, fun hruns hcur => ?_, spkCfgWrite_of_not_runs hn h hpath hswing hu⟩
  · rw [spkCfgWrite_of_runs hn h hpath hswing hu hruns, hnow.2 hcur]
    rfl
  · rw [spkCfgWrite_of_runs hn h hpath hswing hu hruns, Bool.eq_false_of_not_eq_true (hnow.not.2 hcur)]
    rfl

end Sys2Proof.Machine

/-! How a reed's commands act, how its runs start and end, and what its ring's tail and its settings take. -/

namespace Sys2Proof.Machine

/-! ## Whom a reed's command reaches -/

theorem countForeign_eq (m : Nat) (s : State) :
    countForeign m s = (s.put (BSK_VIOL_FOREIGN m) (min (s.get (BSK_VIOL_FOREIGN m) + 1) 65535)).put (mapBit BSK_VIOL_EVT m) 1 := by
  rw [countForeign, countViol, incSat_eq_put_min]
  rfl

/-- The virtual function of basket b writes as master b + 1 (R326). -/
theorem not_reedOf_iff {s : State} {m n : Nat} (hm : 1 ≤ m) :
    (!(s.flag (REED_CFG_ASSIGNED n) && s.get (REED_CFG_BASKET n) == m - 1)) = true ↔
      s.flag (REED_CFG_ASSIGNED n) = false ∨ s.get (REED_CFG_BASKET n) + 1 ≠ m := by
  have hb : s.get (REED_CFG_BASKET n) = m - 1 ↔ s.get (REED_CFG_BASKET n) + 1 = m := by omega
  rw [Bool.not_and, Bool.or_eq_true, Bool.not_eq_true', Bool.not_eq_true', beq_eq_false_iff_ne, ne_eq, hb]

section
variable {s : State} {m n : Nat} (h : s.opens m REED_CMD false) (k : State → State)
include h

theorem reedCmd_of_opens :
    reedCmd m n k s =
      if 1 ≤ m ∧ m ≤ 64 ∧ (!(s.flag (REED_CFG_ASSIGNED n) && s.get (REED_CFG_BASKET n) == m - 1)) = true then countForeign m s
      else if s.flag (REED_CFG_ASSIGNED n) = true then k s else s.put REED_EVENT_CMD_REJ 1 := by
  rw [reedCmd, reedWrite, gateWrite_of_opens h]
  rfl

theorem reedCmd_of_foreign (h1 : 1 ≤ m) (h64 : m ≤ 64) (hb : s.flag (REED_CFG_ASSIGNED n) = false ∨ s.get (REED_CFG_BASKET n) + 1 ≠ m) :
    reedCmd m n k s = countForeign m s := (reedCmd_of_opens h k).trans (if_pos ⟨h1, h64, (not_reedOf_iff h1).2 hb⟩)

theorem reedCmd_of_unassigned (hm : m = 0 ∨ 64 < m) (ha : s.flag (REED_CFG_ASSIGNED n) = false) :
    reedCmd m n k s = s.put REED_EVENT_CMD_REJ 1 :=
  (reedCmd_of_opens h k).trans ((if_neg (by omega)).trans (if_neg (ha ▸ Bool.false_ne_true)))

theorem reedCmd_of_own (ha : s.flag (REED_CFG_ASSIGNED n) = true) (hm : m = 0 ∨ 64 < m ∨ s.get (REED_CFG_BASKET n) + 1 = m) :
    reedCmd m n k s = k s := by
  have hown : ¬(1 ≤ m ∧ m ≤ 64 ∧ (!(s.flag (REED_CFG_ASSIGNED n) && s.get (REED_CFG_BASKET n) == m - 1)) = true) := by
    rintro ⟨h1, h64, hb⟩
    rw [not_reedOf_iff h1, ha] at hb
    simp only [Bool.true_eq_false, false_or] at hb
    omega
  exact (reedCmd_of_opens h k).trans ((if_neg hown).trans (if_pos ha))

end

/-! ## The reed's commands -/

section
variable {s : State} {m n : Nat} (hn : n < 256)
include hn

theorem reedRun_eq : exec (.reedRun m n) s = .next (deliver s (reedCmd m n (reedRequest n) s)) := if_pos hn

theorem reedStop_eq (d : ReedData) :
    exec (.reedStop m n d) s = .next (deliver s (reedCmd m n (fun s =>
      if s.get (REED_STATUS_STATE n) = 2 then reedFinish n true false false d s else s.put (REED_STATUS_STATE n) 0) s)) := if_pos hn

theorem histClear_eq :
    exec (.histClear m n) s = .next (deliver s (reedCmd m n (fun s =>
      if s.get (REED_STATUS_STATE n) = 0 then clearHist n s else s.put REED_EVENT_CMD_REJ 1) s)) := if_pos hn

/-- Each of the three commands has one effect on a reed that it reaches. -/
theorem exec_of_mem_reedCommands {d : ReedData} {c : Instr} (hc : c ∈ [Instr.reedRun m n, .reedStop m n d, .histClear m n]) :
    ∃ k, exec c s = .next (deliver s (reedCmd m n k s)) := by
  simp only [List.mem_cons, List.not_mem_nil, or_false] at hc
  rcases hc with rfl | rfl | rfl
  · exact ⟨_, reedRun_eq hn⟩
  · exact ⟨_, reedStop_eq hn d⟩
  · exact ⟨_, histClear_eq hn⟩

variable (h : s.opens m REED_CMD false)
include h

section
variable (ha : s.flag (REED_CFG_ASSIGNED n) = true) (hm : m = 0 ∨ 64 < m ∨ s.get (REED_CFG_BASKET n) + 1 = m)
include ha hm

theorem reedRun_of_own : exec (.reedRun m n) s = .next (deliver s (reedRequest n s)) :=
  (reedRun_eq hn).trans (done_congr (reedCmd_of_own h _ ha hm))

theorem reedStop_of_own (d : ReedData) :
    exec (.reedStop m n d) s = .next (deliver s (
      if s.get (REED_STATUS_STATE n) = 2 then reedFinish n true false false d s else s.put (REED_STATUS_STATE n) 0)) :=
  (reedStop_eq hn d).trans (done_congr (reedCmd_of_own h _ ha hm))

theorem histClear_of_own :
    exec (.histClear m n) s = .next (deliver s (
      if s.get (REED_STATUS_STATE n) = 0 then clearHist n s else s.put REED_EVENT_CMD_REJ 1)) :=
  (histClear_eq hn).trans (done_congr (reedCmd_of_own h _ ha hm))

end

variable {d : ReedData} {c : Instr} (hc : c ∈ [Instr.reedRun m n, .reedStop m n d, .histClear m n])
include hc

theorem reedCommand_of_unassigned (ha : s.flag (REED_CFG_ASSIGNED n) = false) (hm : m = 0 ∨ 64 < m) :
    exec c s = .next (deliver s (s.put REED_EVENT_CMD_REJ 1)) := by
  obtain ⟨k, hk⟩ := exec_of_mem_reedCommands (s := s) hn hc
  exact hk.trans (done_congr (reedCmd_of_unassigned h k hm ha))

theorem reedCommand_of_foreign (h1 : 1 ≤ m) (h64 : m ≤ 64) (hb : s.flag (REED_CFG_ASSIGNED n) = false ∨ s.get (REED_CFG_BASKET n) + 1 ≠ m) :
    exec c s = .next (deliver s ((s.put (BSK_VIOL_FOREIGN m) (min (s.get (BSK_VIOL_FOREIGN m) + 1) 65535)).put (mapBit BSK_VIOL_EVT m) 1)) := by
  obtain ⟨k, hk⟩ := exec_of_mem_reedCommands (s := s) hn hc
  exact hk.trans (done_congr ((reedCmd_of_foreign h k h1 h64 hb).trans (countForeign_eq m s)))

end

/-! ## The start of a run -/

/-- What the cut of a run in progress has seen is a free value (log entry 24). -/
theorem reedCut_eq_ite (n : Nat) (s : State) :
    reedCut n s = if s.get (REED_STATUS_STATE n) = 2 then reedFinish n true false false s.freeReed.1 s.freeReed.2
      else s.put (REED_STATUS_STATE n) 0 := rfl

section
variable {s : State} {n : Nat}

theorem reedRequest_eq :
    reedRequest n s =
      let t := reedCut n s
      reedTryStart n ((t.setReedRun n
        { cfg := t.reg (REED_CFG n), gate := t.get (REED_GATE_GATE n), winLo := t.reg (REED_WIN n), histLo := t.reg (REED_HIST_LO n),
          runMax := t.get (REED_RUN_MAX_RUN_MAX n) }).put (REED_STATUS_STATE n) 1) := rfl

theorem reedTryStart_of_free (hst : s.get (REED_STATUS_STATE n) = 1) (hu : s.reedUsed n < 512) :
    reedTryStart n s =
      let r := s.reedRun n
      let t := s.put (REED_STATUS_STATE n) 2
      (if r.cfg.toNat / 64 % 2 = 1 then clearHist n t else t).setReedRun n { r with conds := [s.refCond n r.cfg], refHop := false } :=
  if_pos ⟨hst, hu⟩

theorem reedTryStart_of_full (hu : 512 ≤ s.reedUsed n) : reedTryStart n s = s := if_neg fun h => Nat.not_lt.2 hu h.2

theorem reedRunStart_eq (hn : n < 256) : exec (.reedRunStart n) s = .next (deliver s (reedTryStart n s)) := if_pos hn

end

/-! ## The end of a run -/

/-- ARRIVAL and STATS take 2^COUNT_EXP samples, EVENT and PERIOD one, and OFF none (R190). -/
theorem reedLimit_eq_match (c : Word) :
    reedLimit c = match c.toNat % 8 with
      | 1 => 2 ^ (c.toNat / 2 ^ 16 % 32) | 2 => 1 | 3 => 1 | 4 => 2 ^ (c.toNat / 2 ^ 16 % 32) | _ => 0 := by
  have hmode : bitsAt c 0 3 = c.toNat % 8 := bitsAt_zero c 3
  have hexp : bitsAt c 16 5 = c.toNat / 2 ^ 16 % 32 := rfl
  rw [reedLimit, hmode, hexp]
  generalize c.toNat % 8 = mode
  match mode with
  | 0 | 1 | 2 | 3 | 4 => rfl
  | mode + 5 => exact (if_neg (by omega)).trans (if_neg (by omega))

section
variable {s : State} {n : Nat} (hn : n < 256) (hst : s.get (REED_STATUS_STATE n) = 2) (d : ReedData)
include hn hst

theorem reedRunComplete_of_taken (hd : reedLimit (s.reedRun n).cfg ≤ (s.samples n (s.reedRun n) d).length) :
    exec (.reedRunComplete n d) s = .next (deliver s (reedFinish n false false false d s)) := if_pos ⟨hn, hst, decide_eq_true hd⟩

theorem reedRunMaxExpire_of_running : exec (.reedRunMaxExpire n d) s = .next (deliver s (reedFinish n false true false d s)) := if_pos ⟨hn, hst⟩

end

/-- The runs that a strand's stop ends are those in progress when it stops, each with a free value of its own (R191, log entry 24). -/
theorem reedsStopped_eq_foldl (k : Nat) (s : State) :
    reedsStopped k s = ((s.reeds.filter fun c => reedRef c.1 c.2.cfg == k && s.get (REED_STATUS_STATE c.1) == 2).map (·.1)).foldl
      (fun u j => reedFinish j true false true u.freeReed.1 u.freeReed.2) s := rfl

/-- The last writes of a run's end, with HEAD `h` and SEQ `q` as the run found them (R197, R198). -/
def reedEnded (n h q : Nat) (s : State) : State :=
  (reedFull n (((s.put (REED_RES_HEAD_HEAD n) (h + 1)).put (REED_STATUS_SEQ n) (q + 1)).put (REED_STATUS_STATE n) 0)).put (mapBit REED_DONE_EVT n) 1

/-- The samples and the record go to the measure store first. -/
theorem reedFinish_eq_reedEnded (n : Nat) (cut timeout nr : Bool) (d : ReedData) (s : State) :
    ∃ t, reedFinish n cut timeout nr d s = reedEnded n (s.get (REED_RES_HEAD_HEAD n)) (s.get (REED_STATUS_SEQ n)) t := ⟨_, rfl⟩

theorem reedDoneBit_w (n : Nat) : (mapBit REED_DONE_EVT n).lo + (mapBit REED_DONE_EVT n).w ≤ 32 := Nat.mod_lt n (by decide)

section
variable {n : Nat} (s : State)

/-- FULL shares no bit with a field of another register, or with STATE and SEQ. -/
theorem get_reedFull {f : Fld} (hf : fieldsApart (REED_STATUS_FULL n) f = true) : (reedFull n s).get f = s.get f :=
  get_put_apart _ _ _ _ hf

variable (hn : n < 256) (h q : Nat)
include hn

/-- REED_DONE_EVT lies below the registers of the single reeds. -/
theorem get_reedEnded {f : Fld} (hreg : REED_STATUS n ≤ f.reg) (hf : fieldsApart (REED_STATUS_FULL n) f = true) :
    (reedEnded n h q s).get f =
      (((s.put (REED_RES_HEAD_HEAD n) (h + 1)).put (REED_STATUS_SEQ n) (q + 1)).put (REED_STATUS_STATE n) 0).get f := by
  have hmap : f.reg ≠ (mapBit REED_DONE_EVT n).reg := by
    simp only [REED_STATUS, mapBit, REED_DONE_EVT] at hreg ⊢
    omega
  rw [reedEnded, get_put_ne _ _ _ _ hmap, get_reedFull _ hf]

theorem get_reedEnded_head : (reedEnded n h q s).get (REED_RES_HEAD_HEAD n) = (h + 1) % 1024 := by
  have habove : REED_STATUS n < (REED_RES_HEAD_HEAD n).reg := by simp [REED_RES_HEAD_HEAD, REED_RES_HEAD, REED_STATUS]
  have hreg : (REED_RES_HEAD_HEAD n).reg ≠ REED_STATUS n := habove.ne'
  have hfull : fieldsApart (REED_STATUS_FULL n) (REED_RES_HEAD_HEAD n) = true := by
    simp only [fieldsApart, REED_STATUS_FULL, ne_eq, hreg.symm, not_false_eq_true, decide_true, Bool.true_or]
  rw [get_reedEnded s hn h q habove.le hfull, get_put_ne _ _ _ _ hreg, get_put_ne _ _ _ _ hreg,
    get_put_self _ _ _ (Nat.le_of_ble_eq_true rfl)]
  rfl

theorem get_reedEnded_seq : (reedEnded n h q s).get (REED_STATUS_SEQ n) = (q + 1) % 65536 := by
  have hfull : fieldsApart (REED_STATUS_FULL n) (REED_STATUS_SEQ n) = true := by simp [fieldsApart, REED_STATUS_FULL, REED_STATUS_SEQ]
  have hstate : fieldsApart (REED_STATUS_STATE n) (REED_STATUS_SEQ n) = true := by simp [fieldsApart, REED_STATUS_STATE, REED_STATUS_SEQ]
  rw [get_reedEnded s hn h q le_rfl hfull, get_put_apart _ _ _ _ hstate, get_put_self _ _ _ (Nat.le_of_ble_eq_true rfl)]
  rfl

theorem get_reedEnded_state : (reedEnded n h q s).get (REED_STATUS_STATE n) = 0 := by
  have hfull : fieldsApart (REED_STATUS_FULL n) (REED_STATUS_STATE n) = true := by simp [fieldsApart, REED_STATUS_FULL, REED_STATUS_STATE]
  rw [get_reedEnded s hn h q le_rfl hfull, get_put_self _ _ _ (Nat.le_of_ble_eq_true rfl), Nat.zero_mod]

omit hn in
theorem get_reedEnded_done : (reedEnded n h q s).get (mapBit REED_DONE_EVT n) = 1 := get_put_self _ _ _ (reedDoneBit_w n)

end

/-! ## REED_RES_TAIL and REED_CFG -/

section
variable {s : State} {m n : Nat} (hn : n < 256) {v : Word}
include hn

theorem reedResTailWrite_eq (h : s.opens m (REED_RES_TAIL n) false) :
    exec (.reedResTailWrite m n v) s = .next (deliver s (
      if (v.toNat % 1024 + 1024 - s.get (REED_RES_TAIL_TAIL n)) % 1024 ≤ s.reedUsed n then reedFull n (storeRw m (REED_RES_TAIL n) v s)
      else s.put REED_EVENT_VAL_REJ 1)) :=
  (if_pos hn).trans (done_congr ((gateWrite_of_opens h _).trans (by rw [bitsAt_zero]; rfl)))

theorem reedCfgWrite_eq (h : s.opens m (REED_CFG n) false) :
    exec (.reedCfgWrite m n v) s = .next (deliver s (
      if 4 < v.toNat % 8 ∨ 16 < v.toNat / 65536 % 32 ∨ s.reedCfgOk n v = false then s.put REED_EVENT_VAL_REJ 1
      else storeRw m (REED_CFG n) v s)) := by
  refine (if_pos hn).trans (done_congr ((gateWrite_of_opens h _).trans ?_))
  simp only [bitsAt_zero, Bool.not_eq_true']
  rfl

end

/-- Settles O33: the commands by whom they reach, a run's start by its ring's room, and its end by the last writes that every end makes. -/
theorem reedRuns : Obligations.ReedRuns := by
  unfold Obligations.ReedRuns
  intro s n hn
  refine ⟨fun m h => ⟨fun ha hm => ⟨reedRun_of_own hn h ha hm, fun d hst => ?_, fun d hst => ?_, fun hst => ?_, fun hst => ?_⟩,
      fun d c hc => ⟨reedCommand_of_unassigned hn h hc, reedCommand_of_foreign hn h hc⟩⟩,
    by rw [reedRequest_eq, reedCut_eq_ite], fun hst hu => (reedRunStart_eq hn).trans (done_congr (reedTryStart_of_free hst hu)),
    fun hu => (reedRunStart_eq hn).trans (done_congr (reedTryStart_of_full hu)), fun d hst => ⟨fun hd => ?_, reedRunMaxExpire_of_running hn hst d⟩,
    fun k => reedsStopped_eq_foldl k s, fun cut timeout nr d => ?_, fun m v h => ?_, fun m v h => ?_⟩
  · exact (reedStop_of_own hn h ha hm d).trans (done_congr (if_pos hst))
  · exact (reedStop_of_own hn h ha hm d).trans (done_congr (if_neg hst))
  · exact (histClear_of_own hn h ha hm).trans (done_congr (if_pos hst))
  · exact (histClear_of_own hn h ha hm).trans (done_congr (if_neg hst))
  · exact reedRunComplete_of_taken hn hst d ((reedLimit_eq_match _).trans_le hd)
  · obtain ⟨t, ht⟩ := reedFinish_eq_reedEnded n cut timeout nr d s
    simp only [ht]
    exact ⟨get_reedEnded_head t hn _ _, get_reedEnded_seq t hn _ _, get_reedEnded_state t hn _ _, get_reedEnded_done t _ _⟩
  · rw [reedResTailWrite_eq hn h]
    refine ⟨fun hp => done_congr (if_neg (Nat.not_le.2 hp)), fun hp => done_congr ((if_pos (Nat.not_lt.1 hp)).trans ?_)⟩
    simp only [reedFull, putFlag_eq_put, beq_iff_eq]
  · rw [reedCfgWrite_eq hn h]
    exact ⟨fun hbad => done_congr (if_pos hbad), fun hgood => done_congr (if_neg hgood)⟩

end Sys2Proof.Machine

/-! The stages of a strand's calibration, from the check TDC to the handovers of roles. -/

namespace Sys2Proof.Machine

/-! ## The check TDC stage -/

/-- Every bin counts 1,024 to 16,384, a quarter to four times what each of even bins counts (R221). -/
def binsInRange (bins : List Nat) : Prop := ∀ n ∈ bins, 1024 ≤ n ∧ n ≤ 16384

theorem binsInRange_iff (bins : List Nat) : (bins.all fun n => decide (1024 ≤ n ∧ n ≤ 16384)) = true ↔ binsInRange bins := by
  simp only [List.all_eq_true, decide_eq_true_eq, binsInRange]

section
variable {s : State} {w : Nat} {r : CalRun} (hrun : (s.unit w).run = some r)
include hrun

section
variable {bins : List Nat} (hw : w < 64) (hst : r.stage = .tdc) (hp : s.unitPaused w = false) (hlen : bins.length = 1024) (hsum : bins.sum = 2 ^ 22)
include hw hst hp hlen hsum

theorem calTdcStageEnd_of_inRange (hgood : binsInRange bins) :
    exec (.calTdcStageEnd w bins) s =
      let t := eachDo bins.zipIdx (fun p u => u.mput ⟨recTdc w + 4 * (p.2 / 2), 16 * (p.2 % 2), 16⟩ (p.1 / 64)) s
      let d : TdcTable := { taken := some s.elapsed, word := s.waleWord w, tj := s.tj (w / 16), bins := bins }
      .next (deliver s (settleAll (beginSweeps w r { t with tdc := tabSet (fun _ => {}) t.tdc w d }))) := by
  simp only [exec, execCalTdcStageEnd, hrun, hst, hw, hp, hlen, hsum, and_self, if_true, (binsInRange_iff bins).2 hgood, settled_eq]

theorem calTdcStageEnd_of_outOfRange (hbad : ¬binsInRange bins) :
    exec (.calTdcStageEnd w bins) s = .next (deliver s (settleAll (unitDone w (calReject w r 0x01 s)))) := by
  have hall : (bins.all fun n => decide (1024 ≤ n ∧ n ≤ 16384)) = false := Bool.eq_false_of_not_eq_true ((binsInRange_iff bins).not.2 hbad)
  simp only [exec, execCalTdcStageEnd, hrun, hst, hw, hp, hlen, hsum, and_self, if_true, hall, Bool.false_eq_true, if_false, settled_eq]

end

/-! ## The sweep of a cell -/

theorem calCellSweepEnd_of_whole {k : Nat} {m : CellSweep} (hw : w < 64) (hst : r.stage = .sweep k) (hp : s.unitPaused w = false)
    (ha : m.passA.length = 128 * 256) (hb : m.passB.length = 128 * 256) (h2 : m.pass2.length = 4096 * 256) :
    exec (.calCellSweepEnd w m) s =
      let a := cellAt r.phys (s.sweptCell r k)
      let v := cellValue (s.waleWord w) (s.mget (cellGain a)) (signed 8 (s.mget (cellOffset a))) (sweepSums (s.tdcBins w) m)
      .next (deliver s (settleAll (cellSwept w r k v (lfsrRun w (4352 * 256) s)))) := by
  have hwhole : sweepWhole m = true := by
    rw [sweepWhole, ha, hb, h2]
    rfl
  have hsteps : m.passA.length + m.passB.length + m.pass2.length = 4352 * 256 := by rw [ha, hb, h2]
  simp only [exec, execCalCellSweepEnd, hrun, hst, hw, hwhole, hp, hsteps, and_self, if_true, settled_eq]

/-! ## The boundaries of a strand whose cells rotate -/

theorem calCellHandover_main (hst : r.stage = .handover 0) :
    exec (.calCellHandover w) s =
      let t := cellsChanged r.phys ((s.mput (roleMain r.phys) (s.mget (roleRelief r.phys))).mput (roleRelief r.phys) (s.mget (roleMain r.phys)))
      .next (deliver s (settleAll (setUnit w { (t.unit w) with run := some { r with stage := .sweep 1 } } t))) := by
  simp only [exec, execCalCellHandover, hrun, hst, settled_eq]

theorem calCellHandover_comp (hst : r.stage = .handover 1) :
    exec (.calCellHandover w) s =
      let t := cellsChanged r.phys ((s.mput (roleComp r.phys) (s.mget (roleRelief r.phys))).mput (roleRelief r.phys) (s.mget (roleComp r.phys)))
      .next (deliver s (settleAll (setUnit w { (t.unit w) with run := some { r with stage := .sweep 2 } } t))) := by
  simp only [exec, execCalCellHandover, hrun, hst, settled_eq]

theorem calCellHandover_last (hst : r.stage = .handover 2) :
    exec (.calCellHandover w) s = .next (deliver s (settleAll (endStrandRun w r (strandAccept w r s)))) := by
  simp only [exec, execCalCellHandover, hrun, hst, settled_eq]

theorem calCellHandover_clearing {ok : Bool} (hst : r.stage = .clearing ok) :
    exec (.calCellHandover w) s = .next (deliver s (settleAll (endStrandRun w r s))) := by
  simp only [exec, execCalCellHandover, hrun, hst, settled_eq]

end

/-! ## The values that a sweep has given -/

section
variable {s : State} {w k c : Nat} {r : CalRun} {v : CellValue} (hc : s.sweptCell r k = c)
include hc

theorem cellSwept_of_failed {x : Nat} (hx : s.cellCheck r.phys c (s.waleWord w) v = some x) :
    cellSwept w r k v s =
      let t := calReject w r x s
      if r.rotates then setUnit w { (t.unit w) with run := some { r with stage := .clearing false } } t
      else spliceCalDone w false (endStrandRun w r t) := by
  simp only [cellSwept, hc, hx]

theorem cellSwept_of_passed (hx : s.cellCheck r.phys c (s.waleWord w) v = none) :
    cellSwept w r k v s =
      let t := loadCell r.phys c (s.waleWord w) v s
      if r.rotates then setUnit w { (t.unit w) with run := some { r with stage := .handover k } } t
      else if k < 2 then setUnit w { (t.unit w) with run := some { r with stage := .sweep (k + 1) } } t
      else spliceCalDone w true (endStrandRun w r (strandAccept w r t)) := by
  simp only [cellSwept, hc, hx]

end

/-- A chain of checks passes where its first one does not apply and the others pass. -/
theorem ite_some_eq_none_iff {α : Type} {p : Prop} [Decidable p] {x : α} {o : Option α} :
    (if p then some x else o) = none ↔ ¬p ∧ o = none := by
  split <;> simp [*]

theorem cellCheck_eq_none_iff (s : State) (p c word : Nat) (v : CellValue) :
    s.cellCheck p c word v = none ↔
      (16 ≤ v.gain ∧ v.gain ≤ 1007 ∧ (s.mget (cellState (cellAt p c)) = 0 ∨ movedFive word (s.cellWord p c) = true ∨
        (v.gain - s.mget (cellGain (cellAt p c))).natAbs ≤ 100)) ∧
      (-120 ≤ v.offset ∧ v.offset ≤ 120) ∧ (∀ x ∈ v.eps, (x.natAbs : Int) ≤ 120 * 2 ^ 23) ∧ v.rmsOk = true ∧ v.peakOk = true := by
  simp only [State.cellCheck, ite_some_eq_none_iff, and_true, not_or, Int.not_lt, Bool.and_eq_true, bne_iff_ne, Bool.not_eq_true', decide_eq_true_eq,
    List.any_eq_true, not_exists, not_and, Decidable.imp_iff_not_or, not_not, Nat.not_lt, Bool.not_eq_false, ne_eq, and_assoc]

/-- Settles O34: the two outcomes of each stage, and the checks that new values pass. -/
theorem strandCalibration : Obligations.StrandCalibration := by
  unfold Obligations.StrandCalibration
  intro s w r hw hrun stay
  exact ⟨fun hst hp bins hlen hsum =>
      ⟨calTdcStageEnd_of_inRange hrun hw hst hp hlen hsum, calTdcStageEnd_of_outOfRange hrun hw hst hp hlen hsum⟩,
    fun k m hst hp => calCellSweepEnd_of_whole hrun hw hst hp,
    fun k v => ⟨fun x hx => cellSwept_of_failed rfl hx, fun hx => cellSwept_of_passed rfl hx⟩, cellCheck_eq_none_iff s,
    calCellHandover_main hrun, calCellHandover_comp hrun, calCellHandover_last hrun, fun ok => calCellHandover_clearing hrun⟩

end Sys2Proof.Machine

/-! The stages of a reed's calibration, code density and cross-measurement. -/

namespace Sys2Proof.Machine

/-! ## A reed's unit -/

/-- A reed unit's target runs at the rim word of the reed's reference strand (R216). -/
theorem calWord_of_reedUnit {q : Nat} (hq : q < 4) (s : State) (n : Nat) :
    s.calWord (64 + q) n = s.waleWord (waleOf (reedRef n (s.reg (REED_CFG n)))) := by
  have hstrand : ¬64 + q < 64 := by omega
  have hreed : 64 + q < 68 := by omega
  rw [State.calWord, if_neg hstrand, if_pos hreed]

section
variable {s : State} {q : Nat} {r : CalRun} (hq : q < 4) (hrun : (s.unit (64 + q)).run = some r) (hp : s.unitPaused (64 + q) = false)
include hq hrun hp

theorem calReedStageEnd_of_density {bins : List Nat} (hst : r.stage = .density) (hlen : bins.length = 2048) (hsum : bins.sum = 2 ^ 23)
    (east west : ReedData) :
    exec (.calReedStageEnd q bins east west) s = .next (deliver s (settleAll (densityEnd (64 + q) r bins s))) := by
  simp only [exec, execCalReedStageEnd, hrun, hst, hq, hp, hlen, hsum, and_self, if_true, settled_eq]

theorem calReedStageEnd_of_cross (hst : r.stage = .cross) (bins : List Nat) (east west : ReedData) :
    exec (.calReedStageEnd q bins east west) s =
      let ae := s.crossSamples r.target r.nl.bp east
      let aw := s.crossSamples r.target r.nl.bp west
      if ae.length = 4096 ∧ aw.length = 4096 then
        .next (deliver s (settleAll (crossEnd (64 + q) q r (crossOffset q (s.calWord (64 + q) r.target) ae aw) s)))
      else .next s := by
  simp only [exec, execCalReedStageEnd, hrun, hst, hq, hp, and_self, if_true, settled_eq]

end

/-! ## The end of code density -/

section
variable {u : Nat} {r : CalRun} {bins : List Nat} {s : State}

theorem densityEnd_of_uneven (hbad : ¬binsInRange bins) : densityEnd u r bins s = endReedRun u r.target (calReject u r 0x07 s) := by
  have hall : (bins.all fun x => decide (1024 ≤ x ∧ x ≤ 16384)) = false := Bool.eq_false_of_not_eq_true ((binsInRange_iff bins).not.2 hbad)
  simp only [densityEnd, hall, Bool.not_false, if_true]

variable (hgood : binsInRange bins) {k : Nat} (hk : reedRef r.target (s.reg (REED_CFG r.target)) = k)
include hgood hk

theorem densityEnd_of_even :
    densityEnd u r bins s =
      if s.flag (STR_STATUS_RUN k) = true ∧ s.flag (STR_STATUS_READY k) = true then
        setUnit u { (s.unit u) with run := some { r with stage := .cross, nl := reedNl (s.calWord u r.target) bins } } s
      else unitSelect u (calAbandon 0x26 u s) := by
  simp only [densityEnd, (binsInRange_iff bins).2 hgood, hk, Bool.not_true, Bool.false_eq_true, if_false, Bool.not_eq_true',
    ← Bool.not_eq_true, ite_not, Bool.and_eq_true]

end

/-! ## The end of cross-measurement -/

section
variable {u q : Nat} {r : CalRun} {off : Int} {s : State}

/-- The offset fails check 0x08: it is over 20 ps, or more than 1 ps from the one that the record holds (R221). -/
def offsetFails (r : CalRun) (off : Int) (s : State) : Prop :=
  20000 < off.natAbs ∨ (s.mget (recState (recReed r.target)) ≠ 0 ∧ 1000 < (off - signed 32 (s.mget (reedOffset r.target))).natAbs)

theorem offsetFails_iff :
    (20000 < off.natAbs ∨
        (s.mget (recState (recReed r.target)) != 0 && decide (1000 < (off - signed 32 (s.mget (reedOffset r.target))).natAbs)) = true) ↔
      offsetFails r off s := by
  simp only [offsetFails, Bool.and_eq_true, bne_iff_ne, decide_eq_true_eq]

theorem crossEnd_of_far (hfar : offsetFails r off s) : crossEnd u q r off s = endReedRun u r.target (calReject u r 0x08 s) :=
  if_pos (offsetFails_iff.2 hfar)

variable (hnear : ¬offsetFails r off s)
include hnear

theorem crossEnd_of_nonlinear (hnl : r.nl.ok = false) : crossEnd u q r off s = endReedRun u r.target (calReject u r 0x09 s) :=
  (if_neg (offsetFails_iff.not.2 hnear)).trans (if_pos (by rw [hnl]; rfl))

theorem crossEnd_of_passed (hnl : r.nl.ok = true) :
    crossEnd u q r off s = endReedRun u r.target (loadReed q r.target (s.calWord u r.target) off r.nl s) :=
  (if_neg (offsetFails_iff.not.2 hnear)).trans (if_neg (by rw [hnl]; exact Bool.false_ne_true))

end

/-- Settles O35: code density by its bins and by its reference strand, cross-measurement by its samples, and its end by the offset and the
nonlinearity. -/
theorem reedCalibration : Obligations.ReedCalibration := by
  unfold Obligations.ReedCalibration
  intro s q r hq hrun hp u n a k word fin
  have hword : s.calWord u n = word := calWord_of_reedUnit hq s n
  refine ⟨fun bins east west hst hlen hsum => ?_, fun bins east west hst => ?_,
    fun off => ⟨crossEnd_of_far, crossEnd_of_nonlinear, fun hnear hnl => ?_⟩⟩
  · rw [calReedStageEnd_of_density hq hrun hp hst hlen hsum]
    refine ⟨fun hbad => settled_congr (densityEnd_of_uneven hbad), fun hgood hable => ?_, fun hgood hable => ?_⟩
    · exact settled_congr ((densityEnd_of_even hgood rfl).trans (if_neg hable))
    · rw [densityEnd_of_even hgood rfl, if_pos hable, hword]
  · rw [calReedStageEnd_of_cross hq hrun hp hst, hword]
    rfl
  · rw [crossEnd_of_passed hnear hnl, hword]
    rfl

end Sys2Proof.Machine

/-! What a field of the stores holds after another one is written, and the parts of the state that such a write leaves alone. -/

namespace Sys2Proof.Machine

/-! ## A write in the stores -/

@[simp] theorem mput_regs (s : State) (f : Fld) (x : Nat) : (s.mput f x).regs = s.regs := by
  unfold State.mput
  cases recordAt f.reg with
  | none => rfl
  | some a =>
    dsimp only
    split <;> simp only [setMemWord_regs]

@[simp] theorem mput_get (s : State) (f : Fld) (x : Nat) (g : Fld) : (s.mput f x).get g = s.get g := get_congr (mput_regs s f x) g

@[simp] theorem mput_flag (s : State) (f : Fld) (x : Nat) (g : Fld) : (s.mput f x).flag g = s.flag g := by simp only [State.flag, mput_get]

@[simp] theorem mput_calBasket (s : State) (f : Fld) (x u y : Nat) : (s.mput f x).calBasket u y = s.calBasket u y := by
  simp only [State.calBasket, State.strandBasket, State.laneBasket, State.handleBasket, mput_flag, mput_get]

/-- Steps that each leave a part of the state as it was leave it so together. -/
theorem eachDo_of_unchanged {α β : Type} {l : List α} {f : α → State → State} {P : State → β} (h : ∀ x ∈ l, ∀ t, P (f x t) = P t)
    (s : State) :
    P (eachDo l f s) = P s := by
  induction l generalizing s with
  | nil => rfl
  | cons x l ih => exact (ih (fun y hy => h y (List.mem_cons_of_mem _ hy)) _).trans (h x List.mem_cons_self s)

/-! ## Reading after a write -/

theorem memWord_setMemWord_ne (s : State) (a b : Nat) (v : Word) (h : b + 4 ≤ a ∨ a + 4 ≤ b) : (s.setMemWord a v).memWord b = s.memWord b := by
  simp only [State.memWord]
  rw [byte_setMemWord_ne _ _ _ _ (by omega), byte_setMemWord_ne _ _ _ _ (by omega), byte_setMemWord_ne _ _ _ _ (by omega),
    byte_setMemWord_ne _ _ _ _ (by omega)]

/-- STORED lies in the second word of a record, so a field outside it reads what the write itself makes (R231). -/
theorem mget_mput_of_not_header (s : State) (f g : Fld) (x : Nat) (hg : ∀ a, recordAt f.reg = some a → g.reg ≤ a ∨ a + 8 ≤ g.reg) :
    (s.mput f x).mget g = (s.setMemWord f.reg (withBits (s.memWord f.reg) f.lo f.w x)).mget g := by
  unfold State.mput
  cases ha : recordAt f.reg with
  | none => rfl
  | some a =>
    have hne : g.reg + 4 ≤ a + 4 ∨ a + 4 + 4 ≤ g.reg := by
      rcases hg a ha with h | h <;> omega
    dsimp only
    split
    · simp only [State.mget, memWord_setMemWord_ne _ _ _ _ hne]
    · rfl

/-- Two fields of the stores that share no byte, or that lie in one word and share no bit. -/
def memFieldsApart (f g : Fld) : Prop :=
  f.reg + 4 ≤ g.reg ∨ g.reg + 4 ≤ f.reg ∨ (g.reg = f.reg ∧ f.lo + f.w ≤ 32 ∧ (f.lo + f.w ≤ g.lo ∨ g.lo + g.w ≤ f.lo))

theorem mget_mput_apart (s : State) (f g : Fld) (x : Nat) (hg : ∀ a, recordAt f.reg = some a → g.reg ≤ a ∨ a + 8 ≤ g.reg)
    (h : memFieldsApart f g) :
    (s.mput f x).mget g = s.mget g := by
  rw [mget_mput_of_not_header s f g x hg]
  simp only [State.mget]
  rcases h with h | h | ⟨hreg, hf, h | h⟩
  · rw [memWord_setMemWord_ne _ _ _ _ (Or.inr h)]
  · rw [memWord_setMemWord_ne _ _ _ _ (Or.inl h)]
  · rw [hreg, memWord_setMemWord, bitsAt_withBits_above _ _ _ _ _ _ hf h]
  · rw [hreg, memWord_setMemWord, bitsAt_withBits_below _ _ _ _ _ _ hf h]

end Sys2Proof.Machine

/-! The ends of a rim's sweep, of its margin measurement, and of a lane's eyes and taps. -/

namespace Sys2Proof.Machine

/-! ## The bands of a rim -/

theorem bandFails_iff (l : List (Nat × Nat)) (b : Nat) :
    bandFails l b = true ↔
      let x := l.getD b (0, 0)
      let y := l.getD (b - 1) (0, 0)
      x.2 ≤ x.1 ∨ (b ≠ 0 ∧ (x.1 ≤ y.1 ∨ 1750 * ((y.2 : Int) - x.1) < 20 * 2 ^ 32)) := by
  simp only [bandFails, Bool.or_eq_true, Bool.and_eq_true, bne_iff_ne, decide_eq_true_eq]

/-- The bands of a sweep that fail, and the FULL ones of those that do not. -/
def failedBands (bands : List (Nat × Nat)) : List Nat := (List.range 64).filter (bandFails bands)
def fullBands (bands : List (Nat × Nat)) : List (Nat × Nat) :=
  (List.range 64).filterMap fun b => if (failedBands bands).contains b then none else some (bands.getD b (0, 0))

section
variable {s : State} {r : CalRun} (hrun : (s.unit 68).run = some r)
include hrun

theorem calRimSweepEnd_eq (hst : r.stage = .bands) (hl : s.get HRT_STATUS_STATE = 1) (hp : s.unitPaused 68 = false) (bands : List (Nat × Nat)) :
    exec (.calRimSweepEnd bands) s =
      if bands.length ≠ 64 ∨ 1 < (failedBands bands).length then .next (deliver s (settleAll (unitDone 68 (calReject 68 r 0x0A s))))
      else if !bandsCover (fullBands bands) then .next (deliver s (settleAll (unitDone 68 (calReject 68 r 0x0B s))))
      else .next (deliver s (settleAll (unitDone 68 (acceptHeader (recRim r.target) 13 (eachDo (List.range 64) (fun b u =>
        let x := bands.getD b (0, 0)
        putBand r.target b x.1 x.2 (if (failedBands bands).contains b then 3 else 2) u) s))))) := by
  simp only [exec, execCalRimSweepEnd, unitRim, hrun, hst, hl, hp, and_self, if_true, settled_eq]
  rfl

theorem calRimMarginEnd_of_locked {n : Nat} (hst : r.stage = .margin) (hn : s.logicalRim r.target = some n) (hl : s.get (RIM_STATUS_STATE n) = 2)
    (hp : s.unitPaused 68 = false) (code peak : Nat) :
    exec (.calRimMarginEnd code peak) s = .next (deliver s (settleAll (unitDone 68
      (((acceptHeader (recRim r.target) 13 s).mput (recQuality (recRim r.target) 0 12) (min code (4095 - code))).mput
        (recQuality (recRim r.target) 12 8) (s.get (RIM_CTRL_LOCK_WIN n) - peak))))) := by
  simp only [exec, execCalRimMarginEnd, unitRim, hrun, hst, hn, hl, hp, and_self, if_true, settled_eq]

end

/-! ## The steps of a lane's run -/

/-- A lane's run goes on at stage `st` with its numbers `x`, whose taps the lane takes (R220). -/
def laneGoesOn (p : Nat) (r : CalRun) (x : TapRun) (st : CalStage) (s : State) : State :=
  setTaps p x.taps (setUnit (unitLane p) { (s.unit (unitLane p)) with run := some { r with tap := x, stage := st } } s)

section
variable {s : State} {p : Nat} {r : CalRun} (hrun : (s.unit (unitLane p)).run = some r) (hp : s.unitPaused (unitLane p) = false)
  (e : EyeScan) (m : List Nat) (hit : Bool)
include hrun hp

theorem calLaneStepEnd_of_eyeBefore (hst : r.stage = .eyeBefore) :
    exec (.calLaneStepEnd p e m hit) s = .next (deliver s (settleAll
      (laneGoesOn p r { r.tap with eyeW := eyeWidth e, eyeH := eyeHeight e, i := 0 } .tapHere
        ((s.mput ⟨recLane p + 28, 0, 8⟩ (eyeWidth e)).mput ⟨recLane p + 28, 8, 16⟩ (eyeHeight e))))) := by
  simp only [exec, execCalLaneStepEnd, hrun, hp, hst, Bool.false_eq_true, if_false, settled_eq, laneGoesOn]

theorem calLaneStepEnd_of_eyeAfter (hst : r.stage = .eyeAfter) :
    exec (.calLaneStepEnd p e m hit) s = .next (deliver s (settleAll (eyeAfterEnd (unitLane p) p r (eyeWidth e) (eyeHeight e) s))) := by
  simp only [exec, execCalLaneStepEnd, hrun, hp, hst, Bool.false_eq_true, if_false, settled_eq]

theorem calLaneStepEnd_of_tap (hst : r.stage = .tapHere ∨ r.stage = .tapUp ∨ r.stage = .tapDown ∨ r.stage = .tapOn) :
    exec (.calLaneStepEnd p e m hit) s =
      let x := tapStep r.tap r.stage (m.take 4).sum hit
      .next (deliver s (settleAll (laneGoesOn p r x.1 x.2 s))) := by
  rcases hst with hst | hst | hst | hst
  all_goals simp only [exec, execCalLaneStepEnd, hrun, hp, hst, Bool.false_eq_true, if_false, settled_eq, laneGoesOn]

end

/-! ## The eye after the moves -/

section
variable {u p w h : Nat} {r : CalRun} {s : State}

theorem eyeAfterEnd_of_small (hsmall : w < 16 ∨ h < 20) :
    eyeAfterEnd u p r w h s = unitDone u (calReject u r 0x0C (setTaps p r.tap.before s)) := if_pos hsmall

variable (hw : 16 ≤ w) (hh : 20 ≤ h)
include hw hh

theorem eyeAfterEnd_of_lost (hlost : w + 2 < r.tap.eyeW ∨ h + 6 < r.tap.eyeH) :
    eyeAfterEnd u p r w h s = unitDone u (calReject u r 0x0D (setTaps p r.tap.before s)) :=
  (if_neg (by omega)).trans (if_pos hlost)

theorem eyeAfterEnd_of_kept (hkw : r.tap.eyeW ≤ w + 2) (hkh : r.tap.eyeH ≤ h + 6) :
    eyeAfterEnd u p r w h s = unitDone u (laneAccept u p w h r.tap.taps s) :=
  (if_neg (by omega)).trans (if_neg (by omega))

end

/-! ## A lane's record -/

/-- The words of a lane's record lie in that record. -/
theorem recordAt_recLane {p k a : Nat} (hk : k < 64) (ha : recordAt (recLane p + k) = some a) : a = recLane p := by
  unfold recordAt recLane at ha
  split_ifs at ha
  all_goals
    have ha := Option.some.inj ha
    rw [recLane]
    omega

/-- A field beyond the header of a lane's record does not change with another one of the record. -/
theorem mget_mput_recLane {p k lo w : Nat} {g : Fld} (hk : k < 64) (hg : recLane p + 8 ≤ g.reg) (h : memFieldsApart ⟨recLane p + k, lo, w⟩ g)
    (x : Nat) (s : State) : (s.mput ⟨recLane p + k, lo, w⟩ x).mget g = s.mget g :=
  mget_mput_apart s _ g x (fun _ ha => Or.inr (recordAt_recLane hk ha ▸ hg)) h

@[simp] theorem acceptHeader_get (a sensor : Nat) (s : State) (f : Fld) : (acceptHeader a sensor s).get f = s.get f := by
  simp only [acceptHeader, writeResult, mput_get]

@[simp] theorem putTaps_get (p : Nat) (l : List Int) (s : State) (f : Fld) : (putTaps p l s).get f = s.get f :=
  (eachDo_of_unchanged (P := fun t : State => t.get f) (fun _ _ _ => mput_get _ _ _ _) _).trans (mput_get _ _ _ _)

/-- The fields of a record's header that an accepted run writes (R226). -/
def headerFields (a : Nat) : List Fld :=
  [recSeq a, recState a, recResult a, recCheck a, recTj a, recStored a, recExpAge a, recExpTj a, recExpFreq a, recOptime a]

/-- A header is the first three words of its record. -/
theorem reg_of_mem_headerFields {a : Nat} {f : Fld} (hf : f ∈ headerFields a) : a ≤ f.reg ∧ f.reg ≤ a + 8 := by
  have hall : ∀ f ∈ headerFields a, a ≤ f.reg ∧ f.reg ≤ a + 8 := by
    simp [headerFields, recSeq, recState, recResult, recCheck, recTj, recStored, recExpAge, recExpTj, recExpFreq, recOptime]
  exact hall f hf

theorem mget_mput_of_mem_headerFields {p : Nat} {f g : Fld} (hf : f ∈ headerFields (recLane p)) (hg : recLane p + 12 ≤ g.reg) (x : Nat)
    (s : State) : (s.mput f x).mget g = s.mget g := by
  obtain ⟨hlow, hhigh⟩ := reg_of_mem_headerFields hf
  obtain ⟨reg, lo, w⟩ := f
  dsimp only at hlow hhigh
  obtain ⟨k, rfl⟩ := Nat.exists_eq_add_of_le hlow
  exact mget_mput_recLane (by omega) (by omega) (Or.inl (by dsimp only; omega)) x s

theorem mget_acceptHeader_recLane {p : Nat} {g : Fld} (hg : recLane p + 12 ≤ g.reg) (sensor : Nat) (s : State) :
    (acceptHeader (recLane p) sensor s).mget g = s.mget g := by
  have hput : ∀ f ∈ headerFields (recLane p), ∀ (x : Nat) (t : State), (t.mput f x).mget g = t.mget g := fun f hf =>
    mget_mput_of_mem_headerFields hf hg
  simp only [headerFields, List.forall_mem_cons] at hput
  simp only [acceptHeader, writeResult, hput]

/-- The taps are the low 4 bits of word 4, and words 5 and 6. -/
theorem mget_putTaps {p : Nat} {g : Fld} (hg : recLane p + 8 ≤ g.reg)
    (h : recLane p + 28 ≤ g.reg ∨ (g.reg = recLane p + 16 ∧ 4 ≤ g.lo)) (l : List Int) (s : State) : (putTaps p l s).mget g = s.mget g := by
  refine (eachDo_of_unchanged (P := fun t : State => t.mget g) (fun i hi t => ?_) _).trans ?_
  · have hi : i < 8 := List.mem_range.1 hi
    rw [Nat.add_assoc]
    exact mget_mput_recLane (by omega) hg (by simp only [memFieldsApart]; omega) _ t
  · exact mget_mput_recLane (by omega) hg (by simp only [memFieldsApart]; omega) _ _

/-! ## An accepted lane -/

/-- The eye of lane `p` has closed since its fresh eye by more than a threshold that is not 0 (R232). -/
abbrev eyeWorn (p w h : Nat) (s : State) : Prop :=
  (s.wear.eyeW ≠ 0 ∧ s.wear.eyeW < s.mget ⟨recLane p + 32, 0, 8⟩ - w) ∨
    (s.wear.eyeH ≠ 0 ∧ s.wear.eyeH < s.mget ⟨recLane p + 32, 8, 16⟩ - h)

theorem laneWear_eq (u p w h : Nat) (s : State) :
    laneWear u p w h s =
      let v := s.mput (recWear (recLane p)) (if eyeWorn p w h s then 1 else 0)
      if eyeWorn p w h s ∧ s.mget (recWear (recLane p)) ≠ 1 then
        raiseW (srcLane p) .eyeWear (v.calBasket u p) (s.mget ⟨recLane p + 32, 0, 8⟩ - w + 256 * (s.mget ⟨recLane p + 32, 8, 16⟩ - h)) v
      else v := by
  have hworn : ((s.wear.eyeW != 0 && decide (s.wear.eyeW < s.mget ⟨recLane p + 32, 0, 8⟩ - w)) ||
      (s.wear.eyeH != 0 && decide (s.wear.eyeH < s.mget ⟨recLane p + 32, 8, 16⟩ - h))) = true ↔ eyeWorn p w h s := by
    simp only [eyeWorn, Bool.or_eq_true, Bool.and_eq_true, bne_iff_ne, decide_eq_true_eq]
  simp only [laneWear, mput_calBasket, hworn, Bool.and_eq_true, Bool.not_eq_true', beq_eq_false_iff_ne]

/-- The taps and the header leave the rate, the fresh eye and what they are read from. -/
theorem laneAccept_eq (u p w h : Nat) (l : List Int) (s : State) :
    laneAccept u p w h l s =
      let a := recLane p
      let t := putTaps p l (acceptHeader a (sensorOf u p) s)
      let rate := t.get (LANE_STATUS_RATE p)
      let first := t.mget ⟨a + 32, 0, 24⟩ = 0 ∨ t.mget ⟨a + 16, 8, 2⟩ ≠ rate
      let t := ((t.mput ⟨a + 16, 8, 2⟩ rate).mput (recQuality a 0 8) w).mput (recQuality a 8 16) h
      laneWear u p w h (if first then (t.mput ⟨a + 32, 0, 8⟩ w).mput ⟨a + 32, 8, 16⟩ h else t) := by
  have hfresh : ∀ g : Fld, recLane p + 28 ≤ g.reg ∨ (g.reg = recLane p + 16 ∧ 4 ≤ g.lo) →
      (putTaps p l (acceptHeader (recLane p) (sensorOf u p) s)).mget g = s.mget g := fun g hg =>
    (mget_putTaps (by omega) hg l _).trans (mget_acceptHeader_recLane (by omega) _ s)
  simp only [laneAccept, putTaps_get, acceptHeader_get, hfresh ⟨recLane p + 32, 0, 24⟩ (Or.inl (by dsimp only; omega)),
    hfresh ⟨recLane p + 16, 8, 2⟩ (Or.inr ⟨rfl, Nat.le_add_left 4 4⟩)]

/-- Settles O36: a sweep by its bands, the margin of a LOCKED rim, and a lane's steps by their stages and by what the eye has lost. -/
theorem rimAndLaneCalibration : Obligations.RimAndLaneCalibration := by
  unfold Obligations.RimAndLaneCalibration
  intro s
  refine ⟨bandFails_iff, fun r bands hrun hst hl hp => ?_,
    fun r n code peak hrun hst hn hl hp => calRimMarginEnd_of_locked hrun hst hn hl hp code peak,
    fun p e m hit r hrun hp => ⟨calLaneStepEnd_of_eyeBefore hrun hp e m hit, calLaneStepEnd_of_tap hrun hp e m hit,
      calLaneStepEnd_of_eyeAfter hrun hp e m hit⟩,
    fun p w h r => ⟨eyeAfterEnd_of_small, eyeAfterEnd_of_lost, fun hw hh hkw hkh => ?_⟩⟩
  · rw [calRimSweepEnd_eq hrun hst hl hp]
    refine ⟨fun hbad => if_pos hbad, fun hlen hone hcover => (if_neg ?_).trans (if_pos ?_), fun hlen hone hcover => (if_neg ?_).trans (if_neg ?_)⟩
    · exact not_or.2 ⟨not_not.2 hlen, Nat.not_lt.2 hone⟩
    · exact congrArg not hcover
    · exact not_or.2 ⟨not_not.2 hlen, Nat.not_lt.2 hone⟩
    · exact fun hn => Bool.false_ne_true ((congrArg not hcover).symm.trans hn)
  · rw [eyeAfterEnd_of_kept hw hh hkw hkh, laneAccept_eq, laneWear_eq]
    rfl

end Sys2Proof.Machine

/-! The pause limit, the ages and the conditions of calibrations, and the end of an NVM write. -/

namespace Sys2Proof.Machine

/-! ## CHECK of an NVM slot -/

theorem crcBit_lt {c : Nat} (hc : c < 2 ^ 32) : crcBit c < 2 ^ 32 := by
  have hhalf : c / 2 < 2 ^ 32 := (Nat.div_le_self c 2).trans_lt hc
  unfold crcBit
  split
  · exact Nat.xor_lt_two_pow hhalf (by decide)
  · exact hhalf

theorem crcByte_lt {c b : Nat} (hc : c < 2 ^ 32) (hb : b < 2 ^ 32) : crcByte c b < 2 ^ 32 :=
  List.foldlRecOn (motive := (· < 2 ^ 32)) _ _ (Nat.xor_lt_two_pow hc hb) fun _ hx _ _ => crcBit_lt hx

/-- The CRC-32C of bytes is a 32-bit number. -/
theorem crcBytes_lt {l : List Nat} (hl : ∀ b ∈ l, b < 256) : crcBytes l < 2 ^ 32 := by
  have hfold : l.foldl crcByte 0xFFFFFFFF < 2 ^ 32 :=
    List.foldlRecOn (motive := (· < 2 ^ 32)) l crcByte (by decide) fun _ hx b hb => crcByte_lt hx ((hl b hb).trans (by decide))
  exact Nat.xor_lt_two_pow hfold (by decide)

theorem bitsAt_lt (v : Word) (lo w : Nat) : bitsAt v lo w < 2 ^ w := Nat.mod_lt _ (Nat.two_pow_pos w)

theorem bodyByte_lt (x : NvmSlot) (g i : Nat) : x.bodyByte g i < 256 := by
  unfold NvmSlot.bodyByte
  split_ifs
  · decide
  · exact bitsAt_lt _ _ 8
  · exact BitVec.isLt _

theorem crc_lt (x : NvmSlot) (g : Nat) : x.crc g < 2 ^ 32 := by
  refine crcBytes_lt fun b hb => ?_
  rcases List.mem_append.1 hb with hb | hb
  · obtain ⟨w, -, hb⟩ := List.mem_flatMap.1 hb
    obtain ⟨i, -, rfl⟩ := List.mem_map.1 hb
    exact bitsAt_lt _ _ 8
  · obtain ⟨i, -, rfl⟩ := List.mem_map.1 hb
    exact bodyByte_lt x g i

/-! ## The steps of an NVM write -/

/-- The slot of job `j` once its header and body, CHECK and COMMIT are programmed (R231). -/
def writtenSlot (j : NvmJob) (s : State) : NvmSlot := (((s.slot j.group j.slot).program j.body).programCheck j.group).programCommit

/-- CHECK and COMMIT lie behind what CHECK is computed over (R229). -/
theorem crc_programCheck_programCommit (x : NvmSlot) (g : Nat) : (x.programCheck g).programCommit.crc g = x.crc g := rfl

theorem valid_writtenSlot {j : NvmJob} (s : State) (htag : j.body.tag.toNat % 256 = j.group) (hlen : lengthOk j.group j.body.len.toNat = true) :
    (writtenSlot j s).valid j.group = true := by
  have hcheck : (writtenSlot j s).check.toNat = (writtenSlot j s).crc j.group := by
    rw [writtenSlot, crc_programCheck_programCommit]
    exact Nat.mod_eq_of_lt (crc_lt _ _)
  have hgroup : bitsAt (writtenSlot j s).tag 0 8 = j.group := (bitsAt_zero _ _).trans htag
  have hlength : lengthOk j.group (writtenSlot j s).len.toNat = true := hlen
  simp only [NvmSlot.valid, hcheck, hgroup, hlength, beq_self_eq_true, Bool.and_true]
  rfl

section
variable {j : NvmJob} {s : State}

theorem nvmCommit_of_calGroup (h1 : 1 ≤ j.group) (h4 : j.group ≤ 4) :
    nvmCommit j s = unitIdle 69 (markStored j.group j.body.cells { s.setSlot j.group j.slot (writtenSlot j s) with nvmRun := none }) :=
  if_pos ⟨h1, h4⟩

theorem nvmCommit_of_repairMap (h7 : j.group = 7) :
    nvmCommit j s =
      let t := { s.setSlot j.group j.slot (writtenSlot j s) with nvmRun := none }
      ((t.put BIST_MAP_STATUS_PENDING (if t.nvmQueue.contains 7 ∨ j.body.cells ≠ t.mapBody then 1 else 0)).put BIST_EVENT_MAP_STORED 1).put
        BIST_MAP_STATUS_SEQ j.body.seq.toNat := by
  refine (if_neg (by omega)).trans ((if_pos h7).trans ?_)
  simp only [putFlag_eq_put, raise_eq_put, Bool.or_eq_true, bne_iff_ne]
  rfl

theorem nvmWriteComplete_of_running (hj : s.nvmRun = some j) :
    exec .nvmWriteComplete s = .next (deliver s (settleAll (
      if j.group = 5 ∧ (nvmCommit j s).loadState = 4 then bootStored (nvmCommit j s) else nvmCommit j s))) := by
  simp only [exec, execNvmWriteComplete, hj, settled_eq]
  rfl

end

/-! ## A record's conditions -/

/-- The bits of a record and whether it is EXPIRED, by three conditions that its expiry decides (R224). -/
theorem recheckBits_of_expiry {e : Nat × Nat × Nat × Nat} {s : State} {hot moved aged : Prop} [Decidable hot] [Decidable moved] [Decidable aged]
    (hhot : (s.expiry e (s.recCal e.1)).1 = decide hot) (hmoved : (s.expiry e (s.recCal e.1)).2.1 = decide moved)
    (haged : ((s.expiry e (s.recCal e.1)).2.2 || s.mget (recExpAge e.1) == 1) = decide aged) :
    recheckBits e s = (decide (hot ∨ moved ∨ aged),
      ((s.mput (recExpTj e.1) (if hot then 1 else 0)).mput (recExpFreq e.1) (if moved then 1 else 0)).mput (recExpAge e.1)
        (if aged then 1 else 0)) := by
  simp only [recheckBits, hhot, hmoved, haged, Bool.decide_or, Bool.or_assoc, decide_eq_true_eq]

theorem recheckBits_eq (s : State) (a kind u x : Nat) :
    let hot := 100 < (s.tj (sensorOf u x) - signed 16 (s.mget (recTj a))).natAbs
    let word := s.calWord u x
    let moved := kind ≤ 2 ∧ word ≠ 0 ∧ movedFive word (s.mget (recFreqN a) * 2 ^ 32 + s.mget (recFreqF a)) = true
    let aged := s.mget (recOptime a) + 43200 ≤ s.get BIST_OPTIME_MINUTES ∨ s.mget (recExpAge a) = 1
    recheckBits (a, kind, u, x) s = (decide (hot ∨ moved ∨ aged),
      ((s.mput (recExpTj a) (if hot then 1 else 0)).mput (recExpFreq a) (if moved then 1 else 0)).mput (recExpAge a) (if aged then 1 else 0)) := by
  intro hot word moved aged
  refine recheckBits_of_expiry rfl ?_ ?_
  · rw [Bool.eq_iff_iff]
    simp only [State.expiry, State.recCal, Bool.and_eq_true, bne_iff_ne, decide_eq_true_eq, and_assoc, moved, word]
  · rw [Bool.eq_iff_iff]
    change (decide (s.mget (recOptime a) + 43200 ≤ s.get BIST_OPTIME_MINUTES) || s.mget (recExpAge a) == 1) = true ↔ decide aged = true
    simp only [Bool.or_eq_true, beq_iff_eq, decide_eq_true_eq, aged]

/-! ## The recheck of a record -/

section
variable {s : State} {a kind u x : Nat}

theorem recheckRecord_of_default (hk : kind ≠ 1) (h0 : s.mget (recState a) = 0) : recheckRecord (a, kind, u, x) s = s := by
  simp only [recheckRecord, hk, h0, if_true, if_false]
  rfl

theorem recheckRecord_of_values (hk : kind ≠ 1) (h0 : s.mget (recState a) ≠ 0) :
    recheckRecord (a, kind, u, x) s =
      let b := recheckBits (a, kind, u, x) s
      let v := b.2.mput (recState a) (if b.1 then 2 else 1)
      let v := if kind = 2 then v.put (REED_STATUS_CAL_VALID x) 1 else v
      if s.mget (recState a) = 1 ∧ v.mget (recState a) = 2 then raiseW (srcCal u) .calExpired (v.calBasket u x) kind v else v := by
  simp only [recheckRecord, hk, h0, if_false, stateOf, raise_eq_put, Bool.and_eq_true, beq_iff_eq]

/-- The state of cell `k` in the strand's record at `a` (R227). -/
def cellStateIn (a : Nat) (s : State) (k : Nat) : Nat := s.mget (cellState (a + 24 + 24 * k))

/-- The record at `a` holds no values, nor does one of its cells. -/
def noValues (a : Nat) (s : State) : Prop := s.mget (recState a) = 0 ∧ ∀ k < 3, cellStateIn a s k = 0

theorem noValues_iff :
    (s.mget (recState a) = 0 ∧ ((List.range 3).map (cellStateIn a s)).all (· == 0) = true) ↔ noValues a s := by
  simp only [noValues, List.all_map, List.all_eq_true, List.mem_range, Function.comp, beq_iff_eq]

theorem not_noValues_iff : ¬noValues a s ↔ s.mget (recState a) ≠ 0 ∨ ∃ k < 3, cellStateIn a s k ≠ 0 := by
  simp only [noValues, not_and_or, not_forall, exists_prop, ne_eq]

/-- A strand's record after its recheck: the bits follow where a run was accepted, and the cells in either case (R224). -/
def strandRechecked (a u x : Nat) (s : State) : State :=
  let b := recheckBits (a, 1, u, x) s
  if s.mget (recSeq a) = 0 then recheckCells (a, 1, u, x) false s else recheckCells (a, 1, u, x) b.1 b.2

/-- An entry of one of a strand's cells into EXPIRED between `s` and `t` raises class W (R224). -/
def cellsExpire (a u x : Nat) (s t : State) : State :=
  if (List.range 3).any fun k => cellStateIn a s k == 1 && cellStateIn a t k == 2 then raiseW (srcCal u) .calExpired (t.calBasket u x) 1 t else t

theorem cellsExpire_of_noValues (h : noValues a s) : cellsExpire a u x s s = s := by
  refine if_neg fun hany => ?_
  obtain ⟨k, hk, hval⟩ := List.any_eq_true.1 hany
  rw [h.2 k (List.mem_range.1 hk)] at hval
  exact Bool.false_ne_true hval

theorem recheckRecord_of_strand :
    recheckRecord (a, 1, u, x) s = cellsExpire a u x s
      (if s.mget (recState a) = 0 ∧ ((List.range 3).map (cellStateIn a s)).all (· == 0) = true then s else strandRechecked a u x s) := by
  by_cases hseq : s.mget (recSeq a) = 0
  · simp only [recheckRecord, strandRechecked, hseq, if_true]
    rfl
  · simp only [recheckRecord, strandRechecked, hseq, if_true, if_false]
    rfl

theorem recheckRecord_of_strand_noValues (h : noValues a s) : recheckRecord (a, 1, u, x) s = s := by
  rw [recheckRecord_of_strand, if_pos (noValues_iff.2 h), cellsExpire_of_noValues h]

theorem recheckRecord_of_strand_values (h : ¬noValues a s) : recheckRecord (a, 1, u, x) s = cellsExpire a u x s (strandRechecked a u x s) := by
  rw [recheckRecord_of_strand, if_neg (noValues_iff.not.2 h)]

end

/-- Settles O37: the ends of a pause and of an NVM write, and the rechecks by the kind of the record and by whether it holds values. -/
theorem calibrationAges : Obligations.CalibrationAges := by
  unfold Obligations.CalibrationAges
  intro s
  refine ⟨fun u hrun hp => if_pos ⟨hrun, hp⟩, rfl,
    fun j hj => ⟨nvmWriteComplete_of_running hj, valid_writtenSlot s, nvmCommit_of_calGroup, nvmCommit_of_repairMap⟩,
    fun i tj hi => if_pos hi, fun a kind u x => ?_⟩
  intro hot word moved aged t bad
  have hbits : recheckBits (a, kind, u, x) s = (bad, t) := recheckBits_eq s a kind u x
  refine ⟨hbits, recheckRecord_of_default, fun hk h0 => ?_, ?_⟩
  · rw [recheckRecord_of_values hk h0, hbits]
  · rintro rfl cells
    refine ⟨fun h0 hcells => recheckRecord_of_strand_noValues ⟨h0, hcells⟩, fun hvalues => ?_⟩
    rw [recheckRecord_of_strand_values (not_noValues_iff.2 hvalues), strandRechecked, hbits]
    rfl

end Sys2Proof.Machine

/-! What doorbells, credits that leave, the fetch capacity and the peaks do. -/

namespace Sys2Proof.Machine

/-! ## Doorbells -/

/-- Ring `r` is one that master `m` may ring: a host or completion ring, of the master's basket or rung by the PF, which may ring any (R237). -/
def State.mayRing (s : State) (m r : Nat) : Prop :=
  (s.get (RING_DESC1_KIND r) = 1 ∨ s.get (RING_DESC1_KIND r) = 3) ∧ (m = 0 ∨ m = s.get (RING_DESC1_BASKET r) + 1)

/-- How far index `i` lies ahead of the one that a doorbell of ring `r` moves. -/
def State.dbAhead (s : State) (r i : Nat) : Nat :=
  (i + 2 ^ 17 - if s.get (RING_DESC1_KIND r) = 1 then s.get (RING_PROD_IDX r) else s.get (RING_CONS_IDX r)) % 2 ^ 17

/-- How far ring `r` lets its index move: over the free entries of a host ring, over the used ones of a completion ring (R237). -/
def State.dbRoom (s : State) (r : Nat) : Nat := if s.get (RING_DESC1_KIND r) = 1 then s.ringDepth r - s.ringUsed r else s.ringUsed r

theorem not_mayRing_iff {s : State} {m r : Nat} :
    (!((s.get (RING_DESC1_KIND r) == 1 || s.get (RING_DESC1_KIND r) == 3) && (m == 0 || m == s.get (RING_DESC1_BASKET r) + 1))) = true ↔
      ¬s.mayRing m r := by
  simp only [State.mayRing, Bool.not_eq_true', ← Bool.not_eq_true, Bool.and_eq_true, Bool.or_eq_true, beq_iff_eq]

section
variable {s : State} {m r i : Nat}

theorem doorbell_of_foreign (h : ¬s.mayRing m r) : doorbell m r i s = countForeign m (s.put (RING_EVENT_DB_REJ (copyOf m)) 1) :=
  if_pos (not_mayRing_iff.2 h)

variable (h : s.mayRing m r)
include h

theorem doorbell_of_beyond (hi : s.dbRoom r < s.dbAhead r i) :
    doorbell m r i s = (s.put (RING_EVENT_DB_OVER (copyOf m)) 1).incSat (RING_BSK_CNT1_DB_OVER (s.get (RING_DESC1_BASKET r))) :=
  (if_neg (not_mayRing_iff.not.2 (not_not.2 h))).trans (if_pos hi)

variable (hi : s.dbAhead r i ≤ s.dbRoom r)
include hi

theorem doorbell_of_hostRing (hk : s.get (RING_DESC1_KIND r) = 1) :
    doorbell m r i s = { s.put (RING_PROD_IDX r) i with dbFrom := tabSet (fun _ => 0) s.dbFrom r m } :=
  (if_neg (not_mayRing_iff.not.2 (not_not.2 h))).trans ((if_neg (Nat.not_lt.2 hi)).trans (if_pos hk))

theorem doorbell_of_completionRing (hk : s.get (RING_DESC1_KIND r) = 3) : doorbell m r i s = s.put (RING_CONS_IDX r) i :=
  (if_neg (not_mayRing_iff.not.2 (not_not.2 h))).trans ((if_neg (Nat.not_lt.2 hi)).trans (if_neg (by omega)))

end

/-- A write of RING_DB that goes through names its ring in the low 15 bits and the index in the 17 above them. -/
theorem ringDoorbell_of_opens {s : State} {m : Nat} (h : s.opens m RING_DB false) {v : Word} {t : State}
    (ht : doorbell m (v.toNat % 32768) (v.toNat / 32768 % 131072) s = t) : exec (.ringDoorbell m v) s = .next (deliver s t) := by
  have hr : bitsAt v 0 15 = v.toNat % 32768 := bitsAt_zero v 15
  refine done_congr ((gateWrite_of_opens h _).trans ?_)
  rw [hr]
  exact ht

/-! ## Credits that leave -/

/-- The owed credits of ring `r`'s source `j` counted as held (R241). -/
def holdOwed (r j : Nat) (s : State) : State :=
  (s.put (RING_SRC_OUT_OWED r j) 0).put (RING_SRC_OUT_HELD r j) (s.get (RING_SRC_OUT_HELD r j) + s.get (RING_SRC_OUT_OWED r j))

theorem get_holdOwed (s : State) {r j : Nat} {f : Fld} (h : f.reg ≠ RING_SRC_OUT r j) : (holdOwed r j s).get f = s.get f :=
  (get_put_ne _ _ _ _ h).trans (get_put_ne _ _ _ _ h)

/-- The frame that carries credits says the ring's class and basket and the hub's position, none of which the counts of credits change. -/
theorem sendCredits_holdOwed (s : State) (r j l : Nat) {k : Nat} (hk : k ≠ 0) :
    sendCredits l r k (holdOwed r j s) =
      sendFrame l (.credit k (s.get (RING_DESC1_CLASS r)) (s.get (RING_DESC1_BASKET r)) (s.get TAL_STATUS_CHAIN_POS)) (holdOwed r j s) := by
  have hdesc : RING_DESC1 r ≠ RING_SRC_OUT r j := by
    simp only [RING_DESC1, RING_SRC_OUT]
    omega
  have htal : TAL_STATUS ≠ RING_SRC_OUT r j := by
    simp only [TAL_STATUS, RING_SRC_OUT]
    omega
  rw [sendCredits, if_neg hk, get_holdOwed s (f := RING_DESC1_CLASS r) hdesc, get_holdOwed s (f := RING_DESC1_BASKET r) hdesc,
    get_holdOwed s (f := TAL_STATUS_CHAIN_POS) htal]

section
variable {s : State} {r j : Nat} (hj : j < 6)
include hj

theorem creditSend_of_owed (hk : s.get (RING_SRC_OUT_OWED r j) ≠ 0) (ha : s.sourceActive (s.get (RING_SRC_SRC r j)) = true) :
    exec (.creditSend r j) s = .next (deliver s (sendFrame (s.sourceLane (s.get (RING_SRC_SRC r j)))
      (.credit (s.get (RING_SRC_OUT_OWED r j)) (s.get (RING_DESC1_CLASS r)) (s.get (RING_DESC1_BASKET r)) (s.get TAL_STATUS_CHAIN_POS))
      (holdOwed r j s))) := by
  have hgo : (s.get (RING_SRC_OUT_OWED r j) != 0 && s.sourceActive (s.get (RING_SRC_SRC r j))) = true := by
    rw [ha, Bool.and_true, bne_iff_ne]
    exact hk
  exact (if_pos hj).trans (done_congr ((if_pos hgo).trans (sendCredits_holdOwed s r j _ hk)))

theorem creditSend_of_none (h : s.get (RING_SRC_OUT_OWED r j) = 0 ∨ s.sourceActive (s.get (RING_SRC_SRC r j)) = false) :
    exec (.creditSend r j) s = .next (deliver s s) := by
  refine (if_pos hj).trans (done_congr (if_neg fun hgo => ?_))
  rw [Bool.and_eq_true, bne_iff_ne] at hgo
  exact h.elim hgo.1 fun hoff => Bool.false_ne_true (hoff.symm.trans hgo.2)

end

/-! ## The fetch capacity and its reservations -/

theorem capacityMeasure_eq (x : Nat) (l : List Nat) (s : State) :
    let c := 64 * l.foldl min x
    let t := { s with cap := c }.put RING_CAP_CAP (min (c / 10000) 65535)
    exec (.capacityMeasure (x :: l)) s = .next (deliver s (settleAll (withdrawMore 64
      (if c < 1000 * t.resTotal ∧ t.flag RING_CAP_BM = false ∧ t.bmBaskets ≠ [] then withdrawBm t else t)))) := by
  intro c t
  have hcap : withdrawShort t =
      withdrawMore 64 (if c < 1000 * t.resTotal ∧ t.flag RING_CAP_BM = false ∧ t.bmBaskets ≠ [] then withdrawBm t else t) := by
    simp only [withdrawShort, Bool.not_eq_true']
    rfl
  exact settled_congr hcap

theorem withdrawMore_of_fits {s : State} (n : Nat) (h : 1000 * s.resTotal ≤ s.cap) : withdrawMore (n + 1) s = s := if_pos h

theorem withdrawMore_of_short {s : State} (n : Nat) (h : s.cap < 1000 * s.resTotal) :
    withdrawMore (n + 1) s = match s.nextTmd with | some b => withdrawMore n (withdrawTmd b s) | none => s := by
  refine (if_neg (Nat.not_le.2 h)).trans ?_
  cases s.nextTmd <;> rfl

/-- Basket `b`'s TIMED reservation is one that could be withdrawn: there is one, and it is in force. -/
def State.holdsTmd (s : State) (b : Nat) : Prop := b < 64 ∧ s.flag (mapBit RING_DEG_MAP b) = false ∧ s.get (RING_BSK_RES0_RES_TMD b) ≠ 0

/-- The baskets of such reservations, the highest number first, as `nextTmd` searches them. -/
def State.tmdBaskets (s : State) : List Nat :=
  (List.range 64).reverse.filter fun b => !s.flag (mapBit RING_DEG_MAP b) && s.get (RING_BSK_RES0_RES_TMD b) != 0

theorem nextTmd_eq (s : State) :
    s.nextTmd = s.tmdBaskets.find? fun b => s.tmdBaskets.all fun d => decide (s.get (RING_BSK_CFG_PRIO b) ≤ s.get (RING_BSK_CFG_PRIO d)) := rfl

theorem mem_tmdBaskets_iff (s : State) (b : Nat) : b ∈ s.tmdBaskets ↔ s.holdsTmd b := by
  simp only [State.tmdBaskets, State.holdsTmd, List.mem_filter, List.mem_reverse, List.mem_range, Bool.and_eq_true, Bool.not_eq_true', bne_iff_ne]

/-- The basket that goes next has such a reservation, and none that has one has a lower PRIO (R251). -/
theorem holdsTmd_of_nextTmd {s : State} {b : Nat} (h : s.nextTmd = some b) :
    s.holdsTmd b ∧ ∀ d, s.holdsTmd d → s.get (RING_BSK_CFG_PRIO b) ≤ s.get (RING_BSK_CFG_PRIO d) := by
  rw [nextTmd_eq] at h
  have hall := List.find?_some h
  have hleast := List.all_eq_true.1 hall
  exact ⟨(mem_tmdBaskets_iff s b).1 (List.mem_of_find?_eq_some h), fun d hd => of_decide_eq_true (hleast d ((mem_tmdBaskets_iff s d).2 hd))⟩

/-- What the step of withdrawal `w` took out of force: a basket's TIMED reservation, or for 64 every BULK and MAINT one (R251). -/
def State.stepTaken (s : State) (w : Nat) : Nat :=
  if w = 64 then ((List.range 64).map fun b => s.get (RING_BSK_RES1_RES_BLK b) + s.get (RING_BSK_RES1_RES_MNT b)).sum
  else s.get (RING_BSK_RES0_RES_TMD w)

section
variable {s : State} {w : Nat} {l : List Nat} (h : s.withdrawn = w :: l)
include h

theorem reservationRestore_of_short (hc : 100 * s.cap < 105 * 1000 * (s.resTotal + s.stepTaken w)) : exec .reservationRestore s = .next s := by
  simp only [exec, execReservationRestore, h]
  exact if_neg (Nat.not_le.2 hc)

variable (hc : 105 * 1000 * (s.resTotal + s.stepTaken w) ≤ 100 * s.cap)
include hc

/-- Where 105 percent of the total with the step fits, the step withdrawn last is restored (R252). -/
theorem reservationRestore_of_fits :
    exec .reservationRestore s =
      let t := { s with withdrawn := l }.put (RING_EVENT_DEG_DOWN 0) 1
      .next (deliver s (settleAll
        (if w = 64 then eachDo t.bmBaskets (fun b u => raiseFault (srcRing b) .resRestored (some b) 0x102 u) (t.put RING_CAP_BM 0)
          else raiseFault (srcRing w) .resRestored (some w) 1 (countDeg (t.put (mapBit RING_DEG_MAP w) 0))))) := by
  simp only [exec, execReservationRestore, h]
  exact (if_pos hc).trans (settled_ite _ _ _ _)

end

/-! ## The peaks -/

theorem armPeakWrite_of_basket {s : State} {m b : Nat} (hb : b < 64) (h : s.opens m (RING_BSK_PEAK b) false) :
    exec (.armPeakWrite m (some b)) s = .next (deliver s (s.put (RING_BSK_PEAK_PEAK b) (s.get (RING_BSK_ARM_HELD b)))) :=
  (if_pos hb).trans (done_congr (gateWrite_of_opens h _))

theorem armPeakWrite_of_total {s : State} {m : Nat} (h : s.opens m RING_ARM_TOTAL true) :
    exec (.armPeakWrite m none) s = .next (deliver s (s.put RING_ARM_TOTAL_PEAK (s.get RING_ARM_TOTAL_HELD))) :=
  done_congr (gateWrite_of_opens h _)

/-- Settles O38: a doorbell by whose ring it is and how far its index moves, credits by whether they may leave, and the withdrawals and restorations
by what fits the capacity. -/
theorem doorbellsCreditsCapacity : Obligations.DoorbellsCreditsCapacity := by
  unfold Obligations.DoorbellsCreditsCapacity
  intro s
  refine ⟨fun m v h => ?_, fun r j hj => ⟨creditSend_of_owed hj, creditSend_of_none hj⟩, fun x l => capacityMeasure_eq x l s,
    fun n => ⟨withdrawMore_of_fits n, withdrawMore_of_short n⟩, fun b hb => ?_, fun w l h => ?_, fun m b hb => armPeakWrite_of_basket hb,
    fun m => armPeakWrite_of_total⟩
  · exact ⟨fun hm => ringDoorbell_of_opens h (doorbell_of_foreign hm), fun hm hi => ringDoorbell_of_opens h (doorbell_of_beyond hm hi),
      fun hm hi hk => ringDoorbell_of_opens h (doorbell_of_hostRing hm hi hk),
      fun hm hi hk => ringDoorbell_of_opens h (doorbell_of_completionRing hm hi hk)⟩
  · obtain ⟨⟨hlt, hforce, hres⟩, hleast⟩ := holdsTmd_of_nextTmd hb
    exact ⟨hlt, hforce, hres, fun d hd hdf hdr => hleast d ⟨hd, hdf, hdr⟩⟩
  · exact ⟨fun hc hw => (reservationRestore_of_fits h hc).trans (settled_congr (if_neg hw)),
      fun hc hw => (reservationRestore_of_fits h hc).trans (settled_congr (if_pos hw)), reservationRestore_of_short h⟩

end Sys2Proof.Machine

/-! How a lane departs, and what the keeper's commands for lanes do. -/

namespace Sys2Proof.Machine

/-! ## RET -/

theorem retirable_iff (s : State) (p : Nat) :
    s.retirable p = true ↔ 2 ≤ s.get (LANE_STATUS_PHASE p) ∧ s.get (LANE_STATUS_PHASE p) ≤ 5 := by
  simp only [State.retirable, Bool.and_eq_true, decide_eq_true_eq]
  rfl

/-- A reason that R279 does not list reads as 1. -/
theorem retReason_eq (w : Nat) : retReason w = if w ∈ [1, 2, 3, 4, 5, 6, 7, 8, 9, 10, 11, 13] then w else 1 :=
  if_congr List.contains_iff_mem rfl rfl

section
variable {s : State} {p w : Nat} (hp : p < 108)
include hp

theorem retReceive_of_stalled (h : (s.link (s.linkOf p)).stalled.isSome = true) : exec (.retReceive p w) s = .next s := if_pos ⟨hp, h⟩

section
variable (hs : (s.link (s.linkOf p)).stalled = none)
include hs

/-- The first copy of RET is only noted (R265). -/
theorem retReceive_of_first (hh : (s.lane p).heard ≠ some (.ret w)) (h2 : 2 ≤ s.get (LANE_STATUS_PHASE p)) (h6 : s.get (LANE_STATUS_PHASE p) ≤ 6) :
    exec (.retReceive p w) s = .next (deliver s (s.setLane p { (s.lane p) with heard := some (.ret w) })) := by
  have hwaits : ¬(p < 108 ∧ (s.link (s.linkOf p)).stalled.isSome = true) := by simp [hs]
  have hfirst : (!s.heard p (.ret w)) = true := by rwa [Bool.not_eq_true', ← Bool.not_eq_true, heard_iff]
  have hphase : s.retirable p = true ∨ s.get (LANE_STATUS_PHASE p) = 6 := by
    rw [retirable_iff]
    omega
  exact (if_neg hwaits).trans (if_pos ⟨hp, hphase, hfirst⟩)

variable (hh : (s.lane p).heard = some (.ret w))
include hh

/-- The second copy acts by the lane's phase (R265, R271). -/
theorem retReceive_of_second :
    exec (.retReceive p w) s =
      let l := s.linkOf p
      let why := retReason w
      if s.retirable p = true then
        if (s.link l).episode.isSome = true then .next (deliver s (s.setLink l { (s.link l) with retLater := some why }))
        else if s.get (LANE_STATUS_PHASE p) = 3 ∧ 2 ≤ why ∧ why ≤ 9 then
          .next (deliver s (enterRetire p why true ((s.incSat (LANE_CNT0_TRAIN_FAIL p)).setLane p { (s.lane p) with hold := true })))
        else .next (deliver s (settleAll (retireLink l why true s)))
      else if s.get (LANE_STATUS_PHASE p) = 6 then
        .next (deliver s (eachDo (s.linkLanes l) (fun q t =>
          ((t.setLane q { (t.lane q) with retFar := true }).put (LANE_RET_REASON q) why).put (LANE_RET_BY_FAR q) 1) s))
      else .next s := by
  have hwaits : ¬(p < 108 ∧ (s.link (s.linkOf p)).stalled.isSome = true) := by simp [hs]
  have hsecond : ¬(p < 108 ∧ (s.retirable p = true ∨ s.get (LANE_STATUS_PHASE p) = 6) ∧ (!s.heard p (.ret w)) = true) := by
    simp [(heard_iff s p _).2 hh]
  refine (if_neg hwaits).trans ((if_neg hsecond).trans ?_)
  simp only [hp, true_and]
  rfl

/-- RETIRE under way, the reason is noted on every lane of the link (R279). -/
theorem retReceive_of_retire (hph : s.get (LANE_STATUS_PHASE p) = 6) :
    exec (.retReceive p w) s = .next (deliver s (eachDo (s.linkLanes (s.linkOf p)) (fun q t =>
      ((t.setLane q { (t.lane q) with retFar := true }).put (LANE_RET_REASON q) (retReason w)).put (LANE_RET_BY_FAR q) 1) s)) := by
  have hno : ¬s.retirable p = true := by
    rw [retirable_iff]
    omega
  exact (retReceive_of_second hp hs hh).trans ((if_neg hno).trans (if_pos hph))

variable (h2 : 2 ≤ s.get (LANE_STATUS_PHASE p)) (h5 : s.get (LANE_STATUS_PHASE p) ≤ 5)
include h2 h5

/-- During a replay episode RET waits for its end (R281). -/
theorem retReceive_of_episode (he : (s.link (s.linkOf p)).episode.isSome = true) :
    exec (.retReceive p w) s =
      .next (deliver s (s.setLink (s.linkOf p) { (s.link (s.linkOf p)) with retLater := some (retReason w) })) :=
  (retReceive_of_second hp hs hh).trans ((if_pos ((retirable_iff s p).2 ⟨h2, h5⟩)).trans (if_pos he))

variable (he : (s.link (s.linkOf p)).episode = none)
include he

/-- A refusal in NEGOTIATE holds the lane (R276). -/
theorem retReceive_of_refusal (h3 : s.get (LANE_STATUS_PHASE p) = 3) (hlo : 2 ≤ retReason w) (hhi : retReason w ≤ 9) :
    exec (.retReceive p w) s = .next (deliver s
      (enterRetire p (retReason w) true ((s.incSat (LANE_CNT0_TRAIN_FAIL p)).setLane p { (s.lane p) with hold := true }))) := by
  have hquiet : ¬(s.link (s.linkOf p)).episode.isSome = true := by simp [he]
  exact (retReceive_of_second hp hs hh).trans ((if_pos ((retirable_iff s p).2 ⟨h2, h5⟩)).trans ((if_neg hquiet).trans (if_pos ⟨h3, hlo, hhi⟩)))

/-- Otherwise the link enters RETIRE by the far end's reason (R279). -/
theorem retReceive_of_departure (hno : s.get (LANE_STATUS_PHASE p) ≠ 3 ∨ retReason w < 2 ∨ 9 < retReason w) :
    exec (.retReceive p w) s = .next (deliver s (settleAll (retireLink (s.linkOf p) (retReason w) true s))) := by
  have hquiet : ¬(s.link (s.linkOf p)).episode.isSome = true := by simp [he]
  have hrefusal : ¬(s.get (LANE_STATUS_PHASE p) = 3 ∧ 2 ≤ retReason w ∧ retReason w ≤ 9) := by omega
  exact (retReceive_of_second hp hs hh).trans ((if_pos ((retirable_iff s p).2 ⟨h2, h5⟩)).trans ((if_neg hquiet).trans (if_neg hrefusal)))

end

/-! ## The end of RETIRE -/

theorem retireComplete_of_retire (hph : s.get (LANE_STATUS_PHASE p) = 6) :
    exec (.retireComplete p) s = .next (deliver s (settleAll (linkDown true (s.linkOf p) s))) := if_pos ⟨hp, hph⟩

end

/-! ## LANE_CMD -/

/-- The lanes of handle `h`'s range and its group's spare, which SUBSTITUTE takes down (R278). -/
def State.substituted (s : State) (h : Nat) : List Nat := ((List.range (s.boundWidth h)).map fun i => s.rangeFirst h + i) ++ [s.groupSpare h]

/-- A lane that retrains alone takes its link down, without a departure (R271). -/
theorem retrainLanes_singleton {s : State} {p : Nat} (h : s.get (LANE_STATUS_PHASE p) ≠ 7) : retrainLanes [p] s = linkDown false (s.linkOf p) s :=
  congrArg afterLoss (if_neg h)

section
variable {s : State} {m p : Nat} (h : s.opens m LANE_CMD true)
include h

/-- A LANE_CMD that goes through does what its command answers, or is ignored and sets CMD_REJ. -/
theorem laneCmd_of_opens (f : State → Option State) : laneCmd m f s = (f s).getD (s.put (LANE_EVENT_CMD_REJ (copyOf m)) 1) := gateWrite_of_opens h _

theorem retrain_of_opens (hp : p < 108) :
    exec (.retrain m p) s = .next (deliver s (settleAll
      (if s.get (LANE_STATUS_PHASE p) = 7 then s.put (LANE_EVENT_CMD_REJ (copyOf m)) 1 else linkDown false (s.linkOf p) s))) := by
  refine settled_congr ((laneCmd_of_opens h _).trans ?_)
  by_cases hoff : s.get (LANE_STATUS_PHASE p) = 7
  · have hno : doRetrain p s = none := if_neg fun hc => hc.2 hoff
    rw [hno, if_pos hoff, Option.getD_none]
  · have hyes : doRetrain p s = some (retrainLanes [p] s) := if_pos ⟨hp, hoff⟩
    rw [hyes, if_neg hoff, Option.getD_some, retrainLanes_singleton hoff]

theorem laneRetire_of_opens (hp : p < 108) :
    exec (.laneRetire m p) s = .next (deliver s (settleAll
      (if 2 ≤ s.get (LANE_STATUS_PHASE p) ∧ s.get (LANE_STATUS_PHASE p) ≤ 5 then retireLink (s.linkOf p) 0x0B false s
        else s.put (LANE_EVENT_CMD_REJ (copyOf m)) 1))) := by
  refine settled_congr ((laneCmd_of_opens h _).trans ?_)
  by_cases hr : s.retirable p = true
  · have hyes : doRetire p s = some (retireLink (s.linkOf p) 0x0B false s) := if_pos ⟨hp, hr⟩
    rw [hyes, if_pos ((retirable_iff s p).1 hr), Option.getD_some]
  · have hno : doRetire p s = none := if_neg fun hc => hr hc.2
    rw [hno, if_neg ((retirable_iff s p).not.1 hr), Option.getD_none]

theorem substitute_of_spare {g : Nat} (hp : p < 108) (hg : s.handleOf p = some g) (hspare : s.flag (LANE_PTN_BIND_SPARE g) = true) :
    exec (.substitute m p) s =
      let t := s.setLane p { (s.lane p) with replaced := true }
      let t := if s.get (LANE_STATUS_HANDLE p) = g then linkDown false (s.linkOf p) t else t
      .next (deliver s (settleAll
        (eachDo ((s.substituted g).filter fun q => t.get (LANE_STATUS_PHASE q) != 7 && t.get (LANE_STATUS_PHASE q) != 0) (linkDown false) t))) := by
  refine settled_congr ((laneCmd_of_opens h _).trans ?_)
  simp only [doSubstitute, hg, hp, hspare, and_self, if_true, Option.getD_some]
  rfl

theorem substitute_of_unbound (hg : s.handleOf p = none) :
    exec (.substitute m p) s = .next (deliver s (settleAll (s.put (LANE_EVENT_CMD_REJ (copyOf m)) 1))) := by
  refine settled_congr ((laneCmd_of_opens h _).trans ?_)
  simp only [doSubstitute, hg, Option.getD_none]

end

/-- Settles O41: RET by its copy and by the phase of the lane, the two ends of waiting, and each command of LANE_CMD by what the lane allows. -/
theorem laneDepartures : Obligations.LaneDepartures := by
  unfold Obligations.LaneDepartures
  intro s p hp
  refine ⟨fun w => retReceive_of_stalled hp, fun w hs => retReceive_of_first hp hs, fun w hs hh => ?_, retireComplete_of_retire hp, fun ps => rfl,
    fun m h => ⟨retrain_of_opens h hp, laneRetire_of_opens h hp, fun g => substitute_of_spare h hp, substitute_of_unbound h⟩⟩
  rw [← retReason_eq w]
  exact ⟨fun h2 h5 => ⟨retReceive_of_episode hp hs hh h2 h5, retReceive_of_refusal hp hs hh h2 h5, retReceive_of_departure hp hs hh h2 h5⟩,
    retReceive_of_retire hp hs hh⟩

end Sys2Proof.Machine

/-! What the keeper's commands for baskets do, and how the keeper attaches and detaches. -/

namespace Sys2Proof.Machine

/-! ## BSK_CMD -/

section
variable {s : State} {m : Nat} (h : s.opens m BSK_CMD true)
include h

section
variable {b : Nat} (hb : b < 64)
include hb

theorem clearFaulted_of_faulted (h3 : s.get (BSK_STATUS_STATE b) = 3) (hg : s.flag FC_STATUS_G_ACTIVE = false) :
    exec (.clearFaulted m b) s =
      let t := logInfo .keeperClear (some b) 0 (s.put (BSK_STATUS_STATE b) 2)
      .next (deliver s (settleAll (faultN (startQuiet b (t.put (FC_BSK_EVT_KEEPER_CLEAR b) 1))))) := by
  have hgo : s.get (BSK_STATUS_STATE b) = 3 ∧ (!s.flag FC_STATUS_G_ACTIVE) = true := ⟨h3, by rw [hg]; rfl⟩
  exact (if_pos hb).trans (settled_congr ((gateWrite_of_opens h _).trans (if_pos hgo)))

/-- A basket in another state, or under a class G fault, is left alone (R368, R382). -/
theorem clearFaulted_rejected (hno : s.get (BSK_STATUS_STATE b) ≠ 3 ∨ s.flag FC_STATUS_G_ACTIVE = true) :
    exec (.clearFaulted m b) s = .next (deliver s (settleAll (s.put BSK_EVENT_CMD_REJ 1))) := by
  have hstay : ¬(s.get (BSK_STATUS_STATE b) = 3 ∧ (!s.flag FC_STATUS_G_ACTIVE) = true) := by
    rintro ⟨h3, hg⟩
    rw [Bool.not_eq_true'] at hg
    exact hno.elim (· h3) fun hon => Bool.false_ne_true (hg.symm.trans hon)
  exact (if_pos hb).trans (settled_congr ((gateWrite_of_opens h _).trans (if_neg hstay)))

theorem clearRecov_of_opens :
    exec (.clearRecov m b) s =
      .next (deliver s ({ s with col := { s.col with recov := s.col.recov.filter fun r => r.1 != b } }.put (BSK_STATUS_RECOV b) 0)) :=
  (if_pos hb).trans (done_congr (gateWrite_of_opens h _))

end

theorem clearViol_of_opens : exec (.clearViol m) s = .next (deliver s (eachDo (List.range 66) (fun k t => t.setReg (BSK_VIOL k) 0) s)) :=
  done_congr (gateWrite_of_opens h _)

end

/-! ## BSK_KEEPER_CMD -/

section
variable {s : State} {m : Nat} (h : s.opens m BSK_KEEPER_CMD false)
include h

theorem challenge_refused (hr : s.keeper.refuse = true) : exec (.challenge m) s = .next (deliver s (s.put BSK_EVENT_CMD_REJ 1)) :=
  done_congr ((gateWrite_of_opens h _).trans (if_pos hr))

/-- The nonce is the free value's first twelve words (R329). -/
theorem challenge_accepted (hr : s.keeper.refuse = false) :
    exec (.challenge m) s =
      let t := { s with freeCtr := s.freeCtr + 1 }.put BSK_KEEPER_STATUS_NONCE_VALID 1
      .next (deliver s (eachDo (List.range 12) (fun j u => u.setReg (BSK_KEEPER_NONCE j) ((Config.freeWords s.freeCtr).getD j 0)) t)) :=
  done_congr ((gateWrite_of_opens h _).trans (if_neg (hr ▸ Bool.false_ne_true)))

section
variable {key : Nat} (hk : key < 4)
include hk

/-- The nonce is spent, and the response as it stands goes under verification (R328, R329). -/
theorem respond_accepted (hv : s.flag BSK_KEEPER_STATUS_NONCE_VALID = true) (h3 : s.get BSK_KEEPER_STATUS_STATE ≠ 3) :
    exec (.respond m key) s =
      let t := (dropNonce s).put BSK_KEEPER_STATUS_STATE 3
      .next (deliver s { t with keeper := { t.keeper with
        back := s.get BSK_KEEPER_STATUS_STATE, key := key, nonce := (List.range 12).map fun i => s.reg (BSK_KEEPER_NONCE i),
        resp := (List.range 24).map fun i => s.opnd (BSK_KEEPER_RESP i) } }) :=
  (if_pos hk).trans (done_congr ((gateWrite_of_opens h _).trans (if_pos ⟨hv, h3⟩)))

theorem respond_rejected (hno : s.flag BSK_KEEPER_STATUS_NONCE_VALID = false ∨ s.get BSK_KEEPER_STATUS_STATE = 3) :
    exec (.respond m key) s = .next (deliver s (s.put BSK_EVENT_CMD_REJ 1)) := by
  have hstay : ¬(s.flag BSK_KEEPER_STATUS_NONCE_VALID = true ∧ s.get BSK_KEEPER_STATUS_STATE ≠ 3) := fun ⟨hv, h3⟩ =>
    hno.elim (fun hoff => Bool.false_ne_true (hoff.symm.trans hv)) h3
  exact (if_pos hk).trans (done_congr ((gateWrite_of_opens h _).trans (if_neg hstay)))

end

theorem keeperDetach_of_attached (h1 : s.get BSK_KEEPER_STATUS_STATE = 1) (hl : s.get PLAN_STATUS_STATE = 0) :
    exec (.keeperDetach m) s = .next (deliver s (keeperState 0 s)) := done_congr ((gateWrite_of_opens h _).trans (if_pos ⟨h1, hl⟩))

theorem keeperDetach_rejected (hno : s.get BSK_KEEPER_STATUS_STATE ≠ 1 ∨ s.get PLAN_STATUS_STATE ≠ 0) :
    exec (.keeperDetach m) s = .next (deliver s (s.put BSK_EVENT_CMD_REJ 1)) :=
  done_congr ((gateWrite_of_opens h _).trans (if_neg (not_and_or.2 hno)))

end

/-! ## The end of a verification -/

section
variable {s : State} (h3 : s.get BSK_KEEPER_STATUS_STATE = 3)
include h3

/-- The PF is attached, and the completion rings are written again (R257, R329). -/
theorem keeperVerifyDone_of_good (hok : s.responseOk = true) :
    exec .keeperVerifyDone s =
      .next (deliver s { ((keeperState 1 s).put BSK_KEEPER_STATUS_KEY_ID s.keeper.key).put BSK_EVENT_ATTACHED 1 with cplHeld := false }) :=
  (if_pos h3).trans (if_pos hok)

/-- The credential goes back, and challenges are refused (R328, R329). -/
theorem keeperVerifyDone_of_bad (hok : s.responseOk = false) :
    exec .keeperVerifyDone s =
      let t := ((s.put BSK_KEEPER_STATUS_STATE s.keeper.back).incSat BSK_KEEPER_STATUS_FAILS).put BSK_EVENT_ATTACH_FAIL 1
      .next (deliver s { t with keeper := { t.keeper with refuse := true } }) :=
  (if_pos h3).trans (if_neg (hok ▸ Bool.false_ne_true))

end

/-- Settles O46: each command by what its state allows, and the end of a verification by the response. -/
theorem basketsAndKeeper : Obligations.BasketsAndKeeper := by
  unfold Obligations.BasketsAndKeeper
  intro s
  exact ⟨fun m b hb h => ⟨clearFaulted_of_faulted h hb, clearFaulted_rejected h hb, clearRecov_of_opens h hb, clearViol_of_opens h⟩,
    fun m h => ⟨challenge_refused h, challenge_accepted h, fun key hk => respond_accepted h hk, fun key hk => respond_rejected h hk,
      keeperDetach_of_attached h, keeperDetach_rejected h⟩,
    fun h3 => ⟨keeperVerifyDone_of_good h3, keeperVerifyDone_of_bad h3⟩, rfl, rfl, rfl, fun st => rfl⟩

end Sys2Proof.Machine

/-! What the resets of the link and of the functions do, and how virtual functions appear and go. -/

namespace Sys2Proof.Machine

/-! ## The link -/

section
variable {s : State}

theorem hotReset_of_link (h : s.host.link = true) :
    exec .hotReset s = .next (deliver s (settleAll (hostReset { s with host := { s.host with link := false } }))) := if_pos h

theorem pcieLinkL0_of_released (hr : 2 ≤ s.get DEV_SB_STATUS_STAGE) (hp : s.host.perst = false) :
    exec .pcieLinkL0 s = .next (deliver s { s with host := { s.host with link := true } }) := by
  have hup : s.released = true ∧ (!s.host.perst) = true := ⟨decide_eq_true hr, by rw [hp]; rfl⟩
  exact if_pos hup

/-! ## FLRs -/

theorem flrPf_of_cfgOk (h : s.cfgOk 0 = true) :
    exec .flrPf s = .next (deliver s (settleAll { pfReset s with host := { (pfReset s).host with flr := [0] } })) := if_pos h

theorem flrVf_of_cfgOk {k : Nat} (hk : 1 ≤ k) (h : s.cfgOk k = true) :
    exec (.flrVf k) s =
      let t := vfReset k s
      .next (deliver s (settleAll ({ t with host := { t.host with flr := k :: t.host.flr } }.put (BSK_STATUS_FLR (k - 1)) 1))) := if_pos ⟨hk, h⟩

theorem flrComplete_of_mem {k : Nat} (h : k ∈ s.host.flr) :
    exec (.flrComplete k) s =
      let t := { s with host := { s.host with flr := s.host.flr.filter (· != k) } }
      .next (deliver s (if k = 0 then t else t.put (BSK_STATUS_FLR (k - 1)) 0)) := if_pos (List.contains_iff_mem.2 h)

/-! ## VF Enable -/

section
variable {n : Nat} (h : s.cfgOk 0 = true)
include h

theorem vfEnableSet_of_none (h0 : s.host.vfs = 0) (h1 : 1 ≤ n) (hn : n ≤ if s.small then 32 else 64) :
    exec (.vfEnableSet n) s = .next (deliver s
      (eachDo (List.range n) (fun b u => u.put (BSK_STATUS_VF_EN b) 1) { s with host := { s.host with vfs := n } })) := if_pos ⟨h, h0, h1, hn⟩

theorem vfEnableClear_of_lt (hn : n < s.host.vfs) :
    exec (.vfEnableClear n) s =
      let gone := ((List.range s.host.vfs).filter fun i => n ≤ i).map (· + 1)
      let t := eachDo gone (fun k u => ((vfReset k u).put (BSK_STATUS_VF_EN (k - 1)) 0).put (BSK_STATUS_FLR (k - 1)) 0) s
      .next (deliver s (settleAll { t with host := { t.host with vfs := n, flr := t.host.flr.filter fun k => !gone.contains k } })) := if_pos ⟨h, hn⟩

end

end

/-! ## What the resets are made of -/

/-- A hop that a host sent: a reset of every function aborts it (R344). -/
def hostHop (h : Hop) : Bool := match h.src with | .host _ => true | .lane _ => false

/-- A reset of every function, part by part (R257, R304, R344). -/
theorem pfReset_eq (s : State) :
    let t := eachDo ((List.range 65).filter s.fnExists) functionReset s
    let t := { t with host := { t.host with vfs := 0, flr := [] } }
    let t := eachDo (List.range 64) (fun b u => (u.put (BSK_STATUS_VF_EN b) 0).put (BSK_STATUS_FLR b) 0) t
    let t := abortHops true hostHop t
    let t := eachDo (t.rings.filter fun r => t.get (RING_DESC1_KIND r) != 2) resetRing t
    pfReset s = keeperLost (abortLoad 0x81 { t with cplHeld := true }) := rfl

/-- Settles O47: each event of the link and of a function where its conditions hold, and what the two resets are made of. -/
theorem hostResets : Obligations.HostResets := by
  unfold Obligations.HostResets
  intro s
  exact ⟨rfl, rfl, hotReset_of_link, pcieLinkL0_of_released, flrPf_of_cfgOk, fun k => flrVf_of_cfgOk, fun k => flrComplete_of_mem,
    fun n => vfEnableSet_of_none, fun n => vfEnableClear_of_lt, pfReset_eq s, fun k => rfl⟩

end Sys2Proof.Machine

/-! What a mailbox sends to a partner, how its message ends, and how a partner's own messages enter a mailbox and leave it. -/

namespace Sys2Proof.Machine

@[simp] theorem setBox_reg (s : State) (c : Nat) (x : Mailbox) (a : Nat) : (s.setBox c x).reg a = s.reg a := rfl

/-! ## GO -/

theorem bitsAt_top_eq_zero_iff (v : Word) : bitsAt v 31 1 = 0 ↔ v.toNat < 2 ^ 31 := by
  have htop := bitsAt_top_iff v
  have hlt : bitsAt v 31 1 < 2 := bitsAt_lt v 31 1
  omega

/-- Mailbox `c` is BUSY with a message to partner `h` (R285). -/
def mailboxBusy (c h : Nat) (s : State) : State := (s.put (LANE_PCTL_STATUS_BUSY c) 1).setBox c { (s.box c) with dest := some h, late := false }

theorem reg_mailboxBusy {c a : Nat} (h : Nat) (s : State) (ha : a ≠ LANE_PCTL_STATUS c) : (mailboxBusy c h s).reg a = s.reg a := by
  rw [mailboxBusy, setBox_reg]
  exact reg_put_ne _ _ _ _ ha

/-- The status of a mailbox shares no word with what the hub shows of a partner. -/
theorem get_first_mailboxBusy (c h g : Nat) (s : State) : (mailboxBusy c h s).get (LANE_PTN_STATUS_FIRST g) = s.get (LANE_PTN_STATUS_FIRST g) := by
  have hne : (LANE_PTN_STATUS_FIRST g).reg ≠ LANE_PCTL_STATUS c := by
    simp only [LANE_PTN_STATUS_FIRST, LANE_PTN_STATUS, LANE_PCTL_STATUS]
    omega
  rw [State.get, reg_mailboxBusy h s hne, State.get]

section
variable {s : State} {c : Nat} {v : Word}

theorem pctlGo_without_go (hv : v.toNat < 2 ^ 31) : pctlGo c v s = s := if_pos ((bitsAt_top_eq_zero_iff v).2 hv)

variable (hv : 2 ^ 31 ≤ v.toNat)
include hv

theorem pctlGo_of_busy (hb : s.flag (LANE_PCTL_STATUS_BUSY c) = true) : pctlGo c v s = s.put (LANE_EVENT_CMD_REJ c) 1 :=
  (if_neg ((bitsAt_top_eq_zero_iff v).not.2 (Nat.not_lt.2 hv))).trans (if_pos hb)

variable (hb : s.flag (LANE_PCTL_STATUS_BUSY c) = false)
include hb

/-- With GO, and no message under way, the partner that the low 7 bits name decides. -/
theorem pctlGo_of_idle :
    pctlGo c v s =
      let h := v.toNat % 128
      let t := mailboxBusy c h s
      if !(s.ownPartner c h && s.sourceActive h) then
        ((if (s.handleBasket h).isSome && !s.ownPartner c h then countForeign c s else s).put (LANE_PCTL_STATUS_REJ c) 1).put (LANE_EVENT_PCTL_DONE c) 1
      else sendFrame (t.get (LANE_PTN_STATUS_FIRST h)) (.pctl (t.reg (LANE_PCTL_TX0 c)) (t.reg (LANE_PCTL_TX1 c))) { t with pctl := t.pctl ++ [(h, c)] } := by
  have hh : bitsAt v 0 7 = v.toNat % 128 := bitsAt_zero v 7
  have hfree : ¬s.flag (LANE_PCTL_STATUS_BUSY c) = true := hb ▸ Bool.false_ne_true
  refine (if_neg ((bitsAt_top_eq_zero_iff v).not.2 (Nat.not_lt.2 hv))).trans ((if_neg hfree).trans ?_)
  rw [hh]
  rfl

theorem pctlGo_refused (hno : s.ownPartner c (v.toNat % 128) = false ∨ s.sourceActive (v.toNat % 128) = false) :
    pctlGo c v s =
      let h := v.toNat % 128
      let t := if (s.handleBasket h).isSome = true ∧ s.ownPartner c h = false then countForeign c s else s
      (t.put (LANE_PCTL_STATUS_REJ c) 1).put (LANE_EVENT_PCTL_DONE c) 1 := by
  have hrej : (!(s.ownPartner c (v.toNat % 128) && s.sourceActive (v.toNat % 128))) = true := by
    rwa [Bool.not_eq_true', Bool.and_eq_false_iff]
  refine (pctlGo_of_idle hv hb).trans ((if_pos hrej).trans ?_)
  simp only [Bool.and_eq_true, Bool.not_eq_true']

theorem pctlGo_sent (hown : s.ownPartner c (v.toNat % 128) = true) (hact : s.sourceActive (v.toNat % 128) = true) :
    pctlGo c v s =
      let h := v.toNat % 128
      let t := mailboxBusy c h s
      sendFrame (s.get (LANE_PTN_STATUS_FIRST h)) (.pctl (s.reg (LANE_PCTL_TX0 c)) (s.reg (LANE_PCTL_TX1 c))) { t with pctl := t.pctl ++ [(h, c)] } := by
  have hgo : ¬(!(s.ownPartner c (v.toNat % 128) && s.sourceActive (v.toNat % 128))) = true := by
    rw [hown, hact]
    decide
  have htx0 : LANE_PCTL_TX0 c ≠ LANE_PCTL_STATUS c := by
    simp only [LANE_PCTL_TX0, LANE_PCTL_STATUS]
    omega
  have htx1 : LANE_PCTL_TX1 c ≠ LANE_PCTL_STATUS c := by
    simp only [LANE_PCTL_TX1, LANE_PCTL_STATUS]
    omega
  refine (pctlGo_of_idle hv hb).trans ((if_neg hgo).trans ?_)
  rw [get_first_mailboxBusy, reg_mailboxBusy _ _ htx0, reg_mailboxBusy _ _ htx1]

end

/-- A write of LANE_PCTL_CTRL that goes through keeps its reserved bits, and then does what its GO finds. -/
theorem pctlSend_of_opens {s : State} {m : Nat} (h : s.opens m (LANE_PCTL_CTRL (copyOf m)) false) {v : Word} {t : State}
    (ht : pctlGo (copyOf m) v (keepRsvl m (LANE_PCTL_CTRL (copyOf m)) v s) = t) : exec (.pctlSend m v) s = .next (deliver s t) :=
  done_congr ((gateWrite_of_opens h _).trans ht)

/-! ## A partner's acknowledgement -/

@[simp] theorem takeFrame_pctl (h : Nat) (s : State) : (takeFrame h s).pctl = s.pctl := rfl

theorem any_late_iff (l : List (Nat × Mailbox)) (h : Nat) :
    (l.any fun e => e.2.dest == some h && e.2.late) = true ↔ ∃ e ∈ l, e.2.dest = some h ∧ e.2.late = true := by
  simp only [List.any_eq_true, Bool.and_eq_true, beq_iff_eq]

/-- Mailbox `c`'s message to partner `h` has ended with the partner's status `st`: it waits no longer, and is DONE (R285). -/
def messageDone (h c st : Nat) (t : State) : State :=
  let u := { t with pctl := t.pctl.eraseP fun e => e.1 == h }.setBox c { (t.box c) with dest := none }
  (((u.put (LANE_PCTL_STATUS_BUSY c) 0).put (LANE_PCTL_STATUS_DONE c) 1).put (LANE_PCTL_STATUS_ACK_ST c) st).put (LANE_EVENT_PCTL_DONE c) 1

section
variable {s : State} {h : Nat} (hp : s.partnerThere h = true)
include hp

section
variable {st : Nat}

/-- After a TIMEOUT the partner's ACK is taken off the lane and discarded (R286). -/
theorem pctlAckReceive_of_late (hl : ∃ e ∈ s.boxes, e.2.dest = some h ∧ e.2.late = true) :
    exec (.pctlAckReceive h st) s = .next (deliver s (takeFrame h s)) := (if_pos hp).trans (if_pos ((any_late_iff _ h).2 hl))

variable (hl : ∀ e ∈ s.boxes, ¬(e.2.dest = some h ∧ e.2.late = true))
include hl

/-- Otherwise it ends the oldest message that waits for it, if there is one. -/
theorem pctlAckReceive_of_not_late :
    exec (.pctlAckReceive h st) s = .next (deliver s
      (match s.pctl.find? fun e => e.1 == h with
        | some (_, c) => messageDone h c st (takeFrame h s)
        | none => takeFrame h s)) := by
  have hnot : ¬((takeFrame h s).boxes.any fun e => e.2.dest == some h && e.2.late) = true := fun hany => by
    obtain ⟨e, he, hlate⟩ := (any_late_iff _ h).1 hany
    exact hl e he hlate
  refine (if_pos hp).trans ((if_neg hnot).trans ?_)
  rw [takeFrame_pctl]
  cases s.pctl.find? fun e => e.1 == h <;> rfl

theorem pctlAckReceive_of_none (hc : s.pctl.find? (fun e => e.1 == h) = none) :
    exec (.pctlAckReceive h st) s = .next (deliver s (takeFrame h s)) := by rw [pctlAckReceive_of_not_late hp hl, hc]

theorem pctlAckReceive_of_waiting {c : Nat} (hc : s.pctl.find? (fun e => e.1 == h) = some (h, c)) :
    exec (.pctlAckReceive h st) s = .next (deliver s (messageDone h c st (takeFrame h s))) := by rw [pctlAckReceive_of_not_late hp hl, hc]

end

/-! ## A partner's own messages -/

/-- The mailbox that partner `h`'s messages enter: that of its basket's VF, the PF's where that VF is not enabled (R285). -/
def State.mailboxFor (s : State) (h : Nat) : Nat :=
  let f := (s.handleBasket h).getD 0 + 1
  if f ≤ s.host.vfs then f else 0

variable {d0 d1 : Word} (hd : d0.toNat % 256 ≠ 0x7F)
include hd

/-- Only a message whose type is not that of an ACK is one of the partner's own. -/
theorem pctlRx_of_there :
    exec (.pctlRx h d0 d1) s =
      let t := takeFrame h s
      let c := s.mailboxFor h
      if 16 ≤ (s.box c).rx.length then .next (deliver s (t.incSat (LANE_PCTL_STATUS_RX_LOST c)))
      else .next (deliver s (presentRx c (t.setBox c { (t.box c) with rx := (t.box c).rx ++ [(h, d0, d1)] }))) := by
  have htype : bitsAt d0 0 8 ≠ 0x7F := by
    rw [bitsAt_zero]
    exact hd
  exact if_pos ⟨hp, htype⟩

end

/-! ## The ends of waiting, and what LANE_PCTL_RX presents -/

section
variable {s : State} {c : Nat}

theorem pctlTimeout_of_waiting {h : Nat} (hd : (s.box c).dest = some h) (hl : (s.box c).late = false)
    (he : (s.link (s.get (LANE_PTN_STATUS_FIRST h))).episode = none) :
    exec (.pctlTimeout c) s =
      let t := (s.setBox c { (s.box c) with late := true }).put (LANE_PCTL_STATUS_TIMEOUT c) 1
      .next (deliver s ({ t with pctl := t.pctl.filter fun e => !(e.1 == h && e.2 == c) }.put (LANE_EVENT_PCTL_DONE c) 1)) := by
  have hdue : (!(s.box c).late && (s.link (s.get (LANE_PTN_STATUS_FIRST h))).episode.isNone) = true := by
    rw [hl, he]
    rfl
  simp only [exec, execPctlTimeout, hd]
  exact if_pos hdue

theorem pctlBusyEnd_of_late (hl : (s.box c).late = true) :
    exec (.pctlBusyEnd c) s =
      .next (deliver s ((s.setBox c { (s.box c) with dest := none, late := false }).put (LANE_PCTL_STATUS_BUSY c) 0)) := if_pos hl

theorem presentRx_of_nil (hr : (s.box c).rx = []) : presentRx c s = s.put (LANE_PCTL_RX_INFO_VALID c) 0 := by rw [presentRx, hr, lower_eq_put]

theorem presentRx_of_cons {h : Nat} {d0 d1 : Word} {l : List (Nat × Word × Word)} (hr : (s.box c).rx = (h, d0, d1) :: l) :
    presentRx c s =
      ((((s.setReg (LANE_PCTL_RX0 c) d0).setReg (LANE_PCTL_RX1 c) d1).put (LANE_PCTL_RX_INFO_HANDLE c) h).put (LANE_PCTL_RX_INFO_VALID c) 1).put
        (LANE_EVENT_PCTL_RX c) 1 := by
  simp only [presentRx, hr, raise_eq_put]

end

theorem pctlRxRelease_of_opens {s : State} {m : Nat} (h : s.opens m (LANE_PCTL_RX_INFO (copyOf m)) false) :
    exec (.pctlRxRelease m) s =
      let c := copyOf m
      .next (deliver s (presentRx c (s.setBox c { (s.box c) with rx := (s.box c).rx.drop 1 }))) := done_congr (gateWrite_of_opens h _)

/-- Settles O42: a write of LANE_PCTL_CTRL by what its GO finds, an ACK by whether it is late and by what waits for it, another message by the
room in its mailbox, then the two ends of waiting, the release, and what is presented. -/
theorem partnerControl : Obligations.PartnerControl := by
  unfold Obligations.PartnerControl
  intro s
  refine ⟨fun m v h => ?_,
    fun h st hp => ⟨pctlAckReceive_of_late hp, fun hl => ⟨pctlAckReceive_of_none hp hl, fun c => pctlAckReceive_of_waiting hp hl⟩⟩,
    fun h d0 d1 hp hd => ⟨fun hf => (pctlRx_of_there hp hd).trans (if_pos hf),
      fun hf => (pctlRx_of_there hp hd).trans (if_neg (Nat.not_le.2 hf))⟩, fun c h => pctlTimeout_of_waiting, fun c => pctlBusyEnd_of_late,
    fun m h _ => pctlRxRelease_of_opens h, fun c => ⟨presentRx_of_nil, fun h d0 d1 l => presentRx_of_cons⟩⟩
  exact ⟨fun hv => pctlSend_of_opens h (pctlGo_without_go hv), fun hv hb => pctlSend_of_opens h (pctlGo_of_busy hv hb),
    fun hv hb hno => pctlSend_of_opens h (pctlGo_refused hv hb hno), fun hv hb hown hact => pctlSend_of_opens h (pctlGo_sent hv hb hown hact)⟩

end Sys2Proof.Machine

/-! What holds along every command and step: an answer, the fuses, and the life cycle that the fuses name. -/

namespace Sys2Proof.Machine

/-! ## Every command answers -/

/-- Settles O4: the next state that `exec_keeps` gives has the queue, the record of what was sent, and the count of free values. -/
theorem everyCommandAnswers : Obligations.EveryCommandAnswers := by
  unfold Obligations.EveryCommandAnswers
  intro c s
  obtain ⟨t, ht, hk⟩ := exec_keeps c (Keeps.refl s)
  exact ⟨t, ht, hk.pend, hk.sent, hk.free⟩

/-- Settles O1: `step` takes the command off the front, and no word decodes to a command. -/
theorem stepRunsFront : Obligations.StepRunsFront := by
  unfold Obligations.StepRunsFront
  exact ⟨fun c r s => rfl, fun n w s => rfl⟩

/-! ## Fuses stay blown -/

/-- The queue has no part in what is blown. -/
theorem blown_step {s t : State} (h : step s = .next t) {w i : Nat} (hb : s.blown w i) : t.blown w i := (keeps_of_step h).fuse w i hb

/-- Settles O7: `Keeps` relates the step's next state to the state before it. -/
theorem stepKeepsBlownFuses : Obligations.StepKeepsBlownFuses := by
  unfold Obligations.StepKeepsBlownFuses
  exact fun s t h w i => blown_step h

/-! ## The life cycle that the fuses name -/

/-- Bit `b` of the life-cycle field counts as blown: either copy reads it so (R428). -/
def State.lcBlown (s : State) (b : Nat) : Bool := (s.fuse 0).getLsbD b || (s.fuse 1).getLsbD b

theorem lcBlown_iff (s : State) (b : Nat) : s.lcBlown b = true ↔ s.blown 0 b ∨ s.blown 1 b := Bool.or_eq_true_iff

theorem revoked_iff (s : State) (k : Nat) : s.revoked k = true ↔ s.blown 2 k ∨ s.blown 3 k := Bool.or_eq_true_iff

theorem testBit_lcBits (s : State) (b : Nat) : s.lcBits.testBit b = (decide (b < 5) && s.lcBlown b) := by
  rw [State.lcBits, bitsAt_zero, Nat.testBit_mod_two_pow, BitVec.testBit_toNat, BitVec.getLsbD_or, State.lcBlown]

/-- The fuses name a state above `b` where bit `b` or a higher one is blown (R428). -/
theorem lt_fusedState_iff (s : State) (b : Nat) : b < s.fusedState ↔ ∃ c, b ≤ c ∧ c < 5 ∧ s.lcBlown c = true := by
  have hpow : b < s.fusedState ↔ 2 ^ b ≤ s.lcBits := by
    rw [State.fusedState]
    split
    · next h => simp [h]
    · next h => rw [Nat.lt_succ_iff, Nat.le_log2 h]
  rw [hpow]
  constructor
  · intro h
    obtain ⟨c, hbc, hc⟩ := Nat.exists_ge_and_testBit_of_ge_two_pow h
    rw [testBit_lcBits, Bool.and_eq_true, decide_eq_true_eq] at hc
    exact ⟨c, hbc, hc⟩
  · rintro ⟨c, hbc, hc⟩
    have hbit : s.lcBits.testBit c = true := by rwa [testBit_lcBits, Bool.and_eq_true, decide_eq_true_eq]
    exact (Nat.pow_le_pow_right two_pos hbc).trans (Nat.ge_two_pow_of_testBit hbit)

/-- A state with at least the blown bits names the same state or a later one. -/
theorem fusedState_mono {s t : State} (h : ∀ b, s.lcBlown b = true → t.lcBlown b = true) : s.fusedState ≤ t.fusedState := by
  refine le_of_forall_lt fun b hb => ?_
  obtain ⟨c, hbc, hc, hblown⟩ := (lt_fusedState_iff s b).1 hb
  exact (lt_fusedState_iff t b).2 ⟨c, hbc, hc, h c hblown⟩

theorem fusedState_le (s : State) : s.fusedState ≤ 5 := by
  by_contra h
  obtain ⟨c, h5, hc, -⟩ := (lt_fusedState_iff s 5).1 (Nat.lt_of_not_le h)
  omega

/-- Settles O8: both readings of the fuses grow with the blown bits, and a step unblows none. -/
theorem lifeCycleNeverGoesBack : Obligations.LifeCycleNeverGoesBack := by
  unfold Obligations.LifeCycleNeverGoesBack
  intro s t h
  refine ⟨fusedState_mono fun b hb => ?_, fun k hk => ?_⟩
  · exact (lcBlown_iff t b).2 (((lcBlown_iff s b).1 hb).imp (blown_step h) (blown_step h))
  · exact (revoked_iff t k).2 (((revoked_iff s k).1 hk).imp (blown_step h) (blown_step h))

/-! ## What LC_STATUS shows -/

theorem lcRefresh_state (s : State) : (lcRefresh s).get LC_STATUS_STATE = s.fusedState := by
  have h5 := fusedState_le s
  simp only [lcRefresh, putFlag_eq_put]
  rw [get_put_apart _ _ _ _ (by decide), get_put_apart _ _ _ _ (by decide), get_put_apart _ _ _ _ (by decide), get_put_self _ _ _ (by decide)]
  exact Nat.mod_eq_of_lt (by simp only [LC_STATUS_STATE]; omega)

theorem lcRefresh_gap (s : State) : (lcRefresh s).flag LC_STATUS_GAP = (s.lcBits + 1 != 2 ^ s.fusedState) := by
  simp only [flag_eq, lcRefresh, putFlag_eq_put]
  rw [get_put_apart _ _ _ _ (by decide), get_put_apart _ _ _ _ (by decide), get_put_self _ _ _ (by decide)]
  cases s.lcBits + 1 != 2 ^ s.fusedState <;> rfl

/-- The field has no gap where every bit below the state that it names is blown. -/
theorem lcBits_eq_iff (s : State) : s.lcBits + 1 = 2 ^ s.fusedState ↔ ∀ b < s.fusedState, s.lcBlown b = true := by
  have hall : s.lcBits + 1 = 2 ^ s.fusedState ↔ s.lcBits = 2 ^ s.fusedState - 1 := by
    have := Nat.two_pow_pos s.fusedState
    omega
  have h5 := fusedState_le s
  rw [hall]
  constructor
  · intro h b hb
    have hbit : s.lcBits.testBit b = true := by rw [h, Nat.testBit_two_pow_sub_one, decide_eq_true hb]
    rw [testBit_lcBits, Bool.and_eq_true] at hbit
    exact hbit.2
  · refine fun h => Nat.eq_of_testBit_eq fun b => ?_
    rw [Nat.testBit_two_pow_sub_one, testBit_lcBits, Bool.eq_iff_iff, Bool.and_eq_true, decide_eq_true_eq, decide_eq_true_eq]
    exact ⟨fun hb => (lt_fusedState_iff s b).2 ⟨b, le_rfl, hb⟩, fun hb => ⟨by omega, h b hb⟩⟩

theorem gap_iff (s : State) :
    (lcRefresh s).flag LC_STATUS_GAP = true ↔ ∃ b c, b < c ∧ c < 5 ∧ s.lcBlown c = true ∧ s.lcBlown b = false := by
  rw [lcRefresh_gap, bne_iff_ne, Ne, lcBits_eq_iff]
  push Not
  refine exists_congr fun b => ?_
  rw [lt_fusedState_iff, ne_eq, Bool.not_eq_true]
  constructor
  · rintro ⟨⟨c, hbc, hc, hblown⟩, hb⟩
    have hne : b ≠ c := by
      rintro rfl
      exact Bool.false_ne_true (hb.symm.trans hblown)
    exact ⟨c, by omega, hc, hblown, hb⟩
  · rintro ⟨c, hbc, hc, hblown, hb⟩
    exact ⟨⟨c, hbc.le, hc, hblown⟩, hb⟩

theorem blown_blow (s : State) (w : Nat) (v : Word) {x i : Nat} (h : s.blown x i) : (blow w v s).blown x i := (blow_keeps (Keeps.refl s) w v).fuse x i h

/-- Settles O57: the named state is the highest blown bit's, LC_STATUS shows it with its gaps, and further blown bits do not lower it. -/
theorem lifeCycleState : Obligations.LifeCycleState := by
  unfold Obligations.LifeCycleState
  intro s blown
  refine ⟨fun h => ?_, fun b hb hblown habove => ?_, lcRefresh_state s, lcRefresh_state s, gap_iff s, fun w v _ => fusedState_mono fun b hb => ?_⟩
  · refine Nat.eq_zero_of_not_pos fun hpos => ?_
    obtain ⟨c, -, hc, hblown⟩ := (lt_fusedState_iff s 0).1 hpos
    exact Bool.false_ne_true ((h c hc).symm.trans hblown)
  · refine le_antisymm (Nat.le_of_not_lt fun hlt => ?_) ((lt_fusedState_iff s b).2 ⟨b, le_rfl, hb, hblown⟩)
    obtain ⟨c, hbc, hc, hcblown⟩ := (lt_fusedState_iff s (b + 1)).1 hlt
    exact Bool.false_ne_true ((habove c hc hbc).symm.trans hcblown)
  · exact (lcBlown_iff _ b).2 (((lcBlown_iff s b).1 hb).imp (blown_blow s w v) (blown_blow s w v))

end Sys2Proof.Machine

/-! What the commands of a load do in each of its states, how a load is verified and aborted, and how its plan comes into force. -/

namespace Sys2Proof.Machine

/-! ## Commands behind a gate that opens -/

/-- A command behind the gate of a register, where the access goes through: its effect alone decides. -/
theorem done_of_opens {s : State} {m a : Nat} {kp : Bool} (h : s.opens m a kp) {f : State → State} {t : State} (ht : f s = t) :
    done s (gateWrite m a kp f s) = .next (deliver s t) := done_congr ((gateWrite_of_opens h f).trans ht)

/-- `done_of_opens` for a command that can end something, so that what had waited for it goes on. -/
theorem settled_of_opens {s : State} {m a : Nat} {kp : Bool} (h : s.opens m a kp) {f : State → State} {t : State} (ht : f s = t) :
    settled s (gateWrite m a kp f s) = .next (deliver s (settleAll t)) := settled_congr ((gateWrite_of_opens h f).trans ht)

/-- No access of the PF depends on a register other than DEV_BLK_EN, DEV_ID and BSK_KEEPER_STATUS. -/
theorem opens_setReg {s : State} {a : Nat} {kp : Bool} (h : s.opens 0 a kp) {b : Nat} (hblk : DEV_BLK_EN ≠ b) (hid : DEV_ID ≠ b)
    (hkeeper : BSK_KEEPER_STATUS ≠ b) (v : Word) : (s.setReg b v).opens 0 a kp where
  host := h.host
  buf := h.buf
  block := by
    rw [State.enabledAt, State.enabled, flag_eq, get_setReg_ne _ _ _ _ hblk]
    exact h.block
  fused := by
    rw [State.fusedOff, State.small, get_setReg_ne _ _ _ _ hid]
    exact h.fused
  keeper hk := by
    rw [State.isKeeper, get_setReg_ne _ _ _ _ hkeeper]
    exact h.keeper hk
  reach := h.reach

/-- Reserved bits kept are a write of their register. -/
theorem keepRsvl_eq_setReg {a : Nat} {row : RegRow} {x : Nat × Nat} (hr : regRow? a = some (row, x)) (m : Nat) (v : Word) (s : State) :
    keepRsvl m a v s =
      s.setReg a ((s.reg a &&& ~~~(BitVec.ofNat 32 row.rsvl &&& s.writeMask m a row)) ||| (v &&& (BitVec.ofNat 32 row.rsvl &&& s.writeMask m a row))) := by
  simp only [keepRsvl, hr]

/-! ## PLAN_CMD by the state of the load (R302, R303) -/

section
variable {s : State} {m : Nat} (h : s.opens m PLAN_CMD true)
include h

theorem planOpen_rejected (hno : s.get PLAN_STATUS_STATE ≠ 0 ∨ s.flag FC_STATUS_G_ACTIVE = true ∨ s.get PWR_STATUS_STAGE ≠ 3) :
    exec (.planOpen m) s = .next (deliver s (s.put PLAN_EVENT_CMD_REJ 1)) := by
  refine done_of_opens h (if_neg fun hgo => ?_)
  obtain ⟨hidle, hg, hstage⟩ := hgo
  rw [Bool.not_eq_true'] at hg
  exact hno.elim (absurd hidle) fun hno => hno.elim (fun hon => Bool.false_ne_true (hg.symm.trans hon)) (absurd hstage)

theorem planOpen_accepted (hidle : s.get PLAN_STATUS_STATE = 0) (hg : s.flag FC_STATUS_G_ACTIVE = false) (hstage : s.get PWR_STATUS_STAGE = 3) :
    exec (.planOpen m) s =
      let t := (s.put PLAN_STATUS_STATE 1).put PLAN_LEN_WORDS 0
      .next (deliver s { t with mem := t.mem.filter (fun c => c.1 < 0x04000000 || 0x04200000 ≤ c.1), load := {} }) :=
  done_of_opens h (if_pos ⟨hidle, by rw [hg]; rfl, hstage⟩)

theorem planVerify_rejected (hst : s.get PLAN_STATUS_STATE ≠ 1) : exec (.planVerify m) s = .next (deliver s (s.put PLAN_EVENT_CMD_REJ 1)) :=
  done_of_opens h (if_neg hst)

theorem planVerify_accepted (hst : s.get PLAN_STATUS_STATE = 1) :
    exec (.planVerify m) s =
      let ws := (List.range (s.get PLAN_LEN_WORDS)).map fun k => s.memWord (0x04000000 + 4 * k)
      let h := headerOf ws
      let t := ((s.put PLAN_STATUS_STATE 2).put PLAN_STATUS_PARTIAL (if h.partial_ then 1 else 0)).put PLAN_STATUS_BASKET (if h.partial_ then h.basket else 0)
      .next (deliver s { t with load := { words := ws, beyond := s.load.beyond } }) :=
  done_of_opens h (if_pos hst)

theorem planCommit_rejected (hst : s.get PLAN_STATUS_STATE ≠ 3) :
    exec (.planCommit m) s = .next (deliver s (settleAll (s.put PLAN_EVENT_CMD_REJ 1))) := settled_of_opens h (if_neg hst)

theorem planCommit_accepted (hst : s.get PLAN_STATUS_STATE = 3) :
    exec (.planCommit m) s = .next (deliver s (settleAll (if s.commitWaits then s.put PLAN_STATUS_STATE 5 else commitPoint s))) :=
  settled_of_opens h (if_pos hst)

theorem planAbort_rejected (h1 : s.get PLAN_STATUS_STATE ≠ 1) (h3 : s.get PLAN_STATUS_STATE ≠ 3) (h5 : s.get PLAN_STATUS_STATE ≠ 5) :
    exec (.planAbort m) s = .next (deliver s (settleAll (s.put PLAN_EVENT_CMD_REJ 1))) :=
  settled_of_opens h (if_neg fun hst => hst.elim h1 fun hst => hst.elim h3 h5)

theorem planAbort_accepted (hst : s.get PLAN_STATUS_STATE = 1 ∨ s.get PLAN_STATUS_STATE = 3 ∨ s.get PLAN_STATUS_STATE = 5) :
    exec (.planAbort m) s = .next (deliver s (settleAll (abortLoad 0x80 s))) := settled_of_opens h (if_pos hst)

theorem storeBoot_rejected (hno : s.get PLAN_STATUS_STATE ≠ 3 ∨ s.load.frag.isSome = true ∨ 16384 < s.load.words.length) :
    exec (.storeBoot m) s = .next (deliver s (s.put PLAN_EVENT_CMD_REJ 1)) := by
  refine done_of_opens h (if_neg fun hgo => ?_)
  obtain ⟨hst, hfull, hlen⟩ := hgo
  rw [Option.isNone_iff_eq_none] at hfull
  obtain hne | hfrag | hlong := hno
  · exact hne hst
  · rw [hfull] at hfrag
    exact Bool.false_ne_true hfrag
  · omega

theorem storeBoot_accepted (hst : s.get PLAN_STATUS_STATE = 3) (hfrag : s.load.frag = none) (hlen : s.load.words.length ≤ 16384) :
    exec (.storeBoot m) s =
      let t := (s.put PLAN_STATUS_STATE 4).put PLAN_STATUS_STORED 0
      .next (deliver s (nvmNext { t with nvmQueue := t.nvmQueue ++ [5] })) :=
  done_of_opens h (if_pos ⟨hst, Option.isNone_iff_eq_none.2 hfrag, hlen⟩)

theorem setMinSeq_of_plan {p : Plan} (hp : s.plan = some p) :
    exec (.setMinSeq m) s = .next (deliver s (s.put PLAN_MIN_SEQ_MIN (max (s.get PLAN_MIN_SEQ_MIN) p.seq))) :=
  done_of_opens h (by simp only [hp])

theorem setMinSeq_of_none (hp : s.plan = none) : exec (.setMinSeq m) s = .next (deliver s (s.put PLAN_EVENT_CMD_REJ 1)) :=
  done_of_opens h (by simp only [hp, planRej, raise_eq_put])

end

/-- The PF's write of a code that PLAN_CMD does not have only reports it, and keeps its reserved bits (R303, R348). -/
theorem registerWrite_planCmd_unknown {s : State} (h : s.opens 0 PLAN_CMD true) {v : Word} (hv : 6 < v.toNat % 16) (r : SelfTest) (ok : Bool) :
    let k := keepRsvl 0 PLAN_CMD v s
    exec (.registerWrite 0 PLAN_CMD v r ok) s = .next (deliver k (k.put PLAN_EVENT_CMD_REJ 1)) := by
  intro k
  have hcode : bitsAt v 0 4 = v.toNat % 16 := bitsAt_zero v 4
  have hstore : storeRsvl 0 PLAN_CMD v s = k := by
    rw [storeRsvl_of_not_fusedOff h.fused, if_pos ⟨h.host, h.block⟩]
  have hopen : k.opens 0 PLAN_CMD true := by
    obtain ⟨⟨row, x⟩, hr⟩ : ∃ e, regRow? PLAN_CMD = some e := Option.isSome_iff_exists.1 (by decide +kernel)
    rw [show k = _ from keepRsvl_eq_setReg hr 0 v s]
    exact opens_setReg h (by decide) (by decide) (by decide) _
  have hcmd : regCommand r ok 0 PLAN_CMD v s = some (rejects 0 PLAN_CMD true PLAN_EVENT_CMD_REJ k) := by
    have hreg : regCommand r ok 0 PLAN_CMD v s =
        let t := storeRsvl 0 PLAN_CMD v s
        if bitsAt v 0 4 = 0 then some (done t (gateWrite 0 PLAN_CMD true id t)) else if bitsAt v 0 4 = 1 then some (execPlanOpen 0 t)
        else if bitsAt v 0 4 = 2 then some (execPlanVerify 0 t) else if bitsAt v 0 4 = 3 then some (execPlanCommit 0 t)
        else if bitsAt v 0 4 = 4 then some (execPlanAbort 0 t) else if bitsAt v 0 4 = 5 then some (execStoreBoot 0 t)
        else if bitsAt v 0 4 = 6 then some (execSetMinSeq 0 t) else some (rejects 0 PLAN_CMD true PLAN_EVENT_CMD_REJ t) := rfl
    rw [hreg, hstore, hcode]
    iterate 7 rw [if_neg (by omega)]
  rw [registerWrite_of_pfRegister (by decide +kernel), hcmd]
  exact done_of_opens hopen rfl

/-! ## The load from its staging to its end (R300 to R304) -/

theorem abortLoad_of_open {s : State} {why : Nat}
    (hst : s.get PLAN_STATUS_STATE = 1 ∨ s.get PLAN_STATUS_STATE = 2 ∨ s.get PLAN_STATUS_STATE = 3 ∨ s.get PLAN_STATUS_STATE = 5) :
    abortLoad why s =
      { (((s.put PLAN_STATUS_STATE 0).put PLAN_STATUS_RESULT 3).put PLAN_STATUS_CODE why).put PLAN_EVENT_ABORTED 1 with load := {} } := if_pos hst

section
variable {s : State} {m k : Nat}

theorem stagingWrite_stored (hk : s.isKeeper m = true) (hst : s.get PLAN_STATUS_STATE = 1) (hlt : k < 524288) (v : Word) :
    stagingWrite m k v s = (s.setMemWord (0x04000000 + 4 * k) v).put PLAN_LEN_WORDS (max (s.get PLAN_LEN_WORDS) (k + 1)) :=
  (if_pos ⟨hk, hst⟩).trans (if_pos hlt)

theorem stagingWrite_dropped (hno : ¬(s.isKeeper m = true ∧ s.get PLAN_STATUS_STATE = 1 ∧ k < 524288)) (v : Word) :
    stagingWrite m k v s =
      let t := s.put PLAN_EVENT_WR_REJ 1
      if s.isKeeper m = true ∧ s.get PLAN_STATUS_STATE = 1 then { t with load := { s.load with beyond := true } } else t :=
  ite_congr rfl (fun hst => if_neg fun hlt => hno ⟨hst.1, hst.2, hlt⟩) fun _ => rfl

theorem planStagingWrite_of_reached (hm : s.hostOk m = true) (hblk : s.enabled 10 = true) (hpf : m = 0 ∨ m = 65) {v : Word} {t : State}
    (ht : stagingWrite m k v s = t) : exec (.planStagingWrite m k v) s = .next (deliver s t) := (if_pos ⟨hm, hblk, hpf⟩).trans (done_congr ht)

theorem stageTimeout_of_waiting (hst : s.get PLAN_STATUS_STATE = 1 ∨ s.get PLAN_STATUS_STATE = 3) (hboot : s.load.boot = false) :
    exec .stageTimeout s = .next (deliver s (settleAll (abortLoad 0x82 s))) := if_pos ⟨hst, by rw [hboot]; rfl⟩

theorem planVerifyDone_of_verifying (hst : s.get PLAN_STATUS_STATE = 2) :
    exec .planVerifyDone s =
      match verifyPlan s s.load.words with
      | .error e => settled s (planRefused e s)
      | .ok r => settled s (planVerified r.1 r.2 s) := if_pos hst

theorem planVerifyDone_of_error (hst : s.get PLAN_STATUS_STATE = 2) {e : Bad} (he : verifyPlan s s.load.words = .error e) :
    exec .planVerifyDone s = .next (deliver s (settleAll (planRefused e s))) := by
  rw [planVerifyDone_of_verifying hst, he]
  rfl

theorem planVerifyDone_of_ok (hst : s.get PLAN_STATUS_STATE = 2) {r : Plan × Option Plan} (hr : verifyPlan s s.load.words = .ok r) :
    exec .planVerifyDone s = .next (deliver s (settleAll (planVerified r.1 r.2 s))) := by
  rw [planVerifyDone_of_verifying hst, hr]
  rfl

/-- A refused plan that is no boot plan shows its code and its place, and nothing of the load stays (R300, R301). -/
theorem planRefused_of_no_boot (hboot : s.load.boot = false) (code sec i : Nat) :
    planRefused (code, sec, some i) s =
      { ((((s.put PLAN_STATUS_STATE 0).put PLAN_STATUS_RESULT 2).put PLAN_STATUS_CODE code).put PLAN_DETAIL_SECTION sec).put PLAN_EVENT_REFUSED 1
        with load := {} }.put PLAN_DETAIL_INDEX i := by
  simp only [planRefused, hboot, Bool.false_eq_true, if_false]
  rfl

end

/-! ## A plan comes into force (R305, R309, R312) -/

section
variable {s : State}

theorem commitWaitEnd_of_ended (hst : s.get PLAN_STATUS_STATE = 5) (hw : s.commitWaits = false) :
    exec .commitWaitEnd s = .next (deliver s (settleAll (commitPoint s))) := if_pos ⟨hst, by rw [hw]; rfl⟩

variable (hst : s.get PLAN_STATUS_STATE = 6)
include hst

theorem fullReweaveApplied_of_settled (hfrag : s.load.frag = none) (hrims : ∀ n < 16, s.rimBound n = false ∨ s.rimSettled n = true) :
    exec .fullReweaveApplied s =
      let t := recomputeBaskets (eachDo (List.range 256) routeCauses s)
      let u := grantShares (fun _ => true) (eachDo (List.range 64) (fun b u => u.setReg (PLAN_FRAG_SEQ b) 0) t)
      .next (deliver s (settleAll (endApply (unparkSpokes SPK_STATUS_C_REWEAVE (List.range 256) u)))) := by
  have hall : ((List.range 16).all fun n => !s.rimBound n || s.rimSettled n) = true := by
    simpa only [List.all_eq_true, List.mem_range, Bool.or_eq_true, Bool.not_eq_true'] using hrims
  exact if_pos ⟨hst, Option.isNone_iff_eq_none.2 hfrag, hall⟩

theorem partialReweaveApplied_of_settled {f : Plan} (hfrag : s.load.frag = some f) (hmoved : s.moving = [])
    (hrims : ∀ r ∈ f.recs sRIMS, s.rimSettled (recBits r 0 0 4) = true) :
    exec .partialReweaveApplied s =
      let sp := (List.range 256).filter fun n => s.flag (SPK_STATUS_C_REWEAVE n)
      let t := unparkSpokes SPK_STATUS_C_REWEAVE sp (eachDo sp routeCauses s)
      let u := grantShares (fun r => t.get (RING_DESC1_BASKET r) == s.get PLAN_STATUS_BASKET) t
      .next (deliver s (settleAll (flrDeferred (endApply (u.put (PLAN_FRAG_SEQ_SEQ (s.get PLAN_STATUS_BASKET)) s.load.fragSeq))))) := by
  simp only [exec, execPartialReweaveApplied, hfrag]
  exact if_pos ⟨hst, hmoved, List.all_eq_true.2 hrims⟩

end

/-- Settles O43: each code by the states that take it. -/
theorem planCommandsByState : Obligations.PlanCommandsByState := by
  unfold Obligations.PlanCommandsByState
  intro s m h st rej
  refine ⟨fun hst => planOpen_rejected h (.inl hst), planVerify_rejected h, fun hst => ⟨planCommit_rejected h hst, storeBoot_rejected h (.inl hst)⟩,
    planAbort_rejected h, planCommit_accepted h, fun hst hno => storeBoot_rejected h (.inr hno), storeBoot_accepted h, fun v r ok hm hv => ?_⟩
  subst hm
  exact registerWrite_planCmd_unknown h hv r ok

/-- Settles O44: PLAN_CMD by what it finds, a staging write by whether the area takes it, and each end of a load. -/
theorem planLoad : Obligations.PlanLoad := by
  unfold Obligations.PlanLoad
  intro s
  refine ⟨fun m h => ⟨planOpen_accepted h, fun hno => planOpen_rejected h (.inr hno), planVerify_accepted h, planAbort_accepted h,
      fun p => setMinSeq_of_plan h, setMinSeq_of_none h⟩,
    fun why => abortLoad_of_open, fun m k v hm hblk hpf => ⟨fun hmay => ?_, fun hno => ?_⟩, stageTimeout_of_waiting,
    fun hst => ⟨fun e => planVerifyDone_of_error hst, fun r => planVerifyDone_of_ok hst⟩, fun code sec i hboot => planRefused_of_no_boot hboot code sec i⟩
  · obtain ⟨hk, hst, hlt⟩ := hmay
    exact planStagingWrite_of_reached hm hblk hpf (stagingWrite_stored hk hst hlt v)
  · exact planStagingWrite_of_reached hm hblk hpf (stagingWrite_dropped hno v)

/-- Settles O45: the commit point waited for, and the two ends of an apply. -/
theorem planApplies : Obligations.PlanApplies := by
  unfold Obligations.PlanApplies
  exact fun s => ⟨commitWaitEnd_of_ended, fullReweaveApplied_of_settled, fun f hst => partialReweaveApplied_of_settled hst⟩

end Sys2Proof.Machine

/-! What the end of a command leaves alone, what holds a function's messages and sends them, and the snapshots. -/

namespace Sys2Proof.Machine

/-! ## The end of a command -/

/-- A hub in which reed 0's run is in progress and has met nothing yet. -/
def runningReed : State := { State.reset with reeds := [(0, {})] }.put (REED_STATUS_STATE 0) eRUNNING

/-- Refutes O9: the end of a command changes the reed runs in progress too, which meet what the command has brought (R193). Reed 0's run has met
nothing before it and one condition after it. -/
theorem not_interruptDelivery : ¬Obligations.InterruptDelivery := by
  unfold Obligations.InterruptDelivery
  rintro ⟨hrest, -⟩
  have hreeds : runningReed.reedsNow = runningReed.reeds := congrArg State.reeds (hrest State.reset runningReed)
  revert hreeds
  decide +kernel

/-! ## MSI-X conditions (R334, R341) -/

section
variable {s : State} {f : Nat} (h : s.cfgOk f = true)
include h

section
variable {v : Nat} (hv : v < if f = 0 then 256 else 8)
include hv

theorem msixConditionBegin_vector : exec (.msixConditionBegin f (.vector v)) s = .next (deliver s (s.setReg (msixCtrl f v) 1)) :=
  (if_pos h).trans (if_pos hv)

theorem msixConditionEnd_vector : exec (.msixConditionEnd f (.vector v)) s = .next (deliver s (sendHeld f (s.setReg (msixCtrl f v) 0))) :=
  (if_pos h).trans (if_pos hv)

end

theorem msixConditionBegin_function :
    exec (.msixConditionBegin f .function) s = .next (deliver s { s with host := { s.host with msix := s.host.msix.filter (· != f) } }) := if_pos h

theorem msixConditionEnd_function :
    exec (.msixConditionEnd f .function) s =
      .next (deliver s (sendHeld f { s with host := { s.host with msix := f :: s.host.msix.filter (· != f) } })) := if_pos h

theorem msixConditionBegin_busMaster :
    exec (.msixConditionBegin f .busMaster) s = .next (deliver s { s with host := { s.host with bme := s.host.bme.filter (· != f) } }) := if_pos h

theorem msixConditionEnd_busMaster :
    exec (.msixConditionEnd f .busMaster) s =
      .next (deliver s (sendHeld f { s with host := { s.host with bme := f :: s.host.bme.filter (· != f) } })) := if_pos h

theorem msixConditionBegin_d3hot :
    exec (.msixConditionBegin f .d3hot) s = .next (deliver s { s with host := { s.host with d3 := f :: s.host.d3.filter (· != f) } }) := if_pos h

theorem msixConditionEnd_d3hot :
    exec (.msixConditionEnd f .d3hot) s =
      .next (deliver s (sendHeld f { s with host := { s.host with d3 := s.host.d3.filter (· != f) } })) := if_pos h

end

/-! ## The messages held (R341, R455, R456) -/

/-- The held messages of function `f` that nothing holds any longer. -/
def State.heldFree (s : State) (f : Nat) : List (Nat × Nat × Nat) := s.held.filter fun h => h.1 == f && !s.msixHeld f h.2.1

/-- The vectors of those with a source bit still set: each is sent once. -/
def State.vectorsDue (s : State) (f : Nat) : List Nat := (((s.heldFree f).filter fun h => s.sourceSet (f, h.2.2)).map fun h => h.2.1).dedup

theorem sendHeld_sent (f : Nat) (s : State) : (sendHeld f s).sent = (s.vectorsDue f).map (Sent.msix f) ++ s.sent := rfl

theorem sendHeld_held (f : Nat) (s : State) : (sendHeld f s).held = s.held.filter fun h => !(h.1 == f && !s.msixHeld f h.2.1) := by
  refine List.filter_congr fun h hmem => congrArg Bool.not ?_
  rw [Bool.eq_iff_iff, List.contains_iff_mem, List.mem_filter]
  exact and_iff_right hmem

theorem mem_vectorsDue_iff (s : State) (f v : Nat) :
    v ∈ s.vectorsDue f ↔ ∃ x, (f, v, x) ∈ s.held ∧ s.msixHeld f v = false ∧ s.sourceSet (f, x) = true := by
  simp only [State.vectorsDue, State.heldFree, List.mem_dedup, List.mem_map, List.mem_filter, Bool.and_eq_true, beq_iff_eq, Bool.not_eq_true']
  constructor
  · rintro ⟨⟨g, w, x⟩, ⟨⟨hmem, rfl, hfree⟩, hset⟩, rfl⟩
    exact ⟨x, hmem, hfree, hset⟩
  · rintro ⟨x, hmem, hfree, hset⟩
    exact ⟨(f, v, x), ⟨⟨hmem, rfl, hfree⟩, hset⟩, rfl⟩

theorem msix_injective (f : Nat) : Function.Injective (Sent.msix f) := fun _ _ h => (Sent.msix.inj h).2

/-! ## Snapshots (R352, R458, R459) -/

section
variable {s : State} {m : Nat}

section
variable (h : s.opens m (DEV_SNAP_CMD m) false) {v : Word}
include h

theorem snapTake_rejected (hvf : 1 ≤ m ∧ m ≤ 64) (hall : v.toNat / 4 % 2 = 1) :
    exec (.snapTake m v) s = .next (deliver s ((keepRsvl m (DEV_SNAP_CMD m) v s).put (DEV_SNAP_STATUS_REJ m) 1)) :=
  done_of_opens h (if_pos ⟨hvf, hall⟩)

theorem snapTake_accepted (hmay : ¬((1 ≤ m ∧ m ≤ 64) ∧ v.toNat / 4 % 2 = 1)) :
    let k := keepRsvl m (DEV_SNAP_CMD m) v s
    let scope := if v.toNat / 4 % 2 = 1 then none else some (if 1 ≤ m ∧ m ≤ 64 then m - 1 else v.toNat / 256 % 64)
    let job : SnapJob := ⟨scope, k.tally, (k.counters scope).map fun a => (a, k.view m a), true⟩
    exec (.snapTake m v) s = .next (deliver s
      ({ k with snaps := tabSet (fun _ => {}) k.snaps m ⟨[], (tabGet (fun _ => ({} : Snap)) k.snaps m).taking ++ [job]⟩ }.put
        (DEV_SNAP_STATUS_HOLD m) 0)) :=
  done_of_opens h (if_neg hmay)

theorem snapRelease_of_opens :
    exec (.snapRelease m) s =
      let x : Snap := tabGet (fun _ => {}) s.snaps m
      .next (deliver s ({ s with snaps := tabSet (fun _ => {}) s.snaps m { x with copies := [] } }.put (DEV_SNAP_STATUS_HOLD m) 0)) :=
  done_of_opens h rfl

end

theorem snapCopyDone_of_taking {j : SnapJob} {l : List SnapJob} (hj : (tabGet (fun _ => ({} : Snap)) s.snaps m).taking = j :: l) :
    let x : Snap := tabGet (fun _ => {}) s.snaps m
    let t := { s with snaps := tabSet (fun _ => {}) s.snaps m ⟨if j.hold then j.copies else x.copies, l⟩ }.put (DEV_SNAP_STATUS_DONE m) 1
    let u := eachDo [0, 1, 2] (fun i u => u.setReg (DEV_SNAP_TALLY0 m + 4 * i) (BitVec.ofNat 32 (j.tally / 2 ^ (32 * i)))) t
    exec (.snapCopyDone m) s = .next (deliver s
      (if j.hold then ((u.put (DEV_SNAP_STATUS_HOLD m) 1).put (DEV_SNAP_STATUS_SCOPE m) (if j.scope.isNone then 1 else 0)).put
        (DEV_SNAP_STATUS_BASKET m) (j.scope.getD 0) else u)) := by
  simp only [exec, execSnapCopyDone, hj]
  rfl

end

/-- Settles O49: each condition's begin and end, what `sendHeld` sends and keeps, and the steps of a snapshot. -/
theorem msixAndSnapshots : Obligations.MsixAndSnapshots := by
  unfold Obligations.MsixAndSnapshots
  intro s
  refine ⟨fun f h => ⟨fun v hv => ⟨msixConditionBegin_vector h hv, msixConditionEnd_vector h hv⟩, msixConditionBegin_function h, msixConditionEnd_function h,
      msixConditionBegin_busMaster h, msixConditionEnd_busMaster h, msixConditionBegin_d3hot h, msixConditionEnd_d3hot h⟩,
    fun f => ⟨sendHeld_held f s, (s.vectorsDue f).map (Sent.msix f), sendHeld_sent f s, fun v => ?_, ?_⟩,
    fun m v h => ⟨snapTake_rejected h, snapTake_accepted h, snapRelease_of_opens h⟩, fun m j l hj => snapCopyDone_of_taking hj⟩
  · rw [List.mem_map_of_injective (msix_injective f), mem_vectorsDue_iff]
  · exact (List.nodup_dedup _).map (msix_injective f)

end Sys2Proof.Machine

/-! What the sideband's codes, its transfers and its window do, and what a sample of the straps does. -/

namespace Sys2Proof.Machine

theorem released_iff (s : State) : s.released = true ↔ 2 ≤ s.get DEV_SB_STATUS_STAGE := decide_eq_true_iff

/-! ## Codes that give and take addresses, enables and lengths (R353, R354, R357) -/

/-- A broadcast, or a code for the address that the hub has, is taken while VDD_IO is good. -/
theorem sbTakes_of_dest {s : State} (hv : s.vddIoGood = true) {dest : Option Nat} (hd : dest = none ∨ s.sb.dyn = dest) : s.sbTakes dest = true := by
  obtain rfl | rfl := hd
  · exact Bool.and_eq_true_iff.2 ⟨hv, rfl⟩
  · cases hdyn : s.sb.dyn <;> simp [State.sbTakes, hv, hdyn]

section
variable {s : State} (hv : s.vddIoGood = true)
include hv

theorem entdaa_of_none (hd : s.sb.dyn = none) (x : Nat) :
    exec (.entdaa x) s = .next (deliver s ({ s with sb := { s.sb with dyn := some x } }.emit (.sbData 8 (s.provId * 2 ^ 16 + 0x0600)))) := if_pos ⟨hv, hd⟩

theorem setdasa_of_none (hd : s.sb.dyn = none) {st : Nat} (hst : s.sb.stat = some st) (x : Nat) :
    exec (.setdasa st x) s = .next (deliver s { s with sb := { s.sb with dyn := some x } }) := if_pos ⟨hv, hd, hst⟩

theorem setnewda_of_some {old : Nat} (hd : s.sb.dyn = some old) (x : Nat) :
    exec (.setnewda old x) s = .next (deliver s { s with sb := { s.sb with dyn := some x } }) := if_pos (sbTakes_of_dest hv (.inr hd))

theorem rstdaa_of_good : exec .rstdaa s = .next (deliver s { s with sb := { s.sb with dyn := none } }) := if_pos hv

section
variable {dest : Option Nat} (hd : dest = none ∨ s.sb.dyn = dest)
include hd

theorem enec_of_dest {ev : Nat} (hev : ev % 2 = 1) : exec (.enec dest ev) s = .next (deliver s { s with sb := { s.sb with ibi := true } }) :=
  if_pos ⟨sbTakes_of_dest hv hd, hev⟩

theorem disec_of_dest {ev : Nat} (hev : ev % 2 = 1) : exec (.disec dest ev) s = .next (deliver s { s with sb := { s.sb with ibi := false } }) :=
  if_pos ⟨sbTakes_of_dest hv hd, hev⟩

theorem setmwl_of_dest {n : Nat} (h5 : 5 ≤ n) (h32 : n ≤ 32) : exec (.setmwl dest n) s = .next (deliver s { s with sb := { s.sb with mwl := n } }) :=
  if_pos ⟨sbTakes_of_dest hv hd, h5, h32⟩

theorem setmrl_of_dest {n : Nat} (h5 : 5 ≤ n) (h32 : n ≤ 32) : exec (.setmrl dest n) s = .next (deliver s { s with sb := { s.sb with mrl := n } }) :=
  if_pos ⟨sbTakes_of_dest hv hd, h5, h32⟩

end

/-! ## The straps (R388, R389) -/

theorem strapSample_of_levels {levels : List Nat} (hlen : levels.length = 8) (hlevel : ∀ x ∈ levels, x ≤ 2) :
    let t := eachDo levels.zipIdx (fun e u => sampleStrap e.2 e.1 u) s
    exec (.strapSample levels) s = .next (deliver s (faultN (takeAddress (t.put DEV_SB_STRAP_STABLE
      (if (List.range 8).all (fun j => decide (100 ≤ tabGet (fun _ => 0) t.pwr.steady j)) then 1 else 0))))) := by
  have hall : levels.all (fun x => decide (x ≤ 2)) = true := by simpa only [List.all_eq_true, decide_eq_true_eq] using hlevel
  exact if_pos ⟨hlen, hall, hv⟩

end

theorem sampleStrap_eq (j x : Nat) (s : State) :
    let f : Fld := ⟨DEV_SB_STRAP, 2 * j, 2⟩
    let n := tabGet (fun _ => 0) s.pwr.steady j
    let n' := if x = 2 then 0 else if s.get f = x then min 100 (n + 1) else 1
    let t := { s with pwr := { s.pwr with steady := tabSet (fun _ => 0) s.pwr.steady j n' } }.put f x
    let u := if x = 2 then t.put DEV_SB_EVENT_STRAP_BAD 1 else t
    sampleStrap j x s =
      if 2 ≤ s.get DEV_SB_STATUS_STAGE ∧ x ≠ bitsAt (BitVec.ofNat 32 s.pwr.latch) (2 * j) 2 then u.put PWR_EVENT_STRAP_MOVED 1 else u := by
  intro f n n' t u
  exact if_congr (and_congr_left' (released_iff s)) rfl rfl

theorem takeAddress_of_settled {s : State} (hst : s.sb.stat = none) (hset : ∀ i < 3, 100 ≤ tabGet (fun _ => 0) s.pwr.steady (2 + i)) :
    takeAddress s = { s with sb := { s.sb with
      stat := some (0x30 + (s.get ⟨DEV_SB_STRAP, 4, 2⟩ + 2 * s.get ⟨DEV_SB_STRAP, 6, 2⟩ + 4 * s.get ⟨DEV_SB_STRAP, 8, 2⟩)) } } := by
  have hgo : (s.sb.stat.isNone && (List.range 3).all fun i => s.settledStrap (2 + i)) = true := by
    rw [hst, Option.isNone_none, Bool.true_and, List.all_eq_true]
    exact fun i hi => decide_eq_true (hset i (List.mem_range.1 hi))
  have hsum : ((List.range 3).map fun i => s.get ⟨DEV_SB_STRAP, 2 * (2 + i), 2⟩ * 2 ^ i).sum =
      s.get ⟨DEV_SB_STRAP, 4, 2⟩ + 2 * s.get ⟨DEV_SB_STRAP, 6, 2⟩ + 4 * s.get ⟨DEV_SB_STRAP, 8, 2⟩ := by
    simp [List.range_succ]
    omega
  rw [takeAddress, if_pos hgo, hsum]

/-- Settles O50: the codes by whether the hub takes them, and a sample of the straps by what it does to each. -/
theorem sidebandAddressing : Obligations.SidebandAddressing := by
  unfold Obligations.SidebandAddressing
  intro s hv sb
  exact ⟨fun x hd => entdaa_of_none hv hd x, fun st x hd hst => setdasa_of_none hv hd hst x, fun old x hd => setnewda_of_some hv hd x, rstdaa_of_good hv,
    fun dest hd => ⟨fun ev hev => ⟨enec_of_dest hv hd hev, disec_of_dest hv hd hev⟩, fun n h5 h32 => ⟨setmwl_of_dest hv hd h5 h32, setmrl_of_dest hv hd h5 h32⟩⟩,
    fun levels hlen hlevel => strapSample_of_levels hv hlen hlevel, fun j x => sampleStrap_eq j x s, takeAddress_of_settled⟩

/-! ## Private transfers (R354, R355) -/

theorem sbAnswers_iff (s : State) (i2c : Bool) (x : Nat) :
    s.sbAnswers i2c x = true ↔
      s.vddIoGood = true ∧ ((∃ d, s.sb.dyn = some d ∧ i2c = false ∧ x = d) ∨ (s.sb.dyn = none ∧ i2c = true ∧ s.sb.stat = some x)) := by
  rw [State.sbAnswers, Bool.and_eq_true]
  cases s.sb.dyn with
  | none => simp
  | some d => simp [and_comm, eq_comm (a := d)]

section
variable {s : State} {i2c : Bool} {x : Nat} (h : s.sbAnswers i2c x = true)
include h

theorem sbPrivateWrite_of_answers {bs : Bytes} {i : Nat} {l : List Nat} (hbs : bs.take s.sb.mwl = i :: l) :
    exec (.sbPrivateWrite i2c x bs) s = .next (deliver s (faultN (sbGroups l { s with sb := { s.sb with ptr := i % 256 } }))) := by
  simp only [exec, execSbPrivateWrite, h, if_true, hbs, done_eq]

variable {n : Nat} (hn : 0 < n)
include hn

theorem sbPrivateRead_of_groups (hk : min n s.sb.mrl % 4 = 0) :
    let k := min n s.sb.mrl
    let r := sbBytes (k / 4) s
    exec (.sbPrivateRead i2c x n) s = .next (deliver s (r.2.emit (.sbData k (r.1 % 256 ^ k)))) := by
  simp only [exec, execSbPrivateRead, h, hn, and_self, if_true, hk, Nat.mul_zero, Nat.add_zero, done_eq]

theorem sbPrivateRead_of_rest (hk : min n s.sb.mrl % 4 ≠ 0) :
    let k := min n s.sb.mrl
    let r := sbBytes (k / 4) s
    exec (.sbPrivateRead i2c x n) s = .next (deliver s ((sbLatch r.2.sb.ptr r.2).emit
      (.sbData k ((r.1 + 2 ^ (32 * (k / 4)) * (r.2.sbRead r.2.sb.ptr).toNat) % 256 ^ k)))) := by
  simp only [exec, execSbPrivateRead, h, hn, and_self, if_true, hk, if_false, done_eq]

end

/-! ## Codes that return something (R353, R354) -/

section
variable {s : State} (hv : s.vddIoGood = true) {x : Nat} (hd : s.sb.dyn = some x)
include hv hd

theorem sbReturns_of_dyn (n : Nat) (v : State → Nat) : sbReturns x n v s = .next (deliver s (s.emit (.sbData n (v s)))) :=
  if_pos (sbTakes_of_dest hv (.inr hd))

theorem getstatus_of_dyn :
    exec (.getstatus x) s = .next (deliver s ({ s with freeCtr := s.freeCtr + 1 }.emit (.sbData 2 (Config.freeNat s.freeCtr % 65536)))) :=
  if_pos (sbTakes_of_dest hv (.inr hd))

end

/-! ## The window (R356, R358) -/

section
variable {s : State}

theorem sbWinRead_of_good (hv : s.vddIoGood = true) (v : Word) :
    exec (.sbWinRead v) s = .next (deliver s (sbWindow 1 (s.put DEV_SB_WIN_CMD_AUTO_INC (v.toNat / 16 % 2)))) := if_pos hv

theorem sbWinWrite_of_good (hv : s.vddIoGood = true) (v : Word) :
    exec (.sbWinWrite v) s = .next (deliver s (sbWindow 2 (s.put DEV_SB_WIN_CMD_AUTO_INC (v.toNat / 16 % 2)))) := if_pos hv

theorem sbWindow_of_running (hst : s.get DEV_SB_WIN_CMD_STATE = 1) (cmd : Nat) : sbWindow cmd s = s := if_pos (.inl hst)

section
variable {cmd : Nat} (hcmd : cmd = 1 ∨ cmd = 2) (hst : s.get DEV_SB_WIN_CMD_STATE ≠ 1)
include hcmd hst

theorem not_sbWindow_ignored : ¬(s.get DEV_SB_WIN_CMD_STATE = 1 ∨ (cmd ≠ 1 ∧ cmd ≠ 2)) := by omega

theorem sbWindow_refused (hstage : s.get DEV_SB_STATUS_STAGE ≠ 3) : sbWindow cmd s = s.put DEV_SB_WIN_CMD_STATE 3 :=
  (if_neg (not_sbWindow_ignored hcmd hst)).trans (if_pos hstage)

theorem sbWindow_starts (hstage : s.get DEV_SB_STATUS_STAGE = 3) :
    sbWindow cmd s = { s.put DEV_SB_WIN_CMD_STATE 1 with sb := { s.sb with
      win := some (s.get DEV_SB_WIN_ADDR_ADDR * 4, if cmd = 2 then some (s.reg DEV_SB_WIN_DATA) else none) } } :=
  (if_neg (not_sbWindow_ignored hcmd hst)).trans (if_neg (not_not.2 hstage))

end

theorem sbWinDone_of_read {off : Nat} (hw : s.sb.win = some (off, none)) :
    let x := barRead 65 off (sbWinOver s)
    exec .sbWinDone s = .next (deliver s (settleAll ({ x.2 with freeCtr := x.2.freeCtr + 1 }.setReg DEV_SB_WIN_DATA
      (x.1.getD (BitVec.ofNat 32 (Config.freeNat x.2.freeCtr)))))) := by
  simp only [exec, execSbWinDone, hw]
  rfl

theorem sbWinDone_of_write {off : Nat} {v : Word} (hw : s.sb.win = some (off, some v)) : exec .sbWinDone s = barWrite {} true 65 off v (sbWinOver s) := by
  simp only [exec, execSbWinDone, hw]

theorem get_withSideband (s : State) (x : Sideband) (g : Fld) : ({ s with sb := x } : State).get g = s.get g := rfl

/-- The access's end shows in STATE alone, which is neither AUTO_INC nor the address. -/
theorem sbWinOver_eq (s : State) :
    let t := { s.put DEV_SB_WIN_CMD_STATE 2 with sb := { s.sb with win := none } }
    sbWinOver s = if s.flag DEV_SB_WIN_CMD_AUTO_INC = true then t.put DEV_SB_WIN_ADDR_ADDR (s.get DEV_SB_WIN_ADDR_ADDR + 1) else t := by
  intro t
  have hget : ∀ g, fieldsApart DEV_SB_WIN_CMD_STATE g = true → t.get g = s.get g := fun g hg =>
    (get_withSideband (s.put DEV_SB_WIN_CMD_STATE 2) _ g).trans (get_put_apart s _ g 2 hg)
  have hinc : t.get DEV_SB_WIN_CMD_AUTO_INC = s.get DEV_SB_WIN_CMD_AUTO_INC := hget _ (by decide)
  have haddr : t.get DEV_SB_WIN_ADDR_ADDR = s.get DEV_SB_WIN_ADDR_ADDR := hget _ (by decide)
  rw [flag_eq, ← hinc, ← haddr]
  rfl

end

/-- Settles O51: the transfers by what the hub answers, and the window by the state of its access. -/
theorem sidebandTransfers : Obligations.SidebandTransfers := by
  unfold Obligations.SidebandTransfers
  intro s
  exact ⟨sbAnswers_iff s,
    fun i2c x h => ⟨fun bs i l => sbPrivateWrite_of_answers h, fun n hn => ⟨sbPrivateRead_of_groups h hn, sbPrivateRead_of_rest h hn⟩⟩,
    fun x hv hd => ⟨sbReturns_of_dyn hv hd 6 State.provId, sbReturns_of_dyn hv hd 1 fun _ => 0x06,
      sbReturns_of_dyn hv hd 1 fun _ => 0x00, getstatus_of_dyn hv hd, sbReturns_of_dyn hv hd 2 fun s => s.sb.mwl, sbReturns_of_dyn hv hd 2 fun s => s.sb.mrl⟩,
    fun v hv => ⟨sbWinRead_of_good hv v, sbWinWrite_of_good hv v⟩, fun cmd hcmd => ⟨fun hst => sbWindow_of_running hst cmd, sbWindow_refused hcmd, sbWindow_starts hcmd⟩,
    fun off => sbWinDone_of_read, fun off v => sbWinDone_of_write, sbWinOver_eq s⟩

end Sys2Proof.Machine

/-! What trips, rails and brown-outs do, how the hub starts up, and what the pace governor, the shutdown and the peaks do. -/

namespace Sys2Proof.Machine

/-! ## Trips (R366) -/

section
variable {s : State} (h : 2 ≤ s.get DEV_SB_STATUS_STAGE)
include h

theorem supplyTrip_of_released {r : Nat} (hr : r < 8) (high : Bool) :
    exec (.supplyTrip r high) s = .next (deliver s (settleAll (raiseFault srcSupply .supply none (r + if high then 256 else 0) s))) :=
  if_pos ⟨hr, (released_iff s).2 h⟩

variable {i : Nat} (hi : i < 16) {tj : Int}
include hi

theorem thermalTrip_of_released (hj : 1150 ≤ tj) :
    let t := s.put (PWR_TEMP_TJ i) (unsigned 12 tj)
    let u := if signed 12 (t.get (PWR_TEMP_MAX i)) < tj then t.put (PWR_TEMP_MAX i) (unsigned 12 tj) else t
    exec (.thermalTrip i tj) s = .next (deliver s (settleAll (raiseFault srcThermal .thermal none (i + 65536 * unsigned 16 tj) u))) :=
  if_pos ⟨hi, hj, (released_iff s).2 h⟩

theorem thermalWarn_of_released (hj : 1050 ≤ tj) :
    let t := s.put (PWR_TEMP_TJ i) (unsigned 12 tj)
    let u := if signed 12 (t.get (PWR_TEMP_MAX i)) < tj then t.put (PWR_TEMP_MAX i) (unsigned 12 tj) else t
    exec (.thermalWarn i tj) s = .next (deliver s (settleAll (raiseFault srcThermal .thermalWarn none (i + 65536 * unsigned 16 tj) u))) :=
  if_pos ⟨hi, hj, (released_iff s).2 h⟩

end

/-! ## Rails before reset release (R384, R385, R390) -/

section
variable {s : State} (h : s.get DEV_SB_STATUS_STAGE < 2)
include h

theorem released_eq_false : (!s.released) = true := by
  rw [Bool.not_eq_true', ← Bool.not_eq_true, released_iff]
  omega

theorem railGood_of_held {r : Nat} (hr : r < 8) (hflag : s.flag ⟨DEV_SB_RAILS, r, 1⟩ = false) :
    let t := if r = 6 then (sidebandUp s).put DEV_SB_RAILS_GOOD (s.get DEV_SB_RAILS_GOOD) else s
    exec (.railGood r) s = .next (deliver s (faultN (resetStage (t.put ⟨DEV_SB_RAILS, r, 1⟩ 1)))) :=
  if_pos ⟨hr, released_eq_false h, by rw [hflag]; rfl⟩

theorem railDrop_of_held {r : Nat} (hr : r < 8) :
    let t := s.put ⟨DEV_SB_RAILS, r, 1⟩ 0
    exec (.railDrop r) s =
      .next (deliver s (faultN (resetStage ({ t with pwr := { t.pwr with steady := [] } }.put DEV_SB_STRAP_STABLE 0)))) :=
  if_pos ⟨hr, released_eq_false h⟩

theorem resetRelease_of_settled (hrails : s.railsGood = true) (hstable : s.flag DEV_SB_STRAP_STABLE = true)
    (hset : ∀ j < 8, 100 ≤ tabGet (fun _ => 0) s.pwr.steady j) (r : SelfTest) (nvm : Option Nat) :
    exec (.resetRelease r nvm) s = .next (deliver s (settleAll (startUp r nvm s))) := by
  have hall : (List.range 8).all s.settledStrap = true := List.all_eq_true.2 fun j hj => decide_eq_true (hset j (List.mem_range.1 hj))
  exact if_pos ⟨released_eq_false h, hrails, hstable, hall⟩

end

theorem brownOut_of_rail {r : Nat} (hr : r < 8) (s : State) :
    let t := coldState s
    let u := { t with pwr := { t.pwr with steady := [] } }.put DEV_SB_STRAP_STABLE 0
    let v := if r = 6 then sidebandUp u else u
    exec (.brownOut r) s = .next (deliver s (faultN (loadIdentity (lcRefresh
      (resetStage ((v.put DEV_SB_RAILS_GOOD (s.get DEV_SB_RAILS_GOOD)).put ⟨DEV_SB_RAILS, r, 1⟩ 0)))))) := if_pos hr

theorem resetStage_eq (s : State) : resetStage s = s.put DEV_SB_STATUS_STAGE (if s.railsGood then 1 else 0) := rfl

/-- What the hub keeps, and what it loses, as it re-enters reset (R386, R393). -/
theorem coldState_parts (s : State) (a : Nat) :
    (coldState s).regs = s.regs.filter (fun c => decide (0x3F000000 ≤ c.1) || c.1 == PLAN_MIN_SEQ || c.1 == BIST_OPTIME) ∧
      (coldState s).nvm = s.nvm ∧ (coldState s).fuses = s.fuses ∧ (coldState s).sb = s.sb ∧ (coldState s).mem = [] ∧ (coldState s).plan = none ∧
      (coldState s).hops = [] ∧ (coldState s).byte a = State.reset.byte a := ⟨rfl, rfl, rfl, rfl, rfl, rfl, rfl, rfl⟩

/-- Start-up ends where its first checks, or its self-test, find a class G fault (R393). -/
theorem startUp_eq (r : SelfTest) (nvm : Option Nat) (s : State) :
    let t := startChecks nvm s
    let u := startTest r (t.put PWR_START_KIND t.startKind)
    startUp r nvm s = if t.flag FC_STATUS_G_ACTIVE = true then t else if u.flag FC_STATUS_G_ACTIVE = true then u else loadStores u := rfl

/-! ## Plan-ready (R342, R393, R417) -/

theorem planReady_of_started {s : State} (hstage : s.get DEV_SB_STATUS_STAGE = 2) (hrun : s.nvmRun = none) (hqueue : s.nvmQueue = [])
    (hverify : s.get PLAN_STATUS_STATE ≠ 2) (happly : s.get PLAN_STATUS_STATE ≠ 6) (time : Nat) (paused : Bool) :
    let t := ((s.put DEV_SB_STATUS_STAGE 3).put DEV_SB_EVENT_READY 1).put PWR_STATUS_STAGE 3
    let u := (t.put PWR_START_TIME (min time 65535)).put PWR_START_PAUSED (if paused then 1 else 0)
    let v := eachDo allRecords recheckRecord (completeErasure { u with host := { u.host with ready := true } })
    exec (.planReady time paused) s = .next (deliver s (settleAll (if v.get PWR_START_KIND = 1 then v else queueMap v))) :=
  if_pos ⟨hstage, Option.isNone_iff_eq_none.2 hrun, hqueue, hverify, happly⟩

/-- Settles O54: each event of the rails by whether the hub is held in reset, and the parts of start-up. -/
theorem railsAndStartUp : Obligations.RailsAndStartUp := by
  unfold Obligations.RailsAndStartUp
  intro s
  exact ⟨fun h => ⟨fun r high hr => supplyTrip_of_released h hr high, fun i tj hi => ⟨thermalTrip_of_released h hi, thermalWarn_of_released h hi⟩⟩,
    fun h => ⟨fun r hr => railGood_of_held h hr, fun r hr => railDrop_of_held h hr,
      fun r nvm hrails hstable hset => resetRelease_of_settled h hrails hstable hset r nvm⟩,
    resetStage_eq s, fun r hr => brownOut_of_rail hr s, coldState_parts s, fun r nvm => startUp_eq r nvm s,
    fun time paused hstage hrun hqueue hverify happly => planReady_of_started hstage hrun hqueue hverify happly time paused⟩

/-! ## The pace governor (R397 to R399) -/

section
variable {s : State}

theorem droopCrossing_of_started {i d base : Nat} (hi : i < 64) (hd : d < 256) (hb : base < 4096) (h : 3 ≤ s.get DEV_SB_STATUS_STAGE) :
    let t := (s.put (PWR_DROOP_NOW i) d).put (PWR_DROOP_BASE i) base
    let u := t.put (PWR_DROOP_PEAK i) (max d (t.get (PWR_DROOP_PEAK i)))
    exec (.droopCrossing i d base) s =
      .next (deliver s (settleAll (paceTo i { u with pwr := { u.pwr with pace := max u.pwr.pace (u.droopLevel d) } }))) := if_pos ⟨hi, hd, hb, h⟩

section
variable {d : Nat}

theorem droopLevel_three (h3 : 2 * s.get PWR_PACE_CFG_T3 ≤ d) : s.droopLevel d = 3 := if_pos h3

variable (h3 : d < 2 * s.get PWR_PACE_CFG_T3)
include h3

theorem droopLevel_two (h2 : 2 * s.get PWR_PACE_CFG_T2 ≤ d) : s.droopLevel d = 2 := (if_neg (Nat.not_le.2 h3)).trans (if_pos h2)

theorem droopLevel_low (h2 : d < 2 * s.get PWR_PACE_CFG_T2) : s.droopLevel d = if 2 * s.get PWR_PACE_CFG_T1 ≤ d then 1 else 0 :=
  (if_neg (Nat.not_le.2 h3)).trans (if_neg (Nat.not_le.2 h2))

end

theorem paceStepDown_of_level (h : s.pwr.pace ≠ 0) :
    exec .paceStepDown s = .next (deliver s (settleAll (paceTo 0 { s with pwr := { s.pwr with pace := s.pwr.pace - 1 } }))) := if_neg h

theorem pwrPaceForceWrite_of_opens {m : Nat} (h : s.opens m PWR_PACE_FORCE true) (v : Word) :
    let t := storeRw m PWR_PACE_FORCE v s
    exec (.pwrPaceForceWrite m v) s =
      .next (deliver s (settleAll (paceTo (Config.freeNat t.freeCtr % 64) { t with freeCtr := t.freeCtr + 1 }))) := settled_of_opens h rfl

end

/-- The level in force shown, `FORCED` where it is a forced one. -/
def paceShown (new : Nat) (s : State) : State :=
  ((s.put PWR_STATUS_LEVEL new).put RING_CAP_PACE new).putFlag PWR_STATUS_FORCED (decide (s.pwr.pace < s.get PWR_PACE_FORCE_LEVEL))

/-- An entry into level 1, and one into level 2, whose time begins to run. -/
def paceEntersOne (old new : Nat) (t : State) : State := if old = 0 ∧ 1 ≤ new then t.incMod PWR_PACE_CNT_L1 else t

def paceEntersTwo (old new : Nat) (t : State) : State :=
  if old < 2 ∧ 2 ≤ new then { t.incSat PWR_PACE_CNT_L2 with pwr := { t.pwr with since := some t.elapsed } } else t

/-- The time at level 2 or more is added at its end. -/
def paceTimed (new : Nat) (t : State) : State :=
  match t.pwr.since with
  | some a =>
    if new < 2 then { t.put PWR_PACE_TIME_TIME (t.get PWR_PACE_TIME_TIME + tens (t.elapsed - a)) with pwr := { t.pwr with since := none } } else t
  | none => t

def paceRises (old new : Nat) (t : State) : State := if old < new then t.raise PWR_EVENT_LEVEL_UP else t

def paceEntersThree (sensor old new : Nat) (t : State) : State :=
  if old < 3 ∧ new = 3 then raiseFault srcPace .paceL3 none sensor ((t.incSat PWR_PACE_CNT_L3).raise PWR_EVENT_LEVEL3) else t

/-- A change of level, step by step (R398). -/
theorem paceTo_eq (sensor : Nat) (s : State) :
    let old := s.get PWR_STATUS_LEVEL
    let new := max s.pwr.pace (s.get PWR_PACE_FORCE_LEVEL)
    let t := paceEntersThree sensor old new (paceRises old new (paceTimed new (paceEntersTwo old new (paceEntersOne old new (paceShown new s)))))
    paceTo sensor s = eachDo (t.units.map (·.1)) showUnit t := rfl

theorem paceTimed_of_none {t : State} (h : t.pwr.since = none) (new : Nat) : paceTimed new t = t := by
  rw [paceTimed, h]

/-- The measured level's first step up, with none forced: an entry into level 1 and a rise (R398). -/
theorem paceTo_of_first {s : State} {sensor : Nat} (h0 : s.get PWR_STATUS_LEVEL = 0) (h1 : s.pwr.pace = 1) (hf : s.get PWR_PACE_FORCE_LEVEL = 0)
    (hs : s.pwr.since = none) :
    let t := ((s.put PWR_STATUS_LEVEL 1).put RING_CAP_PACE 1).put PWR_STATUS_FORCED 0
    let u := (t.incMod PWR_PACE_CNT_L1).put PWR_EVENT_LEVEL_UP 1
    paceTo sensor s = eachDo (u.units.map (·.1)) showUnit u := by
  intro t u
  have hshown : paceShown 1 s = t := by
    rw [paceShown, h1, hf, putFlag_eq_put, decide_eq_false (Nat.not_lt_zero 1), if_neg Bool.false_ne_true]
  have hsince : (t.incMod PWR_PACE_CNT_L1).pwr.since = none := by rw [incMod_pwr, put_pwr, put_pwr, put_pwr, hs]
  have htimed : paceTimed 1 (t.incMod PWR_PACE_CNT_L1) = t.incMod PWR_PACE_CNT_L1 := paceTimed_of_none hsince 1
  have hmax : max 1 0 = 1 := rfl
  rw [paceTo_eq, h0, h1, hf, hmax, hshown, paceEntersOne, if_pos ⟨rfl, le_rfl⟩, paceEntersTwo, if_neg (by decide), htimed, paceRises, if_pos one_pos,
    paceEntersThree, if_neg (by decide)]
  rfl

/-! ## Shutdown and peaks (R400 to R404) -/

section
variable {s : State} {m : Nat} (h : s.opens m PWR_CMD true)
include h

section
variable {r : SelfTest}

theorem shutdown_rejected (hno : ¬(s.get PWR_STATUS_STAGE = 3 ∧ s.get PLAN_STATUS_STATE = 0 ∧ s.flag FC_STATUS_G_ACTIVE = false)) :
    exec (.shutdown m r) s = .next (deliver s (settleAll (s.put PWR_EVENT_CMD_REJ 1))) := by
  refine settled_of_opens h (if_neg fun hgo => hno ?_)
  rwa [Bool.not_eq_true'] at hgo

theorem shutdown_accepted (hgo : s.get PWR_STATUS_STAGE = 3 ∧ s.get PLAN_STATUS_STATE = 0 ∧ s.flag FC_STATUS_G_ACTIVE = false) :
    let t := dropPlan (s.put PWR_STATUS_STAGE 4)
    let full := t.flag BIST_STATUS_FULL_NEXT
    let u := if full then t else selfTest false r t
    exec (.shutdown m r) s = .next (deliver s (settleAll (if u.flag FC_STATUS_G_ACTIVE then u else
      { u.put BIST_MAP_STATUS_PENDING 1 with nvmQueue := u.nvmQueue.filter (fun g => g != 7) ++ [7] ++ if full then [] else [6] }))) := by
  rw [← Bool.not_eq_true'] at hgo
  exact settled_of_opens h (if_pos hgo)

end

theorem clearPeak_of_opens :
    let t := eachDo (List.range 8) (fun r u => u.put (PWR_RAIL_MIN r) (u.get (PWR_RAIL_NOW r))) s
    let u := eachDo (List.range 16) (fun i u => u.put (PWR_TEMP_MAX i) (u.get (PWR_TEMP_TJ i))) t
    exec (.clearPeak m) s = .next (deliver s (eachDo (List.range 64) (fun i v => v.put (PWR_DROOP_PEAK i) (v.get (PWR_DROOP_NOW i))) u)) :=
  done_of_opens h rfl

end

theorem shutdownHalt_of_written {s : State} (hstage : s.get PWR_STATUS_STAGE = 4) (hg : s.flag FC_STATUS_G_ACTIVE = false) (hrun : s.nvmRun = none)
    (hqueue : s.nvmQueue = []) : exec .shutdownHalt s = .next (deliver s ((s.put PWR_STATUS_STAGE 5).put PWR_EVENT_SHUT_DONE 1)) :=
  if_pos ⟨hstage, by rw [hg]; rfl, Option.isNone_iff_eq_none.2 hrun, hqueue⟩

/-- Settles O55: the governor's level by what is measured and forced, and the shutdown by what allows it. -/
theorem paceAndShutdown : Obligations.PaceAndShutdown := by
  unfold Obligations.PaceAndShutdown
  intro s
  exact ⟨fun i d base => droopCrossing_of_started, fun d => ⟨droopLevel_three, droopLevel_two, droopLevel_low⟩, paceStepDown_of_level,
    fun m v h => pwrPaceForceWrite_of_opens h v, fun sensor => paceTo_of_first, fun m r h => ⟨shutdown_rejected h, shutdown_accepted h⟩,
    shutdownHalt_of_written, fun m h => clearPeak_of_opens h⟩

end Sys2Proof.Machine

/-! What a fault message does by its class, how a basket recovers, and what injections and the log's tail do. -/

namespace Sys2Proof.Machine

/-! ## Fault messages (R361 to R367) -/

section
variable {s : State}

theorem faultMessage_of_known {src kind b detail : Nat} {k : FaultKind} {x : Option Nat} (hk : kindOf kind = some k) (he : emits src k = true)
    (hsrc : src / 4096 ≠ 15) (hx : s.foundBasket src k b detail = some x) :
    let w := detail - detail % 4
    exec (.faultMessage src kind b detail) s = .next (deliver s (settleAll (raiseFault src k x detail
      (if k = .eccUncorr then { s with eccBad := w :: s.eccBad.filter fun a => a != w } else s)))) := by
  have hgo : (emits src k && src / 4096 != 0xF) = true := by
    rw [he, Bool.true_and, bne_iff_ne]
    exact hsrc
  simp only [exec, execFaultMessage, hk, hgo, if_true, hx, settled_eq]

/-- A class B message is noted and logged, and leaves a cause where it is a condition or injected (R367, R377). -/
theorem raiseB_eq (src : Nat) (k : FaultKind) (b detail : Nat) (inj : Option Nat) :
    let t := logGB (faultMsg src k .b (some b) detail) (noteB b (faultMsg src k .b (some b) detail) s)
    let u := if k.condition = true ∨ inj.isSome = true then { t with col := { t.col with causes := ⟨src, k, b, inj.isNone, inj.toList⟩ :: t.col.causes } } else t
    raiseB src k b detail inj s = basketFault b (countCauses b u) := by
  intro t u
  exact congrArg (fun v => basketFault b (countCauses b v)) (if_congr Bool.or_eq_true_iff rfl rfl)

/-! ## A basket's state (R367 to R370) -/

/-- The spokes of a NORMAL basket park (R368). -/
def basketParked (b : Nat) (s : State) : State := if s.get (BSK_STATUS_STATE b) = 1 then parkSpokes SPK_STATUS_C_BASKET (s.basketSpokes b) s else s

theorem basketFault_of_classG {b : Nat} (hg : s.flag FC_STATUS_G_ACTIVE = true) : basketFault b s = s := if_pos hg

section
variable {b : Nat} (hg : s.flag FC_STATUS_G_ACTIVE = false)
include hg

theorem basketFault_of_live :
    basketFault b s = faultN (startQuiet b
      (if s.get (BSK_STATUS_STATE b) = 1 ∨ s.get (BSK_STATUS_STATE b) = 2 then
        if s.get (BSK_STATUS_RECOV b) = 16 then
          ((logInfo .lockedOut (some b) 0 ((basketParked b s).put (BSK_STATUS_STATE b) 3)).put FC_EVENT_LOCKED_OUT 1).put (FC_BSK_EVT_LOCKED_OUT b) 1
        else (basketParked b s).put (BSK_STATUS_STATE b) 2
      else basketParked b s)) :=
  if_neg (hg ▸ Bool.false_ne_true)

section
variable (hst : s.get (BSK_STATUS_STATE b) = 1 ∨ s.get (BSK_STATUS_STATE b) = 2)
include hst

theorem basketFault_to_quiet (hrec : s.get (BSK_STATUS_RECOV b) ≠ 16) :
    basketFault b s = faultN (startQuiet b ((basketParked b s).put (BSK_STATUS_STATE b) 2)) := by
  rw [basketFault_of_live hg, if_pos hst, if_neg hrec]

theorem basketFault_to_faulted (hrec : s.get (BSK_STATUS_RECOV b) = 16) :
    basketFault b s = faultN (startQuiet b
      (((logInfo .lockedOut (some b) 0 ((basketParked b s).put (BSK_STATUS_STATE b) 3)).put FC_EVENT_LOCKED_OUT 1).put (FC_BSK_EVT_LOCKED_OUT b) 1)) := by
  rw [basketFault_of_live hg, if_pos hst, if_pos hrec]

end

theorem basketFault_of_faulted (hst : s.get (BSK_STATUS_STATE b) = 3) : basketFault b s = faultN (startQuiet b s) := by
  rw [basketFault_of_live hg, basketParked, hst, if_neg (by decide), if_neg (by decide)]

theorem quietPeriodEnd_of_quiet (hb : b ∈ s.col.quiet) : exec (.quietPeriodEnd b) s = .next (deliver s (settleAll (recover b s))) :=
  if_pos ⟨List.contains_iff_mem.2 hb, by rw [hg]; rfl⟩

end

/-- A basket's recovery, part by part (R368, R370). -/
theorem recover_eq (b : Nat) :
    let t := setQuiet b false (s.put (BSK_STATUS_STATE b) 1)
    let u := { t with col := { t.col with recov := (b, t.elapsed) :: t.col.recov } }
    let n := min 16 (u.col.recov.countP fun r => r.1 == b)
    let v := logInfo .recovered (some b) n ((((u.put (BSK_STATUS_RECOV b) n).incSat (FC_BSK_CNT_RECOV_ALL b)).put FC_EVENT_RECOVERED 1).put (FC_BSK_EVT_RECOVERED b) 1)
    recover b s = faultN (unparkSpokes SPK_STATUS_C_BASKET (v.basketSpokes b) v) := rfl

theorem recoveryAgeOut_eq (b : Nat) :
    let t := { s with col := { s.col with recov := dropLastOf (fun r => r.1 == b) s.col.recov } }
    exec (.recoveryAgeOut b) s = .next (deliver s (t.put (BSK_STATUS_RECOV b) (min 16 (t.col.recov.countP fun r => r.1 == b)))) := rfl

theorem clearCause_of_cause {src b : Nat} {k : FaultKind} {c : Cause} (hc : s.cause? src k b = some c) :
    clearCause src k b s = if c.heldBy = [] then dropCause src k b s else
      { s with col := { s.col with causes := s.col.causes.map fun x => if x = c then { c with detected := false } else x } } := by
  simp only [clearCause, hc]

end

/-- Settles O52: a message by its kind and class, a basket's fault by its state, and how causes and recoveries end. -/
theorem faultsAndRecovery : Obligations.FaultsAndRecovery := by
  unfold Obligations.FaultsAndRecovery
  intro s
  refine ⟨fun src kind b detail k x => faultMessage_of_known, fun src b detail k inj => raiseB_eq src k b detail inj, fun b => basketFault_of_classG,
    fun b hg => ⟨fun hst => ⟨basketFault_to_quiet hg hst, basketFault_to_faulted hg hst⟩, basketFault_of_faulted hg⟩, fun b hb hg => ?_,
    recoveryAgeOut_eq, fun src b k c => clearCause_of_cause⟩
  rw [quietPeriodEnd_of_quiet hg hb, recover_eq]

/-! ## Injections (R377, R378) -/

section
variable {s : State} {m : Nat}

section
variable (h : s.opens m (FC_FORCE_CMD (copyOf m)) false)
include h

theorem faultPulse_refused {r : Nat} (hr : s.forceCheck m = .error r) : exec (.faultPulse m) s = .next (deliver s (settleAll (forceRej m r s))) :=
  settled_of_opens h (by simp only [hr])

theorem faultHold_refused {r : Nat} (hr : s.forceCheck m = .error r) : exec (.faultHold m) s = .next (deliver s (settleAll (forceRej m r s))) :=
  settled_of_opens h (by simp only [hr])

section
variable {src : Nat} {k : FaultKind} {b : Option Nat} (hk : s.forceCheck m = .ok (src, k, b))
include hk

theorem faultPulse_accepted :
    exec (.faultPulse m) s = .next (deliver s (settleAll ((pulse src k b s).put (FC_FORCE_STATUS_DONE (copyOf m)) 1))) :=
  settled_of_opens h (by simp only [hk, raise_eq_put])

theorem faultHold_full (hfull : 16 ≤ s.heldCount m) : exec (.faultHold m) s = .next (deliver s (settleAll (forceRej m 6 s))) :=
  settled_of_opens h (by simp only [hk, if_pos hfull])

theorem faultHold_accepted (hroom : s.heldCount m < 16) :
    exec (.faultHold m) s =
      .next (deliver s (settleAll (showHeld (copyOf m) ((hold m src k b s).put (FC_FORCE_STATUS_DONE (copyOf m)) 1)))) :=
  settled_of_opens h (by simp only [hk, if_neg (Nat.not_le.2 hroom), raise_eq_put])

end

section
variable {src kind b : Nat} {k : FaultKind} {x : Cause} (hf : s.forced m = (src, kind, b)) (hk : kindOf kind = some k) (hx : s.cause? src k b = some x)
include hf hk hx

theorem fcRelease_of_held (hm : m ∈ x.heldBy) :
    exec (.fcRelease m) s =
      .next (deliver s (settleAll (showHeld (copyOf m) ((releaseCause m x s).put (FC_FORCE_STATUS_DONE (copyOf m)) 1)))) :=
  settled_of_opens h (by simp only [release, hf, hk, hx, if_pos (List.contains_iff_mem.2 hm), raise_eq_put])

theorem fcRelease_of_not_held (hm : m ∉ x.heldBy) : exec (.fcRelease m) s = .next (deliver s (settleAll (forceRej m 5 s))) :=
  settled_of_opens h (by simp only [release, hf, hk, hx, if_neg (List.contains_iff_mem.not.2 hm)])

end

end

section
variable {src b : Nat} {k : FaultKind} (hk : k.cls true = .b)
include hk

/-- A class B kind with no cause uncleared is raised, and a condition's cause clears at once. -/
theorem pulse_of_no_cause (hc : s.cause? src k b = none) :
    let t := raiseB src k b 0xFFFFFFFF none s
    pulse src k (some b) s = if k.condition then dropCause src k b t else t := by
  simp only [pulse, Option.isSome_some, hk, hc, Option.isSome_none, Bool.false_eq_true, if_false]
  rfl

theorem pulse_of_cause {x : Cause} (hc : s.cause? src k b = some x) : pulse src k (some b) s = s := by
  simp only [pulse, Option.isSome_some, hk, hc, if_true]

theorem hold_of_no_cause (hc : s.cause? src k b = none) : hold m src k (some b) s = raiseB src k b 0xFFFFFFFF (some m) s := by
  simp only [hold, Option.isSome_some, hk, hc]
  rfl

end

theorem releaseCause_eq (m : Nat) (x : Cause) :
    let h := x.heldBy.filter fun y => y != m
    releaseCause m x s = countCauses x.basket (if h = [] ∧ x.detected = false then dropCause x.source x.kind x.basket s
      else { s with col := { s.col with causes := s.col.causes.map fun y => if y = x then { x with heldBy := h } else y } }) := by
  simp only [releaseCause, Bool.not_eq_true']

/-! ## The log's tail (R379) -/

variable (h : s.opens m FC_LOG_TAIL false) {v : Word}
include h

theorem fcLogTailWrite_of_not_past (hin : ¬(s.get FC_LOG_HEAD_HEAD + 65536 - s.get FC_LOG_TAIL_TAIL) % 65536 <
      (v.toNat % 65536 + 65536 - s.get FC_LOG_TAIL_TAIL) % 65536) :
    exec (.fcLogTailWrite m v) s = .next (deliver s (logResume (logLevel (storeRw m FC_LOG_TAIL v s)))) := by
  refine done_of_opens h (if_pos ?_)
  rw [bitsAt_zero]
  exact Nat.not_lt.1 hin

theorem fcLogTailWrite_of_past (hpast : (s.get FC_LOG_HEAD_HEAD + 65536 - s.get FC_LOG_TAIL_TAIL) % 65536 <
      (v.toNat % 65536 + 65536 - s.get FC_LOG_TAIL_TAIL) % 65536) :
    exec (.fcLogTailWrite m v) s = .next (deliver s (s.put FC_EVENT_VAL_REJ 1)) := by
  refine done_of_opens h (if_neg ?_)
  rw [bitsAt_zero]
  exact Nat.not_le.2 hpast

end

/-- Settles O53: each injection by the check and the cause that it meets, and the tail by whether it is past HEAD. -/
theorem injectionAndLog : Obligations.InjectionAndLog := by
  unfold Obligations.InjectionAndLog
  intro s
  exact ⟨fun m h => ⟨fun r hr => ⟨faultPulse_refused h hr, faultHold_refused h hr⟩,
      fun src k b hk => ⟨faultPulse_accepted h hk, faultHold_full h hk, faultHold_accepted h hk⟩,
      fun src kind b k x hf hk hx => ⟨fcRelease_of_held h hf hk hx, fcRelease_of_not_held h hf hk hx⟩⟩,
    fun src b k hk => ⟨pulse_of_no_cause hk, fun x => pulse_of_cause hk, fun m => hold_of_no_cause hk⟩, releaseCause_eq,
    fun m v h => ⟨fcLogTailWrite_of_not_past h, fcLogTailWrite_of_past h⟩⟩

end Sys2Proof.Machine

/-! What the life-cycle commands do, how they end, and what the test access port and the debug session do. -/

namespace Sys2Proof.Machine

/-! ## Life-cycle commands (R431, R432, R434) -/

/-- The keeper's commands of LC_CMD with their codes. -/
def lcCommands (m : Nat) (v : Word) : List (Nat × Instr) :=
  [(1, .enterFactory m v), (2, .provision m v), (3, .enterField m v), (4, .retNonce m v), (5, .lcReturn m v), (6, .lcRetire m v), (7, .lcRevoke m v)]

/-- What a command accepted takes with it: its arguments, the nonce and the token as they stand. -/
def State.lcJob (s : State) (code slot : Nat) : LcJob :=
  ⟨code, slot, (List.range 56).map s.lcArg, (List.range 12).map fun i => s.reg (LC_NONCE i), (List.range 24).map fun i => s.opnd (LC_TOKEN i)⟩

theorem exec_of_mem_lcCommands {m n : Nat} {v : Word} {c : Instr} (hc : (n, c) ∈ lcCommands m v) (s : State) : exec c s = lcWrite m n v s := by
  have hall : ∀ e ∈ lcCommands m v, exec e.2 s = lcWrite m e.1 v s := List.forall_iff_forall_mem.1 ⟨rfl, rfl, rfl, rfl, rfl, rfl, rfl⟩
  exact hall (n, c) hc

section
variable {s : State} {m n : Nat} {v : Word} {c : Instr} (h : s.opens m LC_CMD true) (hc : (n, c) ∈ lcCommands m v)
include h hc

theorem lcCommand_of_opens {t : State} (ht : lcCommand n v (keepRsvl m LC_CMD v s) = t) : exec c s = .next (deliver s (settleAll t)) :=
  (exec_of_mem_lcCommands hc s).trans (settled_of_opens h ht)

theorem lcCommand_refused {why : Nat} (hw : lcReason n (v.toNat / 16 % 2) (v.toNat / 256 % 256) (keepRsvl m LC_CMD v s) = some why) :
    exec c s = .next (deliver s (settleAll (clearArgs (((keepRsvl m LC_CMD v s).put LC_STATUS_REASON why).put LC_EVENT_REJ 1)))) := by
  have hbits : lcReason n (bitsAt v 4 1) (bitsAt v 8 8) (keepRsvl m LC_CMD v s) = some why := hw
  refine lcCommand_of_opens h hc ?_
  simp only [lcCommand, hbits, lcRefuse, raise_eq_put]

theorem lcCommand_accepted (hw : lcReason n (v.toNat / 16 % 2) (v.toNat / 256 % 256) (keepRsvl m LC_CMD v s) = none) :
    exec c s = .next (deliver s (settleAll (lcAccept n (v.toNat / 16 % 2) (keepRsvl m LC_CMD v s)))) := by
  have hbits : lcReason n (bitsAt v 4 1) (bitsAt v 8 8) (keepRsvl m LC_CMD v s) = none := hw
  refine lcCommand_of_opens h hc ?_
  simp only [lcCommand, hbits]
  rfl

end

section
variable {s : State} {code slot : Nat}

theorem lcAccept_retNonce : lcAccept 4 slot s = retNonce s := if_pos rfl

/-- A command that waits for a token, and REVOKE, leave a load alone (R434, R441). -/
theorem lcAccept_without_abort (hcode : code = 5 ∨ code = 7) :
    lcAccept code slot s = { s.put LC_STATUS_BUSY 1 with lc := { s.lc with job := some (s.lcJob code slot) } } :=
  (if_neg (by omega)).trans (if_pos hcode)

theorem lcAccept_with_abort (h4 : code ≠ 4) (h5 : code ≠ 5) (h7 : code ≠ 7) :
    lcAccept code slot s = abortLoad 0x84 { s.put LC_STATUS_BUSY 1 with lc := { s.lc with job := some (s.lcJob code slot) } } :=
  (if_neg h4).trans (if_neg (not_or.2 ⟨h5, h7⟩))

end

/-- What a command that is accepted has met of R432. -/
theorem accepts_of_lcReason_none {s : State} {n slot confirm : Nat} (h : lcReason n slot confirm s = none) :
    s.moveOk n = true ∧ s.keeperKeyOk n slot = true ∧ (n = 4 ∨ confirm = 0xC3) ∧ s.flag LC_STATUS_BUSY = false := by
  rw [lcReason, ite_some_eq_none_iff, ite_some_eq_none_iff, ite_some_eq_none_iff, ite_some_eq_none_iff] at h
  obtain ⟨hmove, hkey, hconfirm, hbusy, -⟩ := h
  rw [Bool.not_eq_true', Bool.not_eq_false] at hmove hkey
  exact ⟨hmove, hkey, by omega, Bool.eq_false_iff.2 hbusy⟩

/-! ## The end of a command (R432 to R435) -/

/-- The state in which the end of command `j` finds the hub: RETURN has spent its nonce. -/
def nonceSpent (j : LcJob) (s : State) : State := if j.code = 5 then dropRetNonce s else s

/-- RETURN and RETIRE have dropped the plan (R432). -/
def planLeft (j : LcJob) (s : State) : State := if j.code = 5 ∨ j.code = 6 then dropPlan (nonceSpent j s) else nonceSpent j s

theorem not_tokenFails {s : State} {j : LcJob} (hgo : j.code ≠ 5 ∨ s.tokenOk j = true) : ¬(j.code = 5 ∧ (!s.tokenOk j) = true) := by
  rintro ⟨h5, ht⟩
  obtain hne | hok := hgo
  · exact hne h5
  · rw [hok] at ht
    exact Bool.false_ne_true ht

section
variable {s : State} {j : LcJob} (hj : s.lc.job = some j)
include hj

theorem lcCommandDone_of_bad_token (h5 : j.code = 5) (ht : s.tokenOk j = false) (bad : Option Nat) :
    exec (.lcCommandDone bad) s = .next (deliver s (settleAll (tokenFails (nonceSpent j s)))) := by
  have hno : j.code = 5 ∧ (!s.tokenOk j) = true := ⟨h5, by rw [ht]; rfl⟩
  simp only [exec, execLcCommandDone, hj]
  exact if_pos hno

section
variable (hgo : j.code ≠ 5 ∨ s.tokenOk j = true)
include hgo

theorem lcCommandDone_of_good : exec (.lcCommandDone none) s = .next (deliver s (settleAll (lcSucceeds j (planLeft j s)))) := by
  simp only [exec, execLcCommandDone, hj]
  exact if_neg (not_tokenFails hgo)

theorem lcCommandDone_of_bad_word {w : Nat} (hw : (lcWrites j).any (fun e => e.1 == w) = true) :
    exec (.lcCommandDone (some w)) s = .next (deliver s (settleAll (lcFuseFail j w (planLeft j s)))) := by
  simp only [exec, execLcCommandDone, hj]
  exact (if_neg (not_tokenFails hgo)).trans (if_pos hw)

end

end

/-! ## Fuses (R429, R430) -/

section
variable {s : State} {m : Nat} (h : s.opens m LC_FUSE_CMD true)
include h

theorem fuseRead_of_opens :
    let w := s.get LC_FUSE_ADDR_WORD
    exec (.fuseRead m) s = .next (deliver s ((s.setReg LC_FUSE_DATA (if 80 ≤ w ∧ w < 88 then 0 else s.fuse w)).put LC_EVENT_FUSE_DONE 1)) :=
  done_of_opens h rfl

theorem fuseProgram_refused (hno : s.get LC_STATUS_STATE ≠ 1 ∨ s.get LC_FUSE_ADDR_WORD < 88) (ok : Bool) :
    exec (.fuseProgram m ok) s = .next (deliver s (settleAll (s.put LC_EVENT_FUSE_REJ 1))) :=
  settled_of_opens h (if_neg fun hgo => hno.elim (absurd hgo.1) (Nat.not_lt.2 hgo.2))

variable (hst : s.get LC_STATUS_STATE = 1) (hw : 88 ≤ s.get LC_FUSE_ADDR_WORD)
include hst hw

theorem fuseProgram_blows :
    let w := s.get LC_FUSE_ADDR_WORD
    exec (.fuseProgram m true) s = .next (deliver s (settleAll ((blow w (s.reg LC_FUSE_DATA) s).put LC_EVENT_FUSE_DONE 1))) :=
  settled_of_opens h (if_pos ⟨hst, hw⟩)

theorem fuseProgram_fails :
    let w := s.get LC_FUSE_ADDR_WORD
    exec (.fuseProgram m false) s = .next (deliver s (settleAll (fuseFails (w, s.reg LC_FUSE_DATA) s))) :=
  settled_of_opens h (if_pos ⟨hst, hw⟩)

end

/-- Settles O58: a command by R432's first reason, its end by its token and its fuses, and the fuses' own command. -/
theorem lifeCycleCommands : Obligations.LifeCycleCommands := by
  unfold Obligations.LifeCycleCommands
  intro s
  refine ⟨fun m v n c h hc => ⟨fun why => lcCommand_refused h hc, fun hw => ?_⟩, fun n slot confirm => accepts_of_lcReason_none,
    fun j hj => ⟨lcCommandDone_of_bad_token hj, fun hgo => ⟨lcCommandDone_of_good hj hgo, fun w => lcCommandDone_of_bad_word hj hgo⟩⟩,
    rfl, rfl, rfl, fun m ok h => ⟨fuseRead_of_opens h, fun hst hw => ⟨fuseProgram_blows h hst hw, fuseProgram_fails h hst hw⟩,
      fun hno => fuseProgram_refused h hno ok⟩⟩
  rw [lcCommand_accepted h hc hw]
  refine ⟨?_, fun hcode => settled_congr (lcAccept_without_abort hcode), fun h4 h5 h7 => settled_congr (lcAccept_with_abort h4 h5 h7)⟩
  rintro rfl
  exact settled_congr lcAccept_retNonce

end Sys2Proof.Machine

/-! What the test access port's instructions do, and how a debug session opens. -/

namespace Sys2Proof.Machine

/-! ## The instruction register (R437, R438) -/

theorem isScan_iff (n : Nat) : isScan n = true ↔ n = 0x20 ∨ n = 0x21 := by simp only [isScan, Bool.or_eq_true, beq_iff_eq]

theorem tapLoad_eq (n : Nat) (s : State) :
    let t := { s with tap := { s.tap with ir := n, scanned := s.tap.scanned || (n == 0x20 || n == 0x21) } }
    tapLoad n s = t.put LC_DBG_STATUS_SCANNING (if n = 0x20 ∨ n = 0x21 then 1 else 0) := by
  intro t
  exact congrArg (t.put LC_DBG_STATUS_SCANNING) (if_congr (isScan_iff n) rfl rfl)

@[simp] theorem tapLoad_fuses (n : Nat) (s : State) : (tapLoad n s).fuses = s.fuses := put_fuses ..

@[simp] theorem tapLoad_freeCtr (n : Nat) (s : State) : (tapLoad n s).freeCtr = s.freeCtr := put_freeCtr ..

theorem tapLoad_tap (n : Nat) (s : State) : (tapLoad n s).tap = { s.tap with ir := n, scanned := s.tap.scanned || isScan n } := put_tap ..

/-- Of the registers an instruction changes the debug status alone. -/
theorem tapLoad_reg (n : Nat) (s : State) {a : Nat} (h : a ≠ LC_DBG_STATUS) : (tapLoad n s).reg a = s.reg a := reg_put_ne _ _ _ _ h

theorem tapLoad_get (n : Nat) (s : State) {f : Fld} (h : f.reg ≠ LC_DBG_STATUS) : (tapLoad n s).get f = s.get f := by
  rw [State.get, tapLoad_reg n s h, State.get]

/-- A signature's verdict rests on the keys in the fuses alone. -/
theorem verifies_congr {s t : State} (h : t.fuses = s.fuses) (key : Nat) (msg : List Nat) (sig : List Word) :
    t.verifies key msg sig = s.verifies key msg sig := by
  have hfuse : ∀ w, t.fuse w = s.fuse w := fun w => by rw [State.fuse, h, State.fuse]
  have hwords : ∀ lo n, t.fuseWords lo n = s.fuseWords lo n := fun lo n => List.map_congr_left fun i _ => hfuse (lo + i)
  rw [State.verifies, State.publicKey, hwords, ← State.publicKey, State.verifies]

/-! ## The instructions (R436 to R439) -/

theorem tapDo_of_good {s : State} (hv : s.vddIoGood = true) (f : State → State) : tapDo f s = .next (deliver s (f s)) := if_pos hv

/-- The pin-taking instructions that pass through the boundary cells, with their codes. -/
def cellInstrs (cells : Nat) : List (Nat × Instr) := [(3, .extest cells), (6, .extestPulse cells), (7, .extestTrain cells)]

theorem exec_of_mem_cellInstrs {s : State} (hv : s.vddIoGood = true) {cells n : Nat} {c : Instr} (hc : (n, c) ∈ cellInstrs cells) :
    exec c s = .next (deliver s (if s.pinsOk then boundaryScan cells (tapLoad n s) else (tapLoad 0xFF s).put LC_EVENT_JTAG_REJ 1)) := by
  have hall : ∀ e ∈ cellInstrs cells, exec e.2 s = tapDo (fun s => tapRestricted s.pinsOk e.1 (boundaryScan cells) s) s :=
    List.forall_iff_forall_mem.1 ⟨rfl, rfl, rfl⟩
  exact (hall (n, c) hc).trans (tapDo_of_good hv _)

theorem pinsOk_eq_false_iff (s : State) : s.pinsOk = false ↔ (s.get LC_STATUS_STATE = 2 ∨ s.get LC_STATUS_STATE = 3) ∧ s.plan.isSome = true := by
  rw [State.pinsOk, Bool.or_eq_false_iff, Bool.not_eq_false', Bool.or_eq_true, beq_iff_eq, beq_iff_eq, Option.isNone_eq_false_iff]
  rfl

/-! ## Authenticated debug (R440) -/

section
variable {s : State} (hv : s.vddIoGood = true)
include hv

theorem dbgChal_refused (hr : s.tap.refuse = true) : exec .dbgChal s = .next (deliver s ((tapLoad 0x10 s).emit (.tdo 384 0))) := by
  refine (tapDo_of_good hv dbgChal).trans (done_congr (if_pos ?_))
  rw [tapLoad_tap]
  exact hr

theorem dbgChal_fresh (hr : s.tap.refuse = false) :
    let t := tapLoad 0x10 s
    let ws := (List.range 12).map fun j => (Config.freeWords s.freeCtr).getD j 0
    exec .dbgChal s = .next (deliver s ({ t with freeCtr := s.freeCtr + 1, tap := { t.tap with nonce := some ws } }.emit (.tdo 384 (wordsNat ws)))) := by
  have hno : ¬(tapLoad 0x10 s).tap.refuse = true := by
    rw [tapLoad_tap]
    exact hr ▸ Bool.false_ne_true
  refine (tapDo_of_good hv dbgChal).trans (done_congr ((if_neg hno).trans ?_))
  simp only [tapLoad_freeCtr]

end

/-- The response `sig` under owner slot `key` opens a session: in FIELD, under a usable slot, over the nonce that is unspent (R440). -/
def State.debugOpens (s : State) (key : Nat) (sig : List Word) : Prop :=
  s.get LC_STATUS_STATE = 3 ∧ s.flag ⟨LC_STATUS, 13 + key % 2, 1⟩ = true ∧
    ∃ ws, s.tap.nonce = some ws ∧ s.verifies (key % 2) (wordBytes ws ++ s.serialBytes ++ [0x44]) sig = true

theorem debugOk_iff (s : State) (key : Nat) (sig : List Word) : s.debugOk key sig = true ↔ s.debugOpens key sig := by
  rw [State.debugOk, Bool.and_eq_true, Bool.and_eq_true, and_assoc, beq_iff_eq]
  cases hn : s.tap.nonce with
  | none => simp [State.debugOpens, hn]
  | some ws => simp [State.debugOpens, hn, State.lcState]

theorem debugOpens_tapLoad (n : Nat) (s : State) (key : Nat) (sig : List Word) : (tapLoad n s).debugOpens key sig ↔ s.debugOpens key sig := by
  have hreg : ∀ lo w, (Fld.mk LC_STATUS lo w).reg ≠ LC_DBG_STATUS := fun _ _ => show LC_STATUS ≠ LC_DBG_STATUS by decide
  have hserial : (tapLoad n s).serialBytes = s.serialBytes := by rw [State.serialBytes, tapLoad_reg n s (by decide), State.serialBytes]
  simp only [State.debugOpens, flag_eq, tapLoad_get n s (hreg _ _), LC_STATUS_STATE, hserial, verifies_congr (tapLoad_fuses n s), tapLoad_tap]

section
variable {s : State} (hv : s.vddIoGood = true) {key : Nat} {sig : List Word}
include hv

theorem dbgResp_good (hgood : s.debugOpens key sig) :
    let t := tapLoad 0x11 s
    let u := { t with tap := { t.tap with nonce := none } }
    exec (.dbgResp key sig) s = .next (deliver s ((u.put LC_DBG_STATUS_LEVEL 1).put LC_EVENT_DBG_AUTH 1)) :=
  (tapDo_of_good hv (dbgResp key sig)).trans (done_congr (if_pos ((debugOk_iff _ _ _).2 ((debugOpens_tapLoad 0x11 s key sig).2 hgood))))

theorem dbgResp_bad (hbad : ¬s.debugOpens key sig) :
    let t := tapLoad 0x11 s
    let u := { t with tap := { t.tap with nonce := none } }
    let v := (u.incSat LC_DBG_STATUS_FAILS).put LC_EVENT_DBG_FAIL 1
    exec (.dbgResp key sig) s = .next (deliver s { v with tap := { v.tap with refuse := true } }) :=
  (tapDo_of_good hv (dbgResp key sig)).trans (done_congr (if_neg fun hok => hbad ((debugOpens_tapLoad 0x11 s key sig).1 ((debugOk_iff _ _ _).1 hok))))

end

/-- Settles O59: each instruction while VDD_IO is good, and the session by its nonce and signature. -/
theorem testAccess : Obligations.TestAccess := by
  unfold Obligations.TestAccess
  intro s
  exact ⟨fun hv => ⟨if_pos hv, fun cells => if_pos hv, if_pos hv, if_pos hv, if_pos hv,
      ⟨fun cells n c hc => exec_of_mem_cellInstrs hv hc, if_pos hv, if_pos hv, if_pos hv, if_pos hv⟩,
      ⟨dbgChal_refused hv, dbgChal_fresh hv⟩, fun key sig => ⟨dbgResp_good hv, dbgResp_bad hv⟩⟩,
    fun n => tapLoad_eq n s, fun cells => by simp only [boundaryScan, State.fresh, cellCount], pinsOk_eq_false_iff s, rfl, rfl⟩

end Sys2Proof.Machine
